-- ==== Sys2Proof/Word.lean ====
section
/-! DEFINITION. Words, bytes and the names of the places an event or an instruction refers to:
logical tiles, context tags, engines. Plain data only. -/

namespace Sys2Proof

/-- A 32-bit scalar word (R91). -/
abbrev Word := BitVec 32
/-- One byte of any memory (R8: every memory is little-endian). -/
abbrev Byte := BitVec 8
/-- The 512 bytes of a vector register: lane L at bits 32L to 32L + 31 (R37). -/
abbrev Vec := BitVec 4096
/-- A mask register: bit L governs lane L (R118). -/
abbrev Mask := BitVec 128
/-- A bundle: slot k at bits 32k to 32k + 31 (R61). -/
abbrev Bundle := BitVec 128

/-- A context tag, 0 to 7 (R250). -/
abbrev Tag := Fin 8
/-- A launch queue, 0 to 15 (R27). -/
abbrev QueueId := Fin 16
/-- A Thaov port, 0 to 63 (R24). -/
abbrev PortId := Fin 64
/-- A reticle: 12 x field row + field column, 0 to 95 (R15). -/
abbrev ReticleId := Fin 96

/-- Logical coordinates of a tile on the modelled wafer (R18). -/
structure TileId where
  x : Nat
  y : Nat
  deriving DecidableEq, Repr

/-- The three command engines of a tile that ECANCEL names (R207). -/
inductive Engine where
  | matrix
  | row
  | copy
  deriving DecidableEq, Repr

/-- What a swap brings in (R261): a SAVED context by tag, or a fresh start of a kernel
(given by its kernel sequence number) at a PC and a priority. -/
inductive SwapIn where
  | saved (tag : Tag)
  | fresh (kernel : Nat) (pc : Word) (prio : BitVec 2) (launch : BitVec 160)
  deriving DecidableEq, Repr

/-- Whether an operation on a bit vector read as a signed number lies in a range. -/
def inIntRange (lo hi v : Int) : Bool := decide (lo ≤ v) && decide (v ≤ hi)

/-- Clamp an integer to a range (saturation, R48). -/
def clampInt (lo hi v : Int) : Int := max lo (min hi v)

end Sys2Proof
end

