-- ==== Sys2Proof/Syntax.lean ====
section
/-! DEFINITION. The instructions and events of the part: one constructor per row of spec/opcode_table.json.
A row with an encoding carries the fields of its slot word, named as the table names them (p is the predicate
selector of bits [25:24]). A row without an encoding is a step of the machine (a matrix microinstruction, an event of
a state table, a host access): it carries the place it acts on. -/

namespace Sys2Proof

/-- Every instruction and event of the opcode table. -/
inductive Instr where
  /-- NOP (R63): An all-zero slot word does nothing and is charged EMPTY. -/
  | nop
  /-- HEADER (R66): A slot-0 header sets the bundle's semaphore waits, predicate remaps and inversions, and the lent immediate bits. -/
  | header (w : BitVec 1) (s : BitVec 5) (x : BitVec 1) (t : BitVec 5) (r i : BitVec 3) (l : BitVec 9)
  /-- ADD (R94): gd gets (ga + gb) mod 2^32. -/
  | add (p : BitVec 2) (d a b : BitVec 5)
  /-- SUB (R94): gd gets (ga - gb) mod 2^32. -/
  | sub (p : BitVec 2) (d a b : BitVec 5)
  /-- AND (R94): gd gets the bitwise and of ga and gb. -/
  | and (p : BitVec 2) (d a b : BitVec 5)
  /-- OR (R94): gd gets the bitwise or of ga and gb. -/
  | or (p : BitVec 2) (d a b : BitVec 5)
  /-- XOR (R94): gd gets the bitwise xor of ga and gb. -/
  | xor (p : BitVec 2) (d a b : BitVec 5)
  /-- ANDN (R94): gd gets ga and not gb. -/
  | andn (p : BitVec 2) (d a b : BitVec 5)
  /-- SHL (R94): gd gets ga shifted left by gb[4:0]. -/
  | shl (p : BitVec 2) (d a b : BitVec 5)
  /-- SHR (R94): gd gets ga shifted right by gb[4:0], with zero fill. -/
  | shr (p : BitVec 2) (d a b : BitVec 5)
  /-- SAR (R94): gd gets ga shifted right by gb[4:0], with sign fill. -/
  | sar (p : BitVec 2) (d a b : BitVec 5)
  /-- ROL (R94): gd gets ga rotated left by gb[4:0]. -/
  | rol (p : BitVec 2) (d a b : BitVec 5)
  /-- MIN (R94): gd gets the signed minimum of ga and gb. -/
  | min (p : BitVec 2) (d a b : BitVec 5)
  /-- MAX (R94): gd gets the signed maximum of ga and gb. -/
  | max (p : BitVec 2) (d a b : BitVec 5)
  /-- MINU (R94): gd gets the unsigned minimum of ga and gb. -/
  | minu (p : BitVec 2) (d a b : BitVec 5)
  /-- MAXU (R94): gd gets the unsigned maximum of ga and gb. -/
  | maxu (p : BitVec 2) (d a b : BitVec 5)
  /-- MUL (R94): gd gets the low 32 bits of ga times gb. -/
  | mul (p : BitVec 2) (d a b : BitVec 5)
  /-- MULH (R94): gd gets the upper half of the signed 64-bit product. -/
  | mulh (p : BitVec 2) (d a b : BitVec 5)
  /-- MULHU (R94): gd gets the upper half of the unsigned 64-bit product. -/
  | mulhu (p : BitVec 2) (d a b : BitVec 5)
  /-- DIV (R94): gd gets the signed quotient, with the defined results for division by zero and for overflow. -/
  | div (p : BitVec 2) (d a b : BitVec 5)
  /-- DIVU (R94): gd gets the unsigned quotient, with 0xFFFF_FFFF for division by zero. -/
  | divu (p : BitVec 2) (d a b : BitVec 5)
  /-- REM (R94): gd gets the signed remainder, which takes the sign of the dividend. -/
  | rem (p : BitVec 2) (d a b : BitVec 5)
  /-- REMU (R94): gd gets the unsigned remainder. -/
  | remu (p : BitVec 2) (d a b : BitVec 5)
  /-- ADDS (R94): gd gets the signed sum, saturated to the I32 range. -/
  | adds (p : BitVec 2) (d a b : BitVec 5)
  /-- SUBS (R94): gd gets the signed difference, saturated to the I32 range. -/
  | subs (p : BitVec 2) (d a b : BitVec 5)
  /-- CLZ (R94): gd gets the count of leading zero bits of ga. -/
  | clz (p : BitVec 2) (d a : BitVec 5)
  /-- CTZ (R94): gd gets the count of trailing zero bits of ga. -/
  | ctz (p : BitVec 2) (d a : BitVec 5)
  /-- POPC (R94): gd gets the count of one bits of ga. -/
  | popc (p : BitVec 2) (d a : BitVec 5)
  /-- BREV (R94): gd gets the bits of ga in reversed order. -/
  | brev (p : BitVec 2) (d a : BitVec 5)
  /-- BSWAP (R94): gd gets the bytes of ga in reversed order. -/
  | bswap (p : BitVec 2) (d a : BitVec 5)
  /-- ADDI (R96): gd gets ga plus the sign-extended imm14. -/
  | addi (p : BitVec 2) (d a : BitVec 5) (i : BitVec 14)
  /-- ANDI (R96): gd gets ga and the sign-extended imm14. -/
  | andi (p : BitVec 2) (d a : BitVec 5) (i : BitVec 14)
  /-- ORI (R96): gd gets ga or the sign-extended imm14. -/
  | ori (p : BitVec 2) (d a : BitVec 5) (i : BitVec 14)
  /-- XORI (R96): gd gets ga xor the sign-extended imm14. -/
  | xori (p : BitVec 2) (d a : BitVec 5) (i : BitVec 14)
  /-- SHLI (R96): gd gets ga shifted left by an immediate count. -/
  | shli (p : BitVec 2) (d a s : BitVec 5)
  /-- SHRI (R96): gd gets ga shifted right by an immediate count, with zero fill. -/
  | shri (p : BitVec 2) (d a s : BitVec 5)
  /-- SARI (R96): gd gets ga shifted right by an immediate count, with sign fill. -/
  | sari (p : BitVec 2) (d a s : BitVec 5)
  /-- MULI (R96): gd gets ga times the sign-extended imm14, at multiply latency. -/
  | muli (p : BitVec 2) (d a : BitVec 5) (i : BitVec 14)
  /-- MOVI (R97): gd gets the sign-extended imm19. -/
  | movi (p : BitVec 2) (d : BitVec 5) (i : BitVec 19)
  /-- MOVHI (R97): gd gets imm19 times 2^13. -/
  | movhi (p : BitVec 2) (d : BitVec 5) (i : BitVec 19)
  /-- LEAB (R97): gd gets the bundle address PC plus 16 times the sign-extended imm19. -/
  | leab (p : BitVec 2) (d : BitVec 5) (i : BitVec 19)
  /-- BFX (R98): gd gets a sign-extended bit field of ga. -/
  | bfx (p : BitVec 2) (d a l s : BitVec 5)
  /-- BFXU (R98): gd gets a zero-extended bit field of ga. -/
  | bfxu (p : BitVec 2) (d a l s : BitVec 5)
  /-- BFI (R98): Inserts the low bits of ga into a bit field of gd. -/
  | bfi (p : BitVec 2) (d a l s : BitVec 5)
  /-- SETP (R99): Compares ga with gb and sets, ands or ors the result into pd. -/
  | setp (p : BitVec 2) (d : BitVec 3) (c : BitVec 2) (a b : BitVec 5) (k : BitVec 4)
  /-- SETPI (R99): Compares ga with a sign-extended imm10 and sets, ands or ors the result into pd. -/
  | setpi (p : BitVec 2) (d : BitVec 3) (c : BitVec 2) (a : BitVec 5) (k : BitVec 4) (i : BitVec 10)
  /-- PAND (R100): pd gets the and of two predicates, each of which can be inverted. -/
  | pand (p : BitVec 2) (d a b : BitVec 3) (x y : BitVec 1)
  /-- POR (R100): pd gets the or of two predicates, each of which can be inverted. -/
  | por (p : BitVec 2) (d a b : BitVec 3) (x y : BitVec 1)
  /-- PXOR (R100): pd gets the xor of two predicates, each of which can be inverted. -/
  | pxor (p : BitVec 2) (d a b : BitVec 3) (x y : BitVec 1)
  /-- SEL (R101): gd gets ga or gb, chosen by a predicate that can be inverted. -/
  | sel (p : BitVec 2) (d a b : BitVec 5) (c : BitVec 3) (v : BitVec 1)
  /-- BR (R103): Conditional PC-relative branch with one delay bundle. -/
  | br (p : BitVec 2) (v : BitVec 1) (c : BitVec 3) (o : BitVec 20)
  /-- BRR (R103): Conditional branch to the address in ga. -/
  | brr (p : BitVec 2) (v : BitVec 1) (c : BitVec 3) (a : BitVec 5)
  /-- CALL (R103): Conditional PC-relative call that writes the link to g31. -/
  | call (p : BitVec 2) (v : BitVec 1) (c : BitVec 3) (o : BitVec 20)
  /-- CALLR (R103): Conditional call to the address in ga that writes the link to g31. -/
  | callr (p : BitVec 2) (v : BitVec 1) (c : BitVec 3) (a : BitVec 5)
  /-- RET (R103): Conditional return to the address in g31. -/
  | ret (p : BitVec 2) (v : BitVec 1) (c : BitVec 3)
  /-- LOOP (R107): Starts hardware loop level l with its count in ga. -/
  | loop (p l : BitVec 2) (a : BitVec 5) (n : BitVec 14)
  /-- LOOPI (R107): Starts hardware loop level l with an immediate count. -/
  | loopi (p l : BitVec 2) (c : BitVec 12) (n : BitVec 10)
  /-- WAIT (R110): Lets its bundle issue only when sN is at least n, then decrements sN by n. -/
  | wait (p : BitVec 2) (s : BitVec 5) (n : BitVec 16)
  /-- SIG (R110): Increments semaphore sN by n. -/
  | sig (p : BitVec 2) (s : BitVec 5) (n : BitVec 16)
  /-- MOVS (R113): Reads a system register into gd. -/
  | movs (p : BitVec 2) (d : BitVec 5) (s : BitVec 10)
  /-- SMOV (R113): Writes ga to a system register. -/
  | smov (p : BitVec 2) (a : BitVec 5) (s : BitVec 10)
  /-- PARK (R270): Waits for the context's engine commands, remote operations and outlets, then parks the context to DORMANT or EMPTY. -/
  | park (p : BitVec 2)
  /-- YIELD (R271): Leaves the seat and blocks for n cycles. -/
  | yield (p : BitVec 2) (n : BitVec 12)
  /-- ARM (R272): Sets or clears ARMED. -/
  | arm (p : BitVec 2) (n : BitVec 12)
  /-- SPRIO (R273): Sets the context's PRIO. -/
  | sprio (p : BitVec 2) (n : BitVec 12)
  /-- CSTART (R274): Starts or restarts resident context n and reports its prior state. -/
  | cstart (p : BitVec 2) (d a : BitVec 5) (n : BitVec 12)
  /-- CSTOP (R274): Halts resident context n and reports its prior state. -/
  | cstop (p : BitVec 2) (d : BitVec 5) (n : BitVec 12)
  /-- CKILL (R274): Begins the kill of resident context n and reports its prior state. -/
  | ckill (p : BitVec 2) (d : BitVec 5) (n : BitVec 12)
  /-- TRAP (R283): Commits its bundle, then traps with code SW0-SW23. -/
  | trap (p : BitVec 2) (n : BitVec 12)
  /-- RETT (R284): Leaves trap mode and resumes at EPC. -/
  | rett (p : BitVec 2)
  /-- CTOPEN (R288): Takes a containment checkpoint of the g and p registers and opens a region with a handler. -/
  | ctopen (p : BitVec 2) (o : BitVec 12)
  /-- CTCLOSE (R288): Closes the containment region. -/
  | ctclose (p : BitVec 2)
  /-- SEGCHK (R293): Checks the segment signature observation against the segment table. -/
  | segchk (p : BitVec 2) (i : BitVec 12)
  /-- ACRANGE (R312): Sets entry n of the tag's account range table. -/
  | acrange (p : BitVec 2) (a : BitVec 5) (n : BitVec 6)
  /-- ACREAD (R313): Reads one counter of the snapshot. -/
  | acread (p : BitVec 2) (d a : BitVec 5)
  /-- ACREAD_SNAP (R313): Replaces the tile snapshot with the counts at the end of the issue cycle. -/
  | acreadSnap (p : BitVec 2) (d : BitVec 5)
  /-- ACREAD_EL (R313): Reads one half of the snapshot's elapsed count. -/
  | acreadEl (p : BitVec 2) (d : BitVec 5) (h : BitVec 1)
  /-- ACLOOP (R314): Reads a loop FILLED or EMPTY counter, and clears it with .clr. -/
  | acloop (p : BitVec 2) (d : BitVec 5) (c t : BitVec 1) (k s : BitVec 2)
  /-- ACCLR (R315): Folds the tag's account into the tile account. -/
  | acclr (p : BitVec 2)
  /-- LAUNCH (R339): Appends a launch record from scratchpad to launch queue q. -/
  | launch (p : BitVec 2) (d a : BitVec 5) (q : BitVec 4)
  /-- QSTAT (R340): Reads LQSTAT of launch queue q. -/
  | qstat (p : BitVec 2) (d : BitVec 5) (q : BitVec 4)
  /-- QSTAT_LS (R340): Reads launch semaphore LSn. -/
  | qstatLs (p : BitVec 2) (d : BitVec 5) (n : BitVec 6)
  /-- QPRIO (R341): Sets the priority of the tag's queued commands or network operations. -/
  | qprio (p : BitVec 2) (d : BitVec 5) (e n : BitVec 2)
  /-- QCANCEL (R342): Removes the kernel's undispatched records from launch queue q. -/
  | qcancel (p : BitVec 2) (d : BitVec 5) (q : BitVec 4)
  /-- BANKREL (R365): Releases the named scratchpad banks once the kernel's commands and ports are idle. -/
  | bankrel (p : BitVec 2) (a : BitVec 5)
  /-- BANKREL_ACC (R365): Releases the named colour regions once the kernel's commands and ports are idle. -/
  | bankrelAcc (p : BitVec 2) (a : BitVec 5) (h : BitVec 1)
  /-- BANKTST (R366): Reads the kernel's unit states on the tile. -/
  | banktst (p : BitVec 2) (d : BitVec 5) (s : BitVec 12)
  /-- KEND (R367): Releases every unit that the kernel holds or claims on the tile. -/
  | kend (p : BitVec 2)
  /-- KSEQ (R368): Reads half of the issuing kernel's sequence number. -/
  | kseq (p : BitVec 2) (d : BitVec 5) (s : BitVec 12)
  /-- KSEQ_QUEUE (R368): Reads half of the sequence number of the kernel that last completed from launch queue ga. -/
  | kseqQueue (p : BitVec 2) (d a : BitVec 5) (s : BitVec 12)
  /-- GID (R383): Reads the instance index at an immediate level. -/
  | gid (p : BitVec 2) (d : BitVec 5) (n : BitVec 3)
  /-- GID_REG (R383): Reads the instance index at the level held in ga. -/
  | gidReg (p : BitVec 2) (d a : BitVec 5)
  /-- GDIM (R383): Reads the instance size at an immediate level. -/
  | gdim (p : BitVec 2) (d : BitVec 5) (n : BitVec 3)
  /-- GDIM_REG (R383): Reads the instance size at the level held in ga. -/
  | gdimReg (p : BitVec 2) (d a : BitVec 5)
  /-- GBASE (R383): Reads the instance base at an immediate level. -/
  | gbase (p : BitVec 2) (d : BitVec 5) (n : BitVec 3)
  /-- GBASE_REG (R383): Reads the instance base at the level held in ga. -/
  | gbaseReg (p : BitVec 2) (d a : BitVec 5)
  /-- GSLICE (R384): Reads GANG low, GANG high or the group state code. -/
  | gslice (p : BitVec 2) (d : BitVec 5) (s : BitVec 2)
  /-- GSLICE_WAIT (R384): Blocks until CYCLE reaches GANG plus ga. -/
  | gsliceWait (p : BitVec 2) (a : BitVec 5)
  /-- BARINIT (R395): Sends a request to open barrier n at a level, with a count. -/
  | barinit (p : BitVec 2) (a : BitVec 5) (l : BitVec 3) (n : BitVec 6)
  /-- BARARV (R396): Sends an arrival at barrier n, a release. -/
  | bararv (p : BitVec 2) (d : BitVec 5) (n : BitVec 6)
  /-- BARDROP (R396): Arrives at barrier n and leaves it for good. -/
  | bardrop (p : BitVec 2) (d : BitVec 5) (n : BitVec 6)
  /-- BARWAIT (R397): Waits until the mirror of barrier n has reached the view's phase, then acts as an acquire. -/
  | barwait (p : BitVec 2) (n : BitVec 6)
  /-- BARTST (R397): Reads the mirror's state of barrier n. -/
  | bartst (p : BitVec 2) (d : BitVec 5) (n : BitVec 6)
  /-- BARTST_VIEW (R397): Reads the view phase of barrier n. -/
  | bartstView (p : BitVec 2) (d : BitVec 5) (n : BitVec 6)
  /-- COLSET (R149): Sets the colour bit of a run of accumulator colour regions. -/
  | colset (p : BitVec 2) (a : BitVec 5) (c f : BitVec 6)
  /-- COLGET (R149): Reads region colours or COLDROP, or reads and clears COLDROP. -/
  | colget (p : BitVec 2) (d : BitVec 5) (s : BitVec 12)
  /-- CHOPEN (R409): Opens the ends of channel ch on the tile. -/
  | chopen (p : BitVec 2) (c : BitVec 12)
  /-- CHCLOSE (R409): Closes the ends of channel ch on the tile, after its sends are performed. -/
  | chclose (p : BitVec 2) (c : BitVec 12)
  /-- CHSTAT (R410): Reads the states, tags and DROPS count of channel ch. -/
  | chstat (p : BitVec 2) (d : BitVec 5) (c : BitVec 12)
  /-- CHWIN (R410): Reads the send credit and the held flits of channel ch. -/
  | chwin (p : BitVec 2) (d : BitVec 5) (c : BitVec 12)
  /-- PGPROBE (R429): Reads the state of a page without changing it. -/
  | pgprobe (p : BitVec 2) (d a : BitVec 5) (n : BitVec 3)
  /-- PGINV (R430): Drops the tile's TLB entries for a page. -/
  | pginv (p : BitVec 2) (a : BitVec 5) (n : BitVec 3)
  /-- PGINV_ALL (R430): Drops the tile's TLB entries of the kernel's ASID and world. -/
  | pginvAll (p : BitVec 2)
  /-- PGTOUCH (R429): Walks a page as an access does and fills the TLB on success. -/
  | pgtouch (p : BitVec 2) (d a : BitVec 5) (w : BitVec 1) (n : BitVec 3)
  /-- LKSTAT (R496): Reads a port's LKSTS and can watch or unwatch the port. -/
  | lkstat (p : BitVec 2) (d a : BitVec 5) (w : BitVec 2)
  /-- LKPARK (R497): Makes a park request for wavelengths of a port. -/
  | lkpark (p : BitVec 2) (d a : BitVec 5) (m : BitVec 8)
  /-- LKWAKE (R497): Makes a wake request for wavelengths of a port. -/
  | lkwake (p : BitVec 2) (d a : BitVec 5) (m : BitVec 8)
  /-- LKSTAMP (R498): Reads a port's LKOFF or LKDLY. -/
  | lkstamp (p : BitVec 2) (d a : BitVec 5) (s : BitVec 1)
  /-- BRK (R506): Commits its bundle, then holds the context or traps with BRK. -/
  | brk (p : BitVec 2) (n : BitVec 12)
  /-- DBGMARK (R507): Writes a MARK trace record. -/
  | dbgmark (p : BitVec 2) (a : BitVec 5) (n : BitVec 9)
  /-- TRCON (R507): Sets the tag's trace bit. -/
  | trcon (p : BitVec 2)
  /-- TRCOFF (R507): Clears the tag's trace bit. -/
  | trcoff (p : BitVec 2)
  /-- VADD (R123): Integer element add. -/
  | vadd (p : BitVec 2) (d : BitVec 4) (a b : BitVec 5) (m t : BitVec 3)
  /-- VSUB (R123): Integer element subtract. -/
  | vsub (p : BitVec 2) (d : BitVec 4) (a b : BitVec 5) (m t : BitVec 3)
  /-- VMUL (R123): Integer element multiply, low half. -/
  | vmul (p : BitVec 2) (d : BitVec 4) (a b : BitVec 5) (m t : BitVec 3)
  /-- VMULH (R123): Integer element multiply, high half. -/
  | vmulh (p : BitVec 2) (d : BitVec 4) (a b : BitVec 5) (m t : BitVec 3)
  /-- VMIN (R123): Integer element minimum. -/
  | vmin (p : BitVec 2) (d : BitVec 4) (a b : BitVec 5) (m t : BitVec 3)
  /-- VMAX (R123): Integer element maximum. -/
  | vmax (p : BitVec 2) (d : BitVec 4) (a b : BitVec 5) (m t : BitVec 3)
  /-- VADDS (R123): Saturating integer element add. -/
  | vadds (p : BitVec 2) (d : BitVec 4) (a b : BitVec 5) (m t : BitVec 3)
  /-- VSUBS (R123): Saturating integer element subtract. -/
  | vsubs (p : BitVec 2) (d : BitVec 4) (a b : BitVec 5) (m t : BitVec 3)
  /-- VABSD (R123): Integer element absolute difference. -/
  | vabsd (p : BitVec 2) (d : BitVec 4) (a b : BitVec 5) (m t : BitVec 3)
  /-- VAND (R123): Element bitwise and. -/
  | vand (p : BitVec 2) (d : BitVec 4) (a b : BitVec 5) (m t : BitVec 3)
  /-- VOR (R123): Element bitwise or. -/
  | vor (p : BitVec 2) (d : BitVec 4) (a b : BitVec 5) (m t : BitVec 3)
  /-- VXOR (R123): Element bitwise xor. -/
  | vxor (p : BitVec 2) (d : BitVec 4) (a b : BitVec 5) (m t : BitVec 3)
  /-- VSHL (R123): Element shift left. -/
  | vshl (p : BitVec 2) (d : BitVec 4) (a b : BitVec 5) (m t : BitVec 3)
  /-- VSHR (R123): Element shift right, with sign or zero fill by type. -/
  | vshr (p : BitVec 2) (d : BitVec 4) (a b : BitVec 5) (m t : BitVec 3)
  /-- VAVG (R123): Element average, rounded up at the half. -/
  | vavg (p : BitVec 2) (d : BitVec 4) (a b : BitVec 5) (m t : BitVec 3)
  /-- VPOPC (R123): Element population count. -/
  | vpopc (p : BitVec 2) (d : BitVec 4) (a : BitVec 5) (m t : BitVec 3)
  /-- VADD_SCALAR (R123): Integer element add with the scalar gb. -/
  | vaddScalar (p : BitVec 2) (d : BitVec 4) (a g : BitVec 5) (m t : BitVec 3)
  /-- VSUB_SCALAR (R123): Integer element subtract of the scalar gb. -/
  | vsubScalar (p : BitVec 2) (d : BitVec 4) (a g : BitVec 5) (m t : BitVec 3)
  /-- VMUL_SCALAR (R123): Integer element multiply by the scalar gb. -/
  | vmulScalar (p : BitVec 2) (d : BitVec 4) (a g : BitVec 5) (m t : BitVec 3)
  /-- VMULH_SCALAR (R123): High half of the element product with the scalar gb. -/
  | vmulhScalar (p : BitVec 2) (d : BitVec 4) (a g : BitVec 5) (m t : BitVec 3)
  /-- VMIN_SCALAR (R123): Element minimum with the scalar gb. -/
  | vminScalar (p : BitVec 2) (d : BitVec 4) (a g : BitVec 5) (m t : BitVec 3)
  /-- VMAX_SCALAR (R123): Element maximum with the scalar gb. -/
  | vmaxScalar (p : BitVec 2) (d : BitVec 4) (a g : BitVec 5) (m t : BitVec 3)
  /-- VADDS_SCALAR (R123): Saturating element add of the scalar gb. -/
  | vaddsScalar (p : BitVec 2) (d : BitVec 4) (a g : BitVec 5) (m t : BitVec 3)
  /-- VSUBS_SCALAR (R123): Saturating element subtract of the scalar gb. -/
  | vsubsScalar (p : BitVec 2) (d : BitVec 4) (a g : BitVec 5) (m t : BitVec 3)
  /-- VABSD_SCALAR (R123): Element absolute difference with the scalar gb. -/
  | vabsdScalar (p : BitVec 2) (d : BitVec 4) (a g : BitVec 5) (m t : BitVec 3)
  /-- VAND_SCALAR (R123): Element and with the scalar gb. -/
  | vandScalar (p : BitVec 2) (d : BitVec 4) (a g : BitVec 5) (m t : BitVec 3)
  /-- VOR_SCALAR (R123): Element or with the scalar gb. -/
  | vorScalar (p : BitVec 2) (d : BitVec 4) (a g : BitVec 5) (m t : BitVec 3)
  /-- VXOR_SCALAR (R123): Element xor with the scalar gb. -/
  | vxorScalar (p : BitVec 2) (d : BitVec 4) (a g : BitVec 5) (m t : BitVec 3)
  /-- VSHL_SCALAR (R123): Element shift left by the scalar gb. -/
  | vshlScalar (p : BitVec 2) (d : BitVec 4) (a g : BitVec 5) (m t : BitVec 3)
  /-- VSHR_SCALAR (R123): Element shift right by the scalar gb. -/
  | vshrScalar (p : BitVec 2) (d : BitVec 4) (a g : BitVec 5) (m t : BitVec 3)
  /-- VAVG_SCALAR (R123): Element average with the scalar gb. -/
  | vavgScalar (p : BitVec 2) (d : BitVec 4) (a g : BitVec 5) (m t : BitVec 3)
  /-- VFADD (R124): Floating element add, rounded under FPC.RM. -/
  | vfadd (p : BitVec 2) (d : BitVec 4) (a b : BitVec 5) (m t : BitVec 3)
  /-- VFSUB (R124): Floating element subtract. -/
  | vfsub (p : BitVec 2) (d : BitVec 4) (a b : BitVec 5) (m t : BitVec 3)
  /-- VFMUL (R124): Floating element multiply. -/
  | vfmul (p : BitVec 2) (d : BitVec 4) (a b : BitVec 5) (m t : BitVec 3)
  /-- VFMIN (R124): IEEE 754 element minimum. -/
  | vfmin (p : BitVec 2) (d : BitVec 4) (a b : BitVec 5) (m t : BitVec 3)
  /-- VFMAX (R124): IEEE 754 element maximum. -/
  | vfmax (p : BitVec 2) (d : BitVec 4) (a b : BitVec 5) (m t : BitVec 3)
  /-- VFABS (R124): Clears the element sign. -/
  | vfabs (p : BitVec 2) (d : BitVec 4) (a : BitVec 5) (m t : BitVec 3)
  /-- VFNEG (R124): Inverts the element sign. -/
  | vfneg (p : BitVec 2) (d : BitVec 4) (a : BitVec 5) (m t : BitVec 3)
  /-- VEXP2 (R57): Element exp2 by the fixed algorithm. -/
  | vexp2 (p : BitVec 2) (d : BitVec 4) (a : BitVec 5) (m t : BitVec 3)
  /-- VLOG2 (R58): Element log2 by the fixed algorithm. -/
  | vlog2 (p : BitVec 2) (d : BitVec 4) (a : BitVec 5) (m t : BitVec 3)
  /-- VRCP (R59): Element reciprocal by the fixed algorithm. -/
  | vrcp (p : BitVec 2) (d : BitVec 4) (a : BitVec 5) (m t : BitVec 3)
  /-- VRSQRT (R60): Element reciprocal square root by the fixed algorithm. -/
  | vrsqrt (p : BitVec 2) (d : BitVec 4) (a : BitVec 5) (m t : BitVec 3)
  /-- VFRINT (R124): Rounds each element to an integral value under FPC.RM. -/
  | vfrint (p : BitVec 2) (d : BitVec 4) (a : BitVec 5) (m t : BitVec 3)
  /-- VFADD_SCALAR (R124): Floating element add of the scalar gb. -/
  | vfaddScalar (p : BitVec 2) (d : BitVec 4) (a g : BitVec 5) (m t : BitVec 3)
  /-- VFSUB_SCALAR (R124): Floating element subtract of the scalar gb. -/
  | vfsubScalar (p : BitVec 2) (d : BitVec 4) (a g : BitVec 5) (m t : BitVec 3)
  /-- VFMUL_SCALAR (R124): Floating element multiply by the scalar gb. -/
  | vfmulScalar (p : BitVec 2) (d : BitVec 4) (a g : BitVec 5) (m t : BitVec 3)
  /-- VFMIN_SCALAR (R124): Floating element minimum with the scalar gb. -/
  | vfminScalar (p : BitVec 2) (d : BitVec 4) (a g : BitVec 5) (m t : BitVec 3)
  /-- VFMAX_SCALAR (R124): Floating element maximum with the scalar gb. -/
  | vfmaxScalar (p : BitVec 2) (d : BitVec 4) (a g : BitVec 5) (m t : BitVec 3)
  /-- VFMA (R125): Fused a × b + c with one rounding. -/
  | vfma (p : BitVec 2) (d : BitVec 4) (a b c : BitVec 5) (m : BitVec 3) (t : BitVec 2)
  /-- VFMS (R125): Fused a × b - c with one rounding. -/
  | vfms (p : BitVec 2) (d : BitVec 4) (a b c : BitVec 5) (m : BitVec 3) (t : BitVec 2)
  /-- VFNMA (R125): Fused c - a × b with one rounding. -/
  | vfnma (p : BitVec 2) (d : BitVec 4) (a b c : BitVec 5) (m : BitVec 3) (t : BitVec 2)
  /-- VCMP (R126): Integer compare of lanes into mask md. -/
  | vcmp (p : BitVec 2) (d : BitVec 3) (a b : BitVec 5) (m t : BitVec 3) (c : BitVec 4)
  /-- VFCMP (R126): Floating compare of lanes into mask md. -/
  | vfcmp (p : BitVec 2) (d : BitVec 3) (a b : BitVec 5) (m t : BitVec 3) (c : BitVec 4)
  /-- MAND (R127): Mask and. -/
  | mand (p : BitVec 2) (d a b : BitVec 3)
  /-- MOR (R127): Mask or. -/
  | mor (p : BitVec 2) (d a b : BitVec 3)
  /-- MXOR (R127): Mask xor. -/
  | mxor (p : BitVec 2) (d a b : BitVec 3)
  /-- MANDN (R127): Mask and-not. -/
  | mandn (p : BitVec 2) (d a b : BitVec 3)
  /-- VSEL (R128): Selects each lane from va or vb by mask mk. -/
  | vsel (p : BitVec 2) (d : BitVec 4) (a b : BitVec 5) (m : BitVec 3)
  /-- VCVT (R129): Converts elements between formats within each cluster. -/
  | vcvt (p : BitVec 2) (d : BitVec 4) (a : BitVec 5) (e s : BitVec 4) (m : BitVec 3) (w : BitVec 1)
  /-- VEN (R132): Encodes a 512-element row into veneer, block-quantised or MX form. -/
  | ven (p : BitVec 2) (d : BitVec 4) (a b : BitVec 5) (e : BitVec 4) (l : BitVec 5)
  /-- VDE (R133): Decodes a veneer, block-quantised or MX row into element form. -/
  | vde (p : BitVec 2) (d : BitVec 4) (a : BitVec 5) (e : BitVec 4) (l : BitVec 5)
  /-- VRSUM (R135): Sums the lanes of each cluster. -/
  | vrsum (p : BitVec 2) (d : BitVec 4) (a : BitVec 5) (m t : BitVec 3)
  /-- VRMAX (R135): Cluster maximum. -/
  | vrmax (p : BitVec 2) (d : BitVec 4) (a : BitVec 5) (m t : BitVec 3)
  /-- VRMIN (R135): Cluster minimum. -/
  | vrmin (p : BitVec 2) (d : BitVec 4) (a : BitVec 5) (m t : BitVec 3)
  /-- VSCAN (R135): Inclusive prefix sum within each cluster. -/
  | vscan (p : BitVec 2) (d : BitVec 4) (a : BitVec 5) (m t : BitVec 3)
  /-- VPERM (R136): Permutes lanes within each cluster by an index vector. -/
  | vperm (p : BitVec 2) (d : BitVec 4) (a b : BitVec 5) (m : BitVec 3)
  /-- VROT (R136): Rotates lanes within each cluster by k. -/
  | vrot (p : BitVec 2) (d : BitVec 4) (a k : BitVec 5) (m : BitVec 3)
  /-- VBCL (R136): Broadcasts lane k of each cluster across the cluster. -/
  | vbcl (p : BitVec 2) (d : BitVec 4) (a k : BitVec 5) (m : BitVec 3)
  /-- VXCOPY (R137): Copies lanes across clusters by rotate, broadcast or xor pattern. -/
  | vxcopy (p : BitVec 2) (d : BitVec 4) (a : BitVec 5) (t : BitVec 4) (k m : BitVec 3)
  /-- VMOVI (R138): Writes a sign-extended long immediate to the enabled lanes. -/
  | vmovi (p : BitVec 2) (d : BitVec 4) (m : BitVec 3) (i : BitVec 17)
  /-- VMOVH (R138): Writes a long immediate times 2^6 to the enabled lanes. -/
  | vmovh (p : BitVec 2) (d : BitVec 4) (m : BitVec 3) (i : BitVec 17)
  /-- VGET (R139): Copies one lane to a g register. -/
  | vget (p : BitVec 2) (a g : BitVec 5) (l : BitVec 7)
  /-- VPUT (R139): Replaces one lane with a g register. -/
  | vput (p : BitVec 2) (d : BitVec 4) (a g : BitVec 5) (l : BitVec 7)
  /-- VBCG (R139): Broadcasts a g register to every lane. -/
  | vbcg (p : BitVec 2) (d : BitVec 4) (g : BitVec 5)
  /-- LD (R145): Scalar scratchpad load. -/
  | ld (p : BitVec 2) (d b : BitVec 5) (z : BitVec 2) (x : BitVec 1) (o : BitVec 11)
  /-- ST (R145): Scalar scratchpad store. -/
  | st (p : BitVec 2) (g b : BitVec 5) (z : BitVec 2) (o : BitVec 11)
  /-- ALD (R145): Accumulator word load. -/
  | ald (p : BitVec 2) (d b : BitVec 5) (o : BitVec 11)
  /-- AST (R145): Accumulator word store, overwriting. -/
  | ast (p : BitVec 2) (g b : BitVec 5) (o : BitVec 11)
  /-- VLD (R145): 512-byte scratchpad vector load. -/
  | vld (p : BitVec 2) (v : BitVec 4) (b : BitVec 5) (o : BitVec 15)
  /-- VST (R145): 512-byte scratchpad vector store. -/
  | vst (p : BitVec 2) (v : BitVec 4) (b : BitVec 5) (o : BitVec 15)
  /-- AVLD (R145): Loads 128 accumulator words. -/
  | avld (p : BitVec 2) (v : BitVec 4) (b : BitVec 5) (o : BitVec 13)
  /-- AVST (R145): Stores or adds 128 accumulator words. -/
  | avst (p : BitVec 2) (v : BitVec 4) (b : BitVec 5) (m : BitVec 2) (o : BitVec 13)
  /-- AMO (R146): Local accumulator atomic read-modify-write. -/
  | amo (p : BitVec 2) (d a b : BitVec 5) (f : BitVec 4)
  /-- WLD (R145): 512-byte weight-store load, in a READ kernel. -/
  | wld (p : BitVec 2) (v : BitVec 4) (b : BitVec 5) (o : BitVec 15)
  /-- WST (R145): 512-byte weight-store store, in a WRITE kernel. -/
  | wst (p : BitVec 2) (v : BitVec 4) (b : BitVec 5) (o : BitVec 15)
  /-- FCFG (R153): Configures feed fN with a walk parameter block. -/
  | fcfg (p : BitVec 2) (f : BitVec 3) (a : BitVec 5) (o : BitVec 15)
  /-- FCFG_RB (R228): Configures feed fN in rebuild mode. -/
  | fcfgRb (p : BitVec 2) (f : BitVec 3) (a : BitVec 5) (o : BitVec 15)
  /-- OCFG (R153): Configures outlet oN with a walk parameter block. -/
  | ocfg (p o : BitVec 2) (a : BitVec 5) (i : BitVec 15)
  /-- OPUSH (R155): Pushes a vector to outlet oN. -/
  | opush (p o : BitVec 2) (s : BitVec 5)
  /-- POPQ (R159): Pops a result queue, stalling when it is empty. -/
  | popq (p : BitVec 2) (d : BitVec 4) (g : BitVec 5) (q : BitVec 2)
  /-- POPQ_FLAG (R159): Pops a result queue and reports success in a predicate. -/
  | popqFlag (p : BitVec 2) (d : BitVec 4) (g : BitVec 5) (q : BitVec 2) (r : BitVec 3)
  /-- RST (R165): Remote 512-byte store through an h register. -/
  | rst (p : BitVec 2) (h : BitVec 3) (a s : BitVec 5) (c : BitVec 3) (o : BitVec 2)
  /-- RADD (R165): Remote coloured add of 128 accumulator words. -/
  | radd (p : BitVec 2) (h : BitVec 3) (a s : BitVec 5) (w : BitVec 1) (c : BitVec 3) (o : BitVec 2) (k : BitVec 1)
  /-- RGET (R165): Remote read of 1-64 units into q3. -/
  | rget (p : BitVec 2) (h : BitVec 3) (a b : BitVec 5) (c : BitVec 3) (o : BitVec 2) (l : BitVec 6)
  /-- RAMO (R165): Remote atomic whose old value enters q3. -/
  | ramo (p : BitVec 2) (h : BitVec 3) (a b : BitVec 5) (c : BitVec 3) (o : BitVec 2) (f : BitVec 4)
  /-- DRAIN (R169): Waits until prior remote operations are performed at scope sc, and traps on a failure. -/
  | drain (p : BitVec 2) (c : BitVec 3)
  /-- FENCE (R170): Waits as DRAIN does, also for outlet writes, and discards held feed vectors. -/
  | fence (p : BitVec 2) (c : BitVec 3)
  /-- CHSEND (R412): Sends a 512-byte message on channel ch, using credit. -/
  | chsend (p : BitVec 2) (n : BitVec 12) (s : BitVec 5) (o : BitVec 2) (c : BitVec 3)
  /-- CHRECV (R414): Pops a channel message, stalling when none is held. -/
  | chrecv (p : BitVec 2) (n : BitVec 12) (d : BitVec 4)
  /-- CHRECV_FLAG (R414): Pops a channel message and reports success in a predicate. -/
  | chrecvFlag (p : BitVec 2) (n : BitVec 12) (d : BitVec 4) (r : BitVec 3)
  /-- HMSG (R416): Sends a handler message of scratchpad beats to a target tile. -/
  | hmsg (p : BitVec 2) (h : BitVec 3) (a b : BitVec 5) (l : BitVec 8)
  /-- HSET (R161): Writes one part of an h register. -/
  | hset (p : BitVec 2) (h : BitVec 3) (t : BitVec 2) (a : BitVec 5)
  /-- HGET (R161): Reads one part of an h register. -/
  | hget (p : BitVec 2) (d : BitVec 5) (h : BitVec 3) (t : BitVec 2)
  /-- HADD (R161): Adds a sign-extended ga to the address bits of an h register. -/
  | hadd (p : BitVec 2) (h : BitVec 3) (a : BitVec 5)
  /-- PARSET (R162): Writes one half of an x register. -/
  | parset (p : BitVec 2) (x : BitVec 3) (t : BitVec 2) (a : BitVec 5)
  /-- PARGET (R162): Reads one half of an x register. -/
  | parget (p : BitVec 2) (d : BitVec 5) (x : BitVec 3) (t : BitVec 2)
  /-- MCALL (R197): Enqueues a matrix routine command, capturing dN, x0-x7, FPC and SRSTEP. -/
  | mcall (p : BitVec 2) (d : BitVec 3) (r : BitVec 2) (i : BitVec 7)
  /-- ROWRUN_SMAX (R219): Enqueues a softmax row-engine command. -/
  | rowrunSmax (p : BitVec 2) (d : BitVec 3) (r : BitVec 2) (a : BitVec 5)
  /-- ROWRUN_NORM (R219): Enqueues a normalisation row-engine command. -/
  | rowrunNorm (p : BitVec 2) (d : BitVec 3) (r : BitVec 2) (a : BitVec 5)
  /-- CPY (R225): Enqueues a local copy command. -/
  | cpy (p : BitVec 2) (d : BitVec 3) (r : BitVec 2) (a : BitVec 5)
  /-- CPYX (R226): Enqueues an external copy through a pinned handle. -/
  | cpyx (p : BitVec 2) (d : BitVec 3) (r : BitVec 2) (a : BitVec 5)
  /-- CPYF (R225): Enqueues a fill command. -/
  | cpyf (p : BitVec 2) (d : BitVec 3) (r : BitVec 2) (a : BitVec 5)
  /-- DSET (R196): Writes a dependence register. -/
  | dset (p : BitVec 2) (d : BitVec 3) (g : BitVec 5)
  /-- DGET (R196): Reads a dependence register. -/
  | dget (p : BitVec 2) (d : BitVec 3) (g : BitVec 5)
  /-- ECANCEL (R207): Cancels the context's queued, running and saved commands on an engine. -/
  | ecancel (p e : BitVec 2)
  /-- EXCSET (R205): Sets an exception counter's threshold and zeroes the counter. -/
  | excset (p e : BitVec 2) (g : BitVec 5)
  /-- EXCGET (R205): Reads an exception counter. -/
  | excget (p e : BitVec 2) (g : BitVec 5)
  /-- EQSTAT (R208): Reads engine queue status. -/
  | eqstat (p e : BitVec 2) (g : BitVec 5)
  /-- RESERVED_ENCODING (R78): An issued slot word that is not an instruction completes as a no-op that poisons its default destination, or traps RESERVED_ENC when that destination is g0. -/
  | reservedEncoding (slot : Fin 4) (word : BitVec 32) (kind : BitVec 5)
  /-- ROUTINE_END (R189): Waits for outputs, then completes the matrix command. -/
  | routineEnd (c : TileId)
  /-- LOADW (R184): Loads a weight tile into the shadow and marks it pending. -/
  | loadw (c : TileId) (memsel : BitVec 1) (pa : BitVec 3) (off : BitVec 16) (wl : BitVec 5) (sp : BitVec 2) (dw : BitVec 1) (nc : BitVec 7)
  /-- STREAM (R185): Makes a pending shadow active and runs one k-step over R operand rows. -/
  | stream (c : TileId) (df : BitVec 2) (pa po : BitVec 3) (ol : BitVec 5) (cnt : BitVec 16) (cx : BitVec 1) (os : BitVec 8) (xo : BitVec 16) (sb : BitVec 4)
  /-- ROUTINE_DRAIN (R186): Writes and zeroes the PE accumulators of the O dataflow. -/
  | routineDrain (c : TileId) (pd : BitVec 3) (dt : BitVec 1) (scale : BitVec 8)
  /-- ROUTINE_LOOP (R187): Pushes a loop count on the routine loop stack. -/
  | routineLoop (c : TileId) (cnt : BitVec 16) (cx : BitVec 1)
  /-- ENDLOOP (R187): Applies pointer increments and loops back or pops the count. -/
  | endloop (c : TileId) (e1 : BitVec 1) (p1 : BitVec 3) (inc1 : BitVec 16) (e2 : BitVec 1) (p2 : BitVec 3) (inc2 : BitVec 16)
  /-- ACCMODE (R188): Sets add or overwrite and the colour of later outputs. -/
  | accmode (c : TileId) (add ce col : BitVec 1)
  /-- SYNC (R189): Waits for outputs, then signals a semaphore or pushes a q0 mark. -/
  | sync (c : TileId) (sv : BitVec 1) (sem : BitVec 5) (qe : BitVec 1) (mark : BitVec 16)
  /-- SEAT_TAKE (R255): An empty seat takes the best-ranked READY context, and a switch bubble begins. -/
  | seatTake (c : TileId) (seat : Fin 2)
  /-- DISPLACEMENT (R258): A higher-PRIO READY context displaces the lowest-ranked seated context. -/
  | displacement (c : TileId)
  /-- CONTEXT_READY (R257): A BLOCKED context becomes READY once every failed condition holds. -/
  | contextReady (c : TileId) (tag : Tag)
  /-- YIELD_DEADLINE (R271): A yielded context becomes READY when its deadline is reached. -/
  | yieldDeadline (c : TileId) (tag : Tag)
  /-- SWAP_REQUEST (R261): A launch, gang or host request begins staging an incoming context into the shadow bank. -/
  | swapRequest (c : TileId) (out : Fin 4) (incoming : SwapIn)
  /-- STAGING_END (R261): The incoming context becomes STAGED when staging ends. -/
  | stagingEnd (c : TileId)
  /-- SWAP_DECISION (R262): The swap begins; the outgoing context starts SPILLING. -/
  | swapDecision (c : TileId)
  /-- SWAP_IN (R266): In the last swap cycle the banks exchange and the latches are merged. -/
  | swapIn (c : TileId)
  /-- SPILL_DONE (R263): The outgoing context becomes SAVED when its slot is written. -/
  | spillDone (c : TileId)
  /-- HANDLER_START (R260): Starts an ARMED DORMANT context at a handler message's handler. -/
  | handlerStart (c : TileId)
  /-- DEFERRED_TRAP (R277): A pending deferred cause is taken before the context's next bundle. -/
  | deferredTrap (c : TileId) (tag : Tag)
  /-- CONTAINMENT_RECOVERY (R290): Restores the checkpoint, cancels the region's commands and jumps to the handler. -/
  | containmentRecovery (c : TileId) (tag : Tag)
  /-- KILL (R294): Begins the kill order of one tag. -/
  | kill (c : TileId) (tag : Tag)
  /-- KILL_DONE (R296): The kill completes and frees the tag and its save slot. -/
  | killDone (c : TileId) (tag : Tag)
  /-- WEIGHT_STORE_REFRESH (R144): A weight-store bank enters its 96-cycle refresh window. -/
  | weightStoreRefresh (c : TileId) (bank : Fin 32)
  /-- MATRIX_COMMAND_START (R198): An idle matrix engine starts the best queued command whose waits hold. -/
  | matrixCommandStart (c : TileId)
  /-- LEAVE_GRANT (R468): The domain grants leave from its FIFO within budget. -/
  | leaveGrant (r : ReticleId)
  /-- LEAVE_TIMEOUT (R468): An ungranted leave request expires and faults its command. -/
  | leaveTimeout (c : TileId)
  /-- ROUTINE_SAVE (R201): At a k-step boundary the engine saves a running routine for an overtaking command. -/
  | routineSave (c : TileId)
  /-- ROUTINE_RESUME (R202): An idle engine restores a saved routine and replays its weights. -/
  | routineResume (c : TileId)
  /-- ROW_COMMAND_START (R213): The row engine starts its next command. -/
  | rowCommandStart (c : TileId)
  /-- ROW_COMMAND_COMPLETE (R214): A row command completes, signals and releases its locks. -/
  | rowCommandComplete (c : TileId)
  /-- COPY_COMMAND_START (R213): The copy engine starts its next command. -/
  | copyCommandStart (c : TileId)
  /-- COPY_COMMAND_COMPLETE (R214): A copy command completes, signals and releases its locks. -/
  | copyCommandComplete (c : TileId)
  /-- ENGINE_COMMAND_FAULT (R215): A row or copy command that faults after issue ends and pushes a fault record. -/
  | engineCommandFault (c : TileId) (e : Engine)
  /-- ENGINE_WATCHDOG (R334): A command that runs past EWDOG cycles is ended as a fault. -/
  | engineWatchdog (c : TileId) (e : Engine)
  /-- RQ_OVERFLOW (R337): A push that has waited 65,536 cycles gives deferred trap RQ_OVERFLOW. -/
  | rqOverflow (c : TileId) (tag : Tag)
  /-- FEED_READ (R157): A feed reads its next walk vector, or computes a rebuild vector. -/
  | feedRead (c : TileId) (tag : Tag) (f : Fin 8)
  /-- OUTLET_WRITE (R157): An outlet writes a pushed vector and signals SEM at the walk's end. -/
  | outletWrite (c : TileId) (tag : Tag) (o : Fin 4)
  /-- NETWORK_INJECTION (R333): The tile injects its highest-priority queued network operation. -/
  | networkInjection (c : TileId)
  /-- REMOTE_OPERATION_ARRIVAL (R164): A remote operation is performed at its target. -/
  | remoteOperationArrival (n : Nat)
  /-- REMOTE_RESULT_ARRIVAL (R165): An RGET unit or a RAMO old value enters q3. -/
  | remoteResultArrival (n : Nat)
  /-- RELEASE_SEND (R239): A release is applied once its covered accesses are performed. -/
  | releaseSend (c : TileId) (serial : Nat)
  /-- ACQUIRE_PERFORMED (R241): An acquire is performed, which ends the issue wait and discards feed vectors. -/
  | acquirePerformed (c : TileId) (tag : Tag)
  /-- HOLD_NOTICE (R440): A flit refused by a migrating coordinate returns to its source, which holds it. -/
  | holdNotice (n : Nat)
  /-- RESUME_NOTICE (R440): A source resends its held operations in order. -/
  | resumeNotice (n : Nat)
  /-- HOST_MEMORY_WRITE (R247): A host write arriving on a host link is applied. -/
  | hostMemoryWrite (link : Fin 4) (addr len : Nat) (data : BitVec 512)
  /-- CHANNEL_MESSAGE_ARRIVAL (R405): A channel message is held, or dropped at a CLOSED end. -/
  | channelMessageArrival (n : Nat)
  /-- CHANNEL_GRANT_ARRIVAL (R405): A grant adds credit to a send end. -/
  | channelGrantArrival (n : Nat)
  /-- CREDIT_RETURN_ARRIVAL (R405): A credit return adds 4 flits of credit. -/
  | creditReturnArrival (n : Nat)
  /-- CHANNEL_OPEN_NOTICE (R405): An open notice reopens a PEER_CLOSED receive end. -/
  | channelOpenNotice (n : Nat)
  /-- CHANNEL_CLOSE_NOTICE (R405): A close notice makes a receive end PEER_CLOSED. -/
  | channelCloseNotice (n : Nat)
  /-- CHANNEL_REVOKE (R405): A revoke zeroes a send end's credit. -/
  | channelRevoke (n : Nat)
  /-- CHANNEL_ITEM_RESEND (R407): A returned channel item is resent every 4,096 cycles. -/
  | channelItemResend (n : Nat)
  /-- PEER_LOST (R413): A channel end whose peer is lost enters LOST. -/
  | peerLost (c : TileId) (kernel ch : Nat)
  /-- HMSG_ARRIVAL (R417): A handler message is accepted, refused or failed at its target. -/
  | hmsgArrival (n : Nat)
  /-- BARRIER_REQUEST_SEND (R398): A barrier request is sent once its release wait ends. -/
  | barrierRequestSend (c : TileId) (tag : Tag)
  /-- BARRIER_REQUEST_APPLY (R389): The home applies one request and returns a verdict. -/
  | barrierRequestApply (c : TileId)
  /-- BARRIER_VERDICT_ARRIVAL (R394): A verdict is held for the tag, and the context becomes READY. -/
  | barrierVerdictArrival (n : Nat)
  /-- BARRIER_NOTICE_ARRIVAL (R391): A mirror takes an open or completion notice in serial order. -/
  | barrierNoticeArrival (n : Nat)
  /-- LQ_OPEN (R329): LQCTL command open opens a launch queue. -/
  | lqOpen (q : QueueId) (value : BitVec 32) (secureFn : Bool)
  /-- LQ_STOP (R329): LQCTL command stop stops dispatch. -/
  | lqStop (q : QueueId) (value : BitVec 32) (secureFn : Bool)
  /-- LQ_FLUSH (R329): LQCTL command flush cancels queued records and aborts running kernels. -/
  | lqFlush (q : QueueId) (value : BitVec 32) (secureFn : Bool)
  /-- LQTAIL_WRITE (R330): A host tail write appends records and numbers them. -/
  | lqtailWrite (q : QueueId) (value : BitVec 8) (secureFn : Bool)
  /-- LSV_WRITE (R319): A host write adds to a launch semaphore. -/
  | lsvWrite (n : Fin 64) (value : BitVec 16)
  /-- ABORT (R327): The second ABORT write aborts the named running kernel. -/
  | abort (high : BitVec 32)
  /-- ABORT_GRACE_EXPIRY (R327): After ABORTGRACE the kernel's remaining contexts are killed. -/
  | abortGraceExpiry (kernel : Nat)
  /-- HSTAT_READ (R330): A read of HSTAT returns it and clears it. -/
  | hstatRead
  /-- DISPATCH (R320): An OPEN queue dispatches its head record when its conditions hold. -/
  | dispatch (q : QueueId)
  /-- CONDITION_READ_PERFORMED (R321): The condition read of a conditional record is performed, and dispatch takes effect or retries. -/
  | conditionReadPerformed (q : QueueId)
  /-- CONTEXT_LAUNCH_START (R322): A placed tile starts the kernel's contexts. -/
  | contextLaunchStart (c : TileId) (kernel : Nat)
  /-- KERNEL_COMPLETE (R323): A kernel completes when all its contexts are EMPTY. -/
  | kernelComplete (kernel : Nat)
  /-- COMPLETION_ENTRY_WRITE (R325): A completion entry is written in dispatch order, once earlier entries are written. -/
  | completionEntryWrite (q : QueueId)
  /-- HOST_LINK_DOWN (R331): A PCI Express link leaving L0 records HOST_LINK_DOWN. -/
  | hostLinkDown (link : Fin 4)
  /-- HOST_TIMEOUT (R331): A host read completion not returned within 2^20 cycles records HOST_TIMEOUT. -/
  | hostTimeout
  /-- IMAGE_LOAD (R347): LDCMD load checks and loads a signed image and issues a handle. -/
  | imageLoad (file : List (BitVec 8)) (secureFn : Bool)
  /-- IMAGE_UNLOAD (R347): LDCMD unload frees a loaded image. -/
  | imageUnload (handle : BitVec 16)
  /-- UNIT_ZEROING_DONE (R361): A unit zeroed for a claimant of another world becomes HELD. -/
  | unitZeroingDone (c : TileId) (unit : Nat)
  /-- GANG_START (R375): CYCLE reaches GANG, and placed tiles start the slice's contexts. -/
  | gangStart (kernel : Nat)
  /-- START_NOTICE_ARRIVAL (R376): A start notice for GANG arrives from another wafer. -/
  | startNoticeArrival (gang : BitVec 64) (wafer : BitVec 16)
  /-- ABANDON_NOTICE_ARRIVAL (R377): An abandon notice makes the wafer abandon its slice. -/
  | abandonNoticeArrival (gang : BitVec 64) (wafer : BitVec 16)
  /-- GANG_DEADLINE (R377): At the deadline a wafer that has not started, or lacks notices, abandons its slice. -/
  | gangDeadline (kernel : Nat)
  /-- PAGE_WALK (R424): An edge walker walks the tables, marks an INVALID leaf FAULT_PENDING and fills the TLB. -/
  | pageWalk (n : Nat)
  /-- TLB_SHOOTDOWN (R426): A TLBINV write starts a wafer-wide TLB shootdown. -/
  | tlbShootdown (value : BitVec 32)
  /-- SHOOTDOWN_COMPLETE (R426): TLBSTAT.BUSY falls when the shootdown has completed. -/
  | shootdownComplete
  /-- MIGCMD_MIGRATE (R439): MIGCMD command migrate starts a migration. -/
  | migcmdMigrate
  /-- MIGCMD_RETIRE (R435): MIGCMD command retire retires the tile without a spare. -/
  | migcmdRetire
  /-- CE_THRESHOLD_MIGRATION (R438): Corrected errors reaching CETHRESH in a grain start a migration. -/
  | ceThresholdMigration (c : TileId)
  /-- WS_REFRESH_MISS (R438): A missed weight-store refresh starts a migration. -/
  | wsRefreshMiss (c : TileId)
  /-- MIGRATION_COPY (R439): When settle ends, the tile image is copied to the spare. -/
  | migrationCopy
  /-- MIGRATION_CHECK (R442): The spare compares the CRC of the received image. -/
  | migrationCheck (equal : Bool)
  /-- MIGRATION_REWRITE (R437): When the region has drained, the neighbour paths are rewritten. -/
  | migrationRewrite
  /-- MIGRATION_RESUME (R441): The spare becomes LIVE at the coordinate and the old tile is RETIRED. -/
  | migrationResume
  /-- SPARE_FAILURE (R440): A failed target spare restarts the copy to the next spare, or aborts the migration. -/
  | spareFailure
  /-- QUIESCE_TIMEOUT (R437): A drain longer than QTIMEOUT records QUIESCE_TIMEOUT. -/
  | quiesceTimeout
  /-- SCRUB_BEAT (R443): The scrubber reads a beat and writes back a corrected one. -/
  | scrubBeat (c : TileId) (sram : Bool)
  /-- SCRUB_LATE (R444): A scrub pass becomes late, or ends past its deadline. -/
  | scrubLate (c : TileId) (sram : Bool)
  /-- TWORLD_WRITE (R446): A host request to change a tile's world. -/
  | tworldWrite (value : BitVec 1)
  /-- WSSEC_WRITE (R446): A host request to change the worlds of weight-store banks. -/
  | wssecWrite (value : BitVec 32)
  /-- WORLD_CHANGE (R446): A waiting world change takes effect once no kernel is present, zeroing memories. -/
  | worldChange (c : TileId)
  /-- CECOUNT_READ (R447): A read of CECOUNT returns it and clears it. -/
  | cecountRead
  /-- RESET_RELEASE (R450): Common reset release puts every reticle in SELF_TEST. -/
  | resetRelease
  /-- SELF_TEST_END (R451): After 2,000 µs self-test ends and the reticle enters PROBE. -/
  | selfTestEnd (r : ReticleId) (ok : Bool) (failed : List (Nat × Nat))
  /-- PROBE_END (R453): After 100 µs probing ends and election round 1 begins. -/
  | probeEnd (r : ReticleId)
  /-- PROBE_MESSAGE (R453): A PROBE message arrives from a neighbour. -/
  | probeMessage (r : ReticleId) (side : Fin 4) (msg : BitVec 512)
  /-- PROBE_ACK (R453): A PROBE_ACK arrives from a neighbour. -/
  | probeAck (r : ReticleId) (side : Fin 4) (msg : BitVec 512)
  /-- ELECT_MESSAGE (R455): An ELECT message updates the best key or joins a higher round. -/
  | electMessage (r : ReticleId) (side : Fin 4) (msg : BitVec 512)
  /-- ROUND_TIMER (R455): At the end of a round the reticle becomes LEADER or FOLLOWER. -/
  | roundTimer (r : ReticleId)
  /-- LEADER_MESSAGE (R455): A LEADER heartbeat arrives. -/
  | leaderMessage (r : ReticleId) (side : Fin 4) (msg : BitVec 512)
  /-- LEADER_HEARTBEAT (R455): The leader floods LEADER every 10 µs. -/
  | leaderHeartbeat (r : ReticleId)
  /-- HEARTBEAT_TIMEOUT (R455): 50 µs without a heartbeat starts a new round. -/
  | heartbeatTimeout (r : ReticleId)
  /-- REPORT_MESSAGE (R455): A follower's REPORT reaches the leader. -/
  | reportMessage (r : ReticleId) (side : Fin 4) (msg : BitVec 512)
  /-- CLAIM_POST (R456): A leader posts its claim 200 µs after becoming leader. -/
  | claimPost (r : ReticleId)
  /-- CLAIM_WINDOW_END (R456): The primary leader maps its component; other leaders become ISOLATED. -/
  | claimWindowEnd (r : ReticleId)
  /-- MAP_MESSAGE (R458): A MAP places a reticle and gives its clock parent and the route-table base. -/
  | mapMessage (r : ReticleId) (side : Fin 4) (msg : BitVec 512)
  /-- EXCLUDE_MESSAGE (R457): An EXCLUDE isolates the target reticle. -/
  | excludeMessage (r : ReticleId) (side : Fin 4) (msg : BitVec 512)
  /-- CLOCK_MESSAGE (R460): A CLOCK message announces a neighbour's PLL condition. -/
  | clockMessage (r : ReticleId) (side : Fin 4) (msg : BitVec 512)
  /-- START_MESSAGE (R461): START fixes the boot time at which CYCLE begins at 0. -/
  | startMessage (r : ReticleId) (side : Fin 4) (msg : BitVec 512)
  /-- PLL_LOCK (R450): A PLL locks, and with START the reticle becomes READY. -/
  | pllLock (r : ReticleId)
  /-- PLL_LOCK_TIMEOUT (R450): A PLL not locked 200 µs after MAP makes the reticle FAILED. -/
  | pllLockTimeout (r : ReticleId)
  /-- REFERENCE_FAILURE (R460): A failed reference or a HOLD notice from the parent makes a PLL enter HOLD. -/
  | referenceFailure (r : ReticleId)
  /-- PARENT_SELECTION (R460): Within 40 µs a held reticle selects a candidate parent and enters SLEW. -/
  | parentSelection (r : ReticleId)
  /-- SLEW_LOCKED (R460): A slewing PLL matches its reference and becomes LOCKED. -/
  | slewLocked (r : ReticleId)
  /-- HOLD_LIMIT (R460): More than 5 ms in HOLD records CLK_LOST and fails the reticle. -/
  | holdLimit (r : ReticleId)
  /-- CYCLE_CORRECTION (R461): A reticle withholds or adds one CYCLE increment to match its parent. -/
  | cycleCorrection (r : ReticleId)
  /-- AVS_CALIBRATION_DONE (R463): A domain finishes voltage calibration for 1.25 GHz. -/
  | avsCalibrationDone (r : ReticleId) (ok : Bool)
  /-- FREQUENCY_SWITCH (R463): At the switch value tiles withhold issue while the PLLs double. -/
  | frequencySwitch
  /-- RECRUISE (R465): A re-cruise ends all kernels and derives the grid again. -/
  | recruise (died : Option ReticleId)
  /-- WCMD_FULL_CRUISE (R465): WCMD 1 resets every reticle for a full cruise. -/
  | wcmdFullCruise
  /-- WCMD_RECRUISE (R465): WCMD 2 starts a re-cruise without self-test. -/
  | wcmdRecruise
  /-- POWER_GRAIN (R466): At each grain end the power controller throttles, revokes leave or updates the budget. -/
  | powerGrain (r : ReticleId) (mean : BitVec 16) (groups : List Nat) (monitorsPass tempOver : Bool)
  /-- PWR_DROOP (R466): A domain voltage below 0.68 V for over 1 µs revokes leave and stops commands. -/
  | pwrDroop (r : ReticleId) (mv : BitVec 16)
  /-- RCRACK_WRITE (R470): Writing 1 clears an RCRACK bit. -/
  | rcrackWrite (value : BitVec 32)
  /-- RPEAK_READ (R470): A read of RPEAK returns the peak and clears it. -/
  | rpeakRead
  /-- RCAUSE_READ (R470): A read of RCAUSE returns it and clears it. -/
  | rcauseRead
  /-- LINK_TRAIN (R483): LKCTL command train starts port TRAINING. -/
  | linkTrain (port : PortId) (secureFn : Bool)
  /-- LINK_DARKEN (R483): LKCTL command darken makes the port DARK. -/
  | linkDarken (port : PortId) (secureFn : Bool)
  /-- LKWCMD_WAKE (R482): A host wake request for wavelengths. -/
  | lkwcmdWake (port : PortId) (mask : BitVec 8) (secureFn : Bool)
  /-- LKWCMD_PARK (R482): A host park request for wavelengths. -/
  | lkwcmdPark (port : PortId) (mask : BitVec 8) (secureFn : Bool)
  /-- LKWAFER_WRITE (R493): Sets the wafer number, ignored while any port is not DARK. -/
  | lkwaferWrite (value : BitVec 32)
  /-- LKWHY_READ (R494): A read of LKWHY returns it and clears it. -/
  | lkwhyRead (port : PortId) (secureFn : Bool)
  /-- LKRPL_READ (R494): A read of LKRPL returns it and clears it. -/
  | lkrplRead (port : PortId) (secureFn : Bool)
  /-- FLIT_IDLE (R478): An IDLE flit carries an acknowledgement. -/
  | flitIdle (port : PortId) (flit : BitVec 1024) (lost : Bool)
  /-- FLIT_DATA (R478): A DATA flit is delivered in RSEQ order exactly once. -/
  | flitData (port : PortId) (flit : BitVec 1024) (lost : Bool)
  /-- FLIT_NAK (R478): A NAK makes the sender resend from the named RSEQ. -/
  | flitNak (port : PortId) (flit : BitVec 1024) (lost : Bool)
  /-- FLIT_RESTRIPE (R476): A RESTRIPE changes the direction's stripe set from E onward. -/
  | flitRestripe (port : PortId) (flit : BitVec 1024) (lost : Bool)
  /-- FLIT_PARK (R482): A PARK flit applies the peer's park request. -/
  | flitPark (port : PortId) (flit : BitVec 1024) (lost : Bool)
  /-- FLIT_WAKE (R482): A WAKE flit applies the peer's wake request. -/
  | flitWake (port : PortId) (flit : BitVec 1024) (lost : Bool)
  /-- FLIT_STAMP (R489): A STAMP gives the offset and delay of the port. -/
  | flitStamp (port : PortId) (flit : BitVec 1024) (lost : Bool)
  /-- FLIT_NOTICE (R488): A NOTICE flit delivers or forwards a start, abandon, hold or resume notice. -/
  | flitNotice (port : PortId) (flit : BitVec 1024) (lost : Bool)
  /-- FLIT_IDENT (R487): An IDENT flit checks the peer identity and world at TRAINING. -/
  | flitIdent (port : PortId) (flit : BitVec 1024) (lost : Bool)
  /-- FLIT_PAUSE (R480): PAUSE stops replayed sends and replay counting. -/
  | flitPause (port : PortId) (flit : BitVec 1024) (lost : Bool)
  /-- FLIT_UNPAUSE (R480): UNPAUSE resumes replayed sends. -/
  | flitUnpause (port : PortId) (flit : BitVec 1024) (lost : Bool)
  /-- WAVELENGTH_LIT (R481): A waking wavelength becomes LIT_IDLE and a RESTRIPE adding it is sent. -/
  | wavelengthLit (port : PortId) (w : Fin 8)
  /-- WAVELENGTH_WAKE_TIMEOUT (R481): A wavelength not lit within 20 µs becomes FAILED. -/
  | wavelengthWakeTimeout (port : PortId) (w : Fin 8)
  /-- WAVELENGTH_FAULT (R492): A grain's FEC, signal, bias or power fault fails a wavelength. -/
  | wavelengthFault (port : PortId) (w : Fin 8) (signalLost : Bool)
  /-- REPLAY_TIMEOUT (R478): After 2 µs with no acknowledgement the sender resends its buffer. -/
  | replayTimeout (port : PortId)
  /-- NAK_REPEAT (R478): After 2 µs without the expected flit the receiver may send another NAK. -/
  | nakRepeat (port : PortId)
  /-- LKRPLTO_EXPIRY (R480): An unacknowledged flit held past LKRPLTO, or sent 17 times, fails the port. -/
  | lkrpltoExpiry (port : PortId)
  /-- LINK_SILENT (R483): No flit for 10 µs fails the port. -/
  | linkSilent (port : PortId)
  /-- TRAINING_END (R483): Training ends with the port ACTIVE, DEGRADED or FAILED. -/
  | trainingEnd (port : PortId)
  /-- STAMP_SEND (R489): Each port end sends a STAMP once per grain. -/
  | stampSend (port : PortId)
  /-- TIME_STEP (R490): The first correction after a cruise steps CYCLE to the time parent's. -/
  | timeStep
  /-- LINK_POLICY_PARK (R482): An idle port parks PMASK after IDLEG grains. -/
  | linkPolicyPark (port : PortId)
  /-- LINK_POLICY_WAKE (R482): A port with a long send queue wakes PMASK. -/
  | linkPolicyWake (port : PortId)
  /-- DCTL_HALT (R501): A host halt holds the context, or delivers HALT_REQ. -/
  | dctlHalt (trapReq secureFn : Bool)
  /-- DCTL_RESUME (R501): A host resume releases a held context. -/
  | dctlResume (secureFn : Bool)
  /-- DCTL_STEP (R503): A host step executes one slot of a held context. -/
  | dctlStep (trapReq secureFn : Bool)
  /-- ACHCMD_SNAPSHOT (R509): Copies the tile's counters into the host snapshot. -/
  | achcmdSnapshot (secureFn : Bool)
  /-- ACHCMD_CLEAR (R299): Clears the tile's accounts and sets the epoch start. -/
  | achcmdClear (secureFn : Bool)
  /-- TCTL_WRITE (R508): Sets trace control and empties the trace ring. -/
  | tctlWrite (value : BitVec 32) (secureFn : Bool)
  /-- PAIRCTL_WRITE (R510): Defines the primary and shadow partitions of a paired run. -/
  | pairctlWrite (value : BitVec 32) (secureFn : Bool)
  /-- PAIR_BEAT_ARRIVAL (R511): A paired external beat meets its counterpart and is compared. -/
  | pairBeatArrival (n : Nat)
  /-- PAIR_TIMEOUT (R511): A beat without a counterpart within PAIRTO is a mismatch. -/
  | pairTimeout (n : Nat)
  /-- REGISTER_WRITE (R9): A write to a register that has no behaviour of its own stores its field values. -/
  | registerWrite (offset value : BitVec 32) (secureFn : Bool)
  /-- TILE_CLOCK_CYCLE (R301): Each tile clock cycle advances CYCLE and charges all four slot positions, including cycles in which no bundle issues. -/
  | tileClockCycle
  /-- WAVELENGTH_GRAIN (R491): At the end of each 1 ms grain a port updates LKFEC, the laser reports and LKHRS, moves its equaliser taps, and recomputes LKEOL each hour. -/
  | wavelengthGrain (port : PortId) (w : Fin 8) (bias power corrected uncorrected : BitVec 16) (tapsUp tapsDown : BitVec 5)
  /-- REDUCED_SERVICE_END (R463): 2,048 cycles after the switch value, tiles stop withholding issue, the doubled PLLs run at 1.25 GHz and WSTAT.REDUCED falls. -/
  | reducedServiceEnd
  deriving DecidableEq, Repr

end Sys2Proof
end

