-- ==== Sys2Proof/WellFormed.lean ====
section
/-! DEFINITION. Which instructions a slot word may hold: the code values (KIND 1), V sources (KIND 2) and operand limits
(KIND 5) of R77, by instruction. A step of the machine that no word encodes is well formed with every argument. -/

namespace Sys2Proof

/-- A V source code that names an operand: v, f, zero or lane index (Table 3-4). -/
def vsrcOk (a : BitVec 5) : Bool := decide (a.toNat < 26)

/-- The width in bits of an element format of Table 3-4; zero for none. -/
def formatWidth (e : Nat) : Nat :=
  match e with
  | 0 => 32 | 1 => 16 | 2 => 16 | 3 => 8 | 4 => 8 | 5 => 4 | 6 => 32 | 7 => 32 | 8 => 16 | 9 => 16 | 10 => 8 | 11 => 8
  | 12 => 4 | 13 => 2 | 14 => 8 | _ => 0

/-- The integer formats of Table 3-4. -/
def formatIsInt (e : Nat) : Bool := decide (6 ≤ e) && decide (e ≤ 13)

/-- The kinds of layout of Table 3-4: VPn with n, BQm with m, MX; none for a code that is not listed. -/
inductive LayKind where
  | vp (n : Nat) | bq (m : Nat) | mx | none
  deriving DecidableEq, Repr

def layKind (l : Nat) : LayKind :=
  if l ≤ 14 then .vp (l + 2) else if l = 16 then .bq 2 else if l = 17 then .bq 4 else if l = 18 then .bq 8
  else if l = 19 then .bq 16 else if l = 20 then .mx else .none

/-- The formats of MX elements: E5M2, E4M3, E2M1. -/
def formatIsMx (e : Nat) : Bool := decide (3 ≤ e) && decide (e ≤ 5)
/-- F32, BF16, F16. -/
def formatIsFp (e : Nat) : Bool := decide (e ≤ 2)

/-- The combinations of VEN (Table 5-7) with the vb each takes. -/
def venOk (e l b : Nat) : Bool :=
  match layKind l with
  | .vp _ => if formatIsMx e then true else (formatIsInt e || formatIsFp e) && b == 24
  | .bq _ => if formatIsMx e then true else formatIsFp e && b == 24
  | .mx => formatIsMx e && b == 24
  | .none => false

/-- The combinations of VDE (R133). -/
def vdeOk (e l : Nat) : Bool :=
  match layKind l with
  | .vp _ => formatIsInt e || formatIsFp e
  | .bq _ => formatIsFp e
  | .mx => formatIsMx e
  | .none => false

/-- Registers of a group of 512 elements of width w (Table 5-6). -/
def elemRegs (w : Nat) : Nat := if 8 ≤ w then w / 8 else 1

/-- Registers of a row in a layout (Table 5-6). -/
def layRegs (l : Nat) : Nat :=
  match layKind l with
  | .vp n => if n ≤ 8 then 1 else 2
  | .bq m => (m + 7) / 8 + 1
  | .mx => 2
  | .none => 1

/-- The input group of VEN in registers (Table 5-7). -/
def venIn (e l : Nat) : Nat :=
  match layKind l with
  | .mx => 4
  | _ => elemRegs (formatWidth e)

/-- The output group of VDE in registers: MX decodes to F32. -/
def vdeOut (e l : Nat) : Nat :=
  match layKind l with
  | .mx => 4
  | _ => elemRegs (formatWidth e)

/-- A group of n registers at V source a: one register may be any source, a larger group lies in v0 to v15 (R131). -/
def groupOk (a n : Nat) : Bool := decide (n ≤ 1) || decide (a + n ≤ 16)

/-- Every code field of the instruction holds a listed value (R77, third condition). -/
def Instr.codesOk : Instr → Bool
  | .setp _ _ c _ _ k => decide (c.toNat ≤ 2) && decide (k.toNat ≤ 10)
  | .setpi _ _ c _ k _ => decide (c.toNat ≤ 2) && decide (k.toNat ≤ 10)
  | .vadd _ _ _ _ _ t => decide (t.toNat ≤ 5)
  | .vsub _ _ _ _ _ t => decide (t.toNat ≤ 5)
  | .vmul _ _ _ _ _ t => decide (t.toNat ≤ 5)
  | .vmulh _ _ _ _ _ t => decide (t.toNat ≤ 5)
  | .vmin _ _ _ _ _ t => decide (t.toNat ≤ 5)
  | .vmax _ _ _ _ _ t => decide (t.toNat ≤ 5)
  | .vadds _ _ _ _ _ t => decide (t.toNat ≤ 5)
  | .vsubs _ _ _ _ _ t => decide (t.toNat ≤ 5)
  | .vabsd _ _ _ _ _ t => decide (t.toNat ≤ 5)
  | .vand _ _ _ _ _ t => decide (t.toNat ≤ 5)
  | .vor _ _ _ _ _ t => decide (t.toNat ≤ 5)
  | .vxor _ _ _ _ _ t => decide (t.toNat ≤ 5)
  | .vshl _ _ _ _ _ t => decide (t.toNat ≤ 5)
  | .vshr _ _ _ _ _ t => decide (t.toNat ≤ 5)
  | .vavg _ _ _ _ _ t => decide (t.toNat ≤ 5)
  | .vpopc _ _ _ _ t => decide (t.toNat ≤ 5)
  | .vaddScalar _ _ _ _ _ t => decide (t.toNat ≤ 5)
  | .vsubScalar _ _ _ _ _ t => decide (t.toNat ≤ 5)
  | .vmulScalar _ _ _ _ _ t => decide (t.toNat ≤ 5)
  | .vmulhScalar _ _ _ _ _ t => decide (t.toNat ≤ 5)
  | .vminScalar _ _ _ _ _ t => decide (t.toNat ≤ 5)
  | .vmaxScalar _ _ _ _ _ t => decide (t.toNat ≤ 5)
  | .vaddsScalar _ _ _ _ _ t => decide (t.toNat ≤ 5)
  | .vsubsScalar _ _ _ _ _ t => decide (t.toNat ≤ 5)
  | .vabsdScalar _ _ _ _ _ t => decide (t.toNat ≤ 5)
  | .vandScalar _ _ _ _ _ t => decide (t.toNat ≤ 5)
  | .vorScalar _ _ _ _ _ t => decide (t.toNat ≤ 5)
  | .vxorScalar _ _ _ _ _ t => decide (t.toNat ≤ 5)
  | .vshlScalar _ _ _ _ _ t => decide (t.toNat ≤ 5)
  | .vshrScalar _ _ _ _ _ t => decide (t.toNat ≤ 5)
  | .vavgScalar _ _ _ _ _ t => decide (t.toNat ≤ 5)
  | .vfadd _ _ _ _ _ t => decide (t.toNat ≤ 2)
  | .vfsub _ _ _ _ _ t => decide (t.toNat ≤ 2)
  | .vfmul _ _ _ _ _ t => decide (t.toNat ≤ 2)
  | .vfmin _ _ _ _ _ t => decide (t.toNat ≤ 2)
  | .vfmax _ _ _ _ _ t => decide (t.toNat ≤ 2)
  | .vfabs _ _ _ _ t => decide (t.toNat ≤ 2)
  | .vfneg _ _ _ _ t => decide (t.toNat ≤ 2)
  | .vexp2 _ _ _ _ t => decide (t.toNat ≤ 2)
  | .vlog2 _ _ _ _ t => decide (t.toNat ≤ 2)
  | .vrcp _ _ _ _ t => decide (t.toNat ≤ 2)
  | .vrsqrt _ _ _ _ t => decide (t.toNat ≤ 2)
  | .vfrint _ _ _ _ t => decide (t.toNat ≤ 2)
  | .vfaddScalar _ _ _ _ _ t => decide (t.toNat ≤ 2)
  | .vfsubScalar _ _ _ _ _ t => decide (t.toNat ≤ 2)
  | .vfmulScalar _ _ _ _ _ t => decide (t.toNat ≤ 2)
  | .vfminScalar _ _ _ _ _ t => decide (t.toNat ≤ 2)
  | .vfmaxScalar _ _ _ _ _ t => decide (t.toNat ≤ 2)
  | .vfma _ _ _ _ _ _ t => decide (t.toNat ≤ 2)
  | .vfms _ _ _ _ _ _ t => decide (t.toNat ≤ 2)
  | .vfnma _ _ _ _ _ _ t => decide (t.toNat ≤ 2)
  | .vcmp _ _ _ _ _ t c => decide (t.toNat ≤ 5) && decide (c.toNat ≤ 5)
  | .vfcmp _ _ _ _ _ t c => decide (t.toNat ≤ 2) && decide (c.toNat ≤ 7)
  | .vcvt _ _ _ e s _ w => decide (e.toNat ≤ 14) && decide (s.toNat ≤ 14) &&
      (w == 0 || (formatIsInt e.toNat && formatIsInt s.toNat && decide (formatWidth e.toNat ≤ formatWidth s.toNat)))
  | .ven _ _ _ b e l => venOk e.toNat l.toNat b.toNat
  | .vde _ _ _ e l => vdeOk e.toNat l.toNat
  | .vrsum _ _ _ _ t => decide (t.toNat ≤ 2)
  | .vrmax _ _ _ _ t => decide (t.toNat ≤ 2)
  | .vrmin _ _ _ _ t => decide (t.toNat ≤ 2)
  | .vscan _ _ _ _ t => decide (t.toNat ≤ 2)
  | .vxcopy _ _ _ t _ _ => decide (t.toNat ≤ 2)
  | .ld _ _ _ z x _ => decide (z.toNat ≤ 2) && !(x == 1 && z == 2)
  | .st _ _ _ z _ => decide (z.toNat ≤ 2)
  | .avst _ _ _ m _ => decide (m.toNat ≤ 2)
  | .amo _ _ _ _ f => decide (f.toNat ≤ 5)
  | .rst _ _ _ _ _ o => decide (o.toNat ≤ 1)
  | .radd _ _ _ _ _ _ o _ => decide (o.toNat ≤ 1)
  | .rget _ _ _ _ _ o _ => (o == 0 || o == 2)
  | .ramo _ _ _ _ _ o f => decide (o.toNat ≤ 2) && decide (f.toNat ≤ 5)
  | .chsend _ _ _ o _ => decide (o.toNat ≤ 1)
  | .hset _ _ t _ => decide (t.toNat ≤ 2)
  | .hget _ _ _ t => decide (t.toNat ≤ 2)
  | .parset _ _ t _ => decide (t.toNat ≤ 1)
  | .parget _ _ _ t => decide (t.toNat ≤ 1)
  | .ecancel _ e => decide (e.toNat ≤ 2)
  | .excset _ e _ => decide (e.toNat ≤ 2)
  | .excget _ e _ => decide (e.toNat ≤ 2)
  | _ => true

/-- Every V source of the instruction names an operand (R77, fourth condition). -/
def Instr.sourcesOk : Instr → Bool
  | .vadd _ _ a b _ _ => vsrcOk a && vsrcOk b
  | .vsub _ _ a b _ _ => vsrcOk a && vsrcOk b
  | .vmul _ _ a b _ _ => vsrcOk a && vsrcOk b
  | .vmulh _ _ a b _ _ => vsrcOk a && vsrcOk b
  | .vmin _ _ a b _ _ => vsrcOk a && vsrcOk b
  | .vmax _ _ a b _ _ => vsrcOk a && vsrcOk b
  | .vadds _ _ a b _ _ => vsrcOk a && vsrcOk b
  | .vsubs _ _ a b _ _ => vsrcOk a && vsrcOk b
  | .vabsd _ _ a b _ _ => vsrcOk a && vsrcOk b
  | .vand _ _ a b _ _ => vsrcOk a && vsrcOk b
  | .vor _ _ a b _ _ => vsrcOk a && vsrcOk b
  | .vxor _ _ a b _ _ => vsrcOk a && vsrcOk b
  | .vshl _ _ a b _ _ => vsrcOk a && vsrcOk b
  | .vshr _ _ a b _ _ => vsrcOk a && vsrcOk b
  | .vavg _ _ a b _ _ => vsrcOk a && vsrcOk b
  | .vpopc _ _ a _ _ => vsrcOk a
  | .vaddScalar _ _ a _ _ _ => vsrcOk a
  | .vsubScalar _ _ a _ _ _ => vsrcOk a
  | .vmulScalar _ _ a _ _ _ => vsrcOk a
  | .vmulhScalar _ _ a _ _ _ => vsrcOk a
  | .vminScalar _ _ a _ _ _ => vsrcOk a
  | .vmaxScalar _ _ a _ _ _ => vsrcOk a
  | .vaddsScalar _ _ a _ _ _ => vsrcOk a
  | .vsubsScalar _ _ a _ _ _ => vsrcOk a
  | .vabsdScalar _ _ a _ _ _ => vsrcOk a
  | .vandScalar _ _ a _ _ _ => vsrcOk a
  | .vorScalar _ _ a _ _ _ => vsrcOk a
  | .vxorScalar _ _ a _ _ _ => vsrcOk a
  | .vshlScalar _ _ a _ _ _ => vsrcOk a
  | .vshrScalar _ _ a _ _ _ => vsrcOk a
  | .vavgScalar _ _ a _ _ _ => vsrcOk a
  | .vfadd _ _ a b _ _ => vsrcOk a && vsrcOk b
  | .vfsub _ _ a b _ _ => vsrcOk a && vsrcOk b
  | .vfmul _ _ a b _ _ => vsrcOk a && vsrcOk b
  | .vfmin _ _ a b _ _ => vsrcOk a && vsrcOk b
  | .vfmax _ _ a b _ _ => vsrcOk a && vsrcOk b
  | .vfabs _ _ a _ _ => vsrcOk a
  | .vfneg _ _ a _ _ => vsrcOk a
  | .vexp2 _ _ a _ _ => vsrcOk a
  | .vlog2 _ _ a _ _ => vsrcOk a
  | .vrcp _ _ a _ _ => vsrcOk a
  | .vrsqrt _ _ a _ _ => vsrcOk a
  | .vfrint _ _ a _ _ => vsrcOk a
  | .vfaddScalar _ _ a _ _ _ => vsrcOk a
  | .vfsubScalar _ _ a _ _ _ => vsrcOk a
  | .vfmulScalar _ _ a _ _ _ => vsrcOk a
  | .vfminScalar _ _ a _ _ _ => vsrcOk a
  | .vfmaxScalar _ _ a _ _ _ => vsrcOk a
  | .vfma _ _ a b c _ _ => vsrcOk a && vsrcOk b && vsrcOk c
  | .vfms _ _ a b c _ _ => vsrcOk a && vsrcOk b && vsrcOk c
  | .vfnma _ _ a b c _ _ => vsrcOk a && vsrcOk b && vsrcOk c
  | .vcmp _ _ a b _ _ _ => vsrcOk a && vsrcOk b
  | .vfcmp _ _ a b _ _ _ => vsrcOk a && vsrcOk b
  | .vsel _ _ a b _ => vsrcOk a && vsrcOk b
  | .vcvt _ _ a _ _ _ _ => vsrcOk a
  | .ven _ _ a b _ _ => vsrcOk a && vsrcOk b
  | .vde _ _ a _ _ => vsrcOk a
  | .vrsum _ _ a _ _ => vsrcOk a
  | .vrmax _ _ a _ _ => vsrcOk a
  | .vrmin _ _ a _ _ => vsrcOk a
  | .vscan _ _ a _ _ => vsrcOk a
  | .vperm _ _ a b _ => vsrcOk a && vsrcOk b
  | .vrot _ _ a _ _ => vsrcOk a
  | .vbcl _ _ a _ _ => vsrcOk a
  | .vxcopy _ _ a _ _ _ => vsrcOk a
  | .vget _ a _ _ => vsrcOk a
  | .vput _ _ a _ _ => vsrcOk a
  | .opush _ _ s => vsrcOk s
  | .rst _ _ _ s _ _ => vsrcOk s
  | .radd _ _ _ s _ _ _ _ => vsrcOk s
  | .chsend _ _ s _ _ => vsrcOk s
  | _ => true

/-- The sys numbers of Table 4-8. -/
def sysListed (n : Nat) : Bool :=
  decide (n ≤ 6) || (decide (8 ≤ n) && decide (n ≤ 0xE)) || (decide (0x10 ≤ n) && decide (n ≤ 0x12))
  || (decide (0x18 ≤ n) && decide (n ≤ 0x1C)) || (decide (0x40 ≤ n) && decide (n ≤ 0x5F))

/-- The sys numbers that SMOV may name (Table 4-8, access RW). -/
def sysWritable (n : Nat) : Bool :=
  n == 0 || n == 1 || n == 3 || n == 4 || n == 5 || (decide (0x40 ≤ n) && decide (n ≤ 0x5F))

/-- Every operand lies within the limits that its encoding states (R77, sixth condition). -/
def Instr.limitsOk : Instr → Bool
  | .bfx _ _ _ l s => decide (s.toNat + l.toNat + 1 ≤ 32)
  | .bfxu _ _ _ l s => decide (s.toNat + l.toNat + 1 ≤ 32)
  | .bfi _ _ _ l s => decide (s.toNat + l.toNat + 1 ≤ 32)
  | .loop _ _ _ n => decide (1 ≤ n.toNat)
  | .loopi _ _ _ n => decide (1 ≤ n.toNat)
  | .movs _ _ n => sysListed n.toNat
  | .smov _ _ n => sysWritable n.toNat
  | .wait _ _ n => decide (1 ≤ n.toNat)
  | .sig _ _ n => decide (1 ≤ n.toNat)
  | .arm _ n => decide (n.toNat ≤ 1)
  | .sprio _ n => decide (n.toNat ≤ 3)
  | .cstart _ _ _ n => decide (n.toNat ≤ 3)
  | .cstop _ _ n => decide (n.toNat ≤ 3)
  | .ckill _ _ n => decide (n.toNat ≤ 3)
  | .trap _ n => decide (n.toNat ≤ 23)
  | .acrange _ _ n => decide (n.toNat ≤ 62)
  | .banktst _ _ s => decide (s.toNat ≤ 2)
  | .kseq _ _ s => decide (s.toNat ≤ 1)
  | .kseqQueue _ _ _ s => decide (2 ≤ s.toNat) && decide (s.toNat ≤ 3)
  | .gslice _ _ s => s != 2
  | .barinit _ _ l _ => decide (1 ≤ l.toNat) && decide (l.toNat ≤ 6)
  | .colset _ _ c f => decide (f.toNat + c.toNat + 1 ≤ 64)
  | .colget _ _ s => decide (s.toNat ≤ 3)
  | .lkstat _ _ _ w => decide (w.toNat ≤ 2)
  | .amo _ _ _ b f => f != 5 || b.toNat % 2 == 0
  | .ramo _ _ _ b _ _ f => f != 5 || b.toNat % 2 == 0
  | .hmsg _ _ _ b l => decide (1 ≤ l.toNat) && b.toNat % 2 == 0
  | .vrot _ _ _ k _ => decide (k.toNat ≤ 15)
  | .vbcl _ _ _ k _ => decide (k.toNat ≤ 15)
  | .ven _ d a _ e l => groupOk a.toNat (venIn e.toNat l.toNat) && groupOk d.toNat (layRegs l.toNat)
  | .vde _ d a e l => groupOk a.toNat (layRegs l.toNat) && groupOk d.toNat (vdeOut e.toNat l.toNat)
  | _ => true

/-- The fields that the instruction's own form leaves unused are zero (R77, fifth condition): with ord 00, sc is 0 (R165). -/
def Instr.zerosOk : Instr → Bool
  | .rst _ _ _ _ c o => o != 0 || c == 0
  | .radd _ _ _ _ _ c o _ => o != 0 || c == 0
  | .rget _ _ _ _ c o _ => o != 0 || c == 0
  | .ramo _ _ _ _ c o _ => o != 0 || c == 0
  | .chsend _ _ _ o c => o != 0 || c == 0
  | _ => true

/-- A well-formed instruction: what a slot word can hold as an instruction. -/
def Instr.wf (i : Instr) : Bool := i.codesOk && i.sourcesOk && i.zerosOk && i.limitsOk

end Sys2Proof
end

