-- ==== Sys2Proof/Decode.lean ====
section
/-! DEFINITION. Decoding: a slot word to its instruction or to a reserved encoding with its KIND (R70 to R78, Tables 3-3 to
3-9), a bundle to its four slots with the lent-bit conflict of R68; and the encoder. Bits are taken by
division, so that a word is a number. Routine words are decoded beside the matrix engine (decodeMicro). -/

namespace Sys2Proof

/-- The w bits of n from bit lo on. -/
def fld (n lo w : Nat) : BitVec w := BitVec.ofNat w (n / 2 ^ lo)

/-- Whether the w bits of n from bit lo on hold v. -/
def bitsAre (n : Nat) (f : Nat × Nat × Nat) : Bool := n / 2 ^ f.1 % 2 ^ f.2.1 == f.2.2

/-- One encoding below its major opcode: the bits that choose it (first bit, width, value), the bits that must be zero, and the
instruction of a word. -/
structure Row where
  code : List (Nat × Nat × Nat)
  zero : List (Nat × Nat × Nat)
  inst : Nat → Instr

/-- Slot 0, major 0x01. -/
def rows0_01 : List Row :=
  [ ⟨[(0, 9, 0)], [], fun n => .add (fld n 24 2) (fld n 19 5) (fld n 14 5) (fld n 9 5)⟩,
    ⟨[(0, 9, 1)], [], fun n => .sub (fld n 24 2) (fld n 19 5) (fld n 14 5) (fld n 9 5)⟩,
    ⟨[(0, 9, 2)], [], fun n => .and (fld n 24 2) (fld n 19 5) (fld n 14 5) (fld n 9 5)⟩,
    ⟨[(0, 9, 3)], [], fun n => .or (fld n 24 2) (fld n 19 5) (fld n 14 5) (fld n 9 5)⟩,
    ⟨[(0, 9, 4)], [], fun n => .xor (fld n 24 2) (fld n 19 5) (fld n 14 5) (fld n 9 5)⟩,
    ⟨[(0, 9, 5)], [], fun n => .andn (fld n 24 2) (fld n 19 5) (fld n 14 5) (fld n 9 5)⟩,
    ⟨[(0, 9, 6)], [], fun n => .shl (fld n 24 2) (fld n 19 5) (fld n 14 5) (fld n 9 5)⟩,
    ⟨[(0, 9, 7)], [], fun n => .shr (fld n 24 2) (fld n 19 5) (fld n 14 5) (fld n 9 5)⟩,
    ⟨[(0, 9, 8)], [], fun n => .sar (fld n 24 2) (fld n 19 5) (fld n 14 5) (fld n 9 5)⟩,
    ⟨[(0, 9, 9)], [], fun n => .rol (fld n 24 2) (fld n 19 5) (fld n 14 5) (fld n 9 5)⟩,
    ⟨[(0, 9, 10)], [], fun n => .min (fld n 24 2) (fld n 19 5) (fld n 14 5) (fld n 9 5)⟩,
    ⟨[(0, 9, 11)], [], fun n => .max (fld n 24 2) (fld n 19 5) (fld n 14 5) (fld n 9 5)⟩,
    ⟨[(0, 9, 12)], [], fun n => .minu (fld n 24 2) (fld n 19 5) (fld n 14 5) (fld n 9 5)⟩,
    ⟨[(0, 9, 13)], [], fun n => .maxu (fld n 24 2) (fld n 19 5) (fld n 14 5) (fld n 9 5)⟩,
    ⟨[(0, 9, 14)], [], fun n => .mul (fld n 24 2) (fld n 19 5) (fld n 14 5) (fld n 9 5)⟩,
    ⟨[(0, 9, 15)], [], fun n => .mulh (fld n 24 2) (fld n 19 5) (fld n 14 5) (fld n 9 5)⟩,
    ⟨[(0, 9, 16)], [], fun n => .mulhu (fld n 24 2) (fld n 19 5) (fld n 14 5) (fld n 9 5)⟩,
    ⟨[(0, 9, 17)], [], fun n => .div (fld n 24 2) (fld n 19 5) (fld n 14 5) (fld n 9 5)⟩,
    ⟨[(0, 9, 18)], [], fun n => .divu (fld n 24 2) (fld n 19 5) (fld n 14 5) (fld n 9 5)⟩,
    ⟨[(0, 9, 19)], [], fun n => .rem (fld n 24 2) (fld n 19 5) (fld n 14 5) (fld n 9 5)⟩,
    ⟨[(0, 9, 20)], [], fun n => .remu (fld n 24 2) (fld n 19 5) (fld n 14 5) (fld n 9 5)⟩,
    ⟨[(0, 9, 21)], [], fun n => .adds (fld n 24 2) (fld n 19 5) (fld n 14 5) (fld n 9 5)⟩,
    ⟨[(0, 9, 22)], [], fun n => .subs (fld n 24 2) (fld n 19 5) (fld n 14 5) (fld n 9 5)⟩,
    ⟨[(0, 9, 23)], [(9, 5, 0)], fun n => .clz (fld n 24 2) (fld n 19 5) (fld n 14 5)⟩,
    ⟨[(0, 9, 24)], [(9, 5, 0)], fun n => .ctz (fld n 24 2) (fld n 19 5) (fld n 14 5)⟩,
    ⟨[(0, 9, 25)], [(9, 5, 0)], fun n => .popc (fld n 24 2) (fld n 19 5) (fld n 14 5)⟩,
    ⟨[(0, 9, 26)], [(9, 5, 0)], fun n => .brev (fld n 24 2) (fld n 19 5) (fld n 14 5)⟩,
    ⟨[(0, 9, 27)], [(9, 5, 0)], fun n => .bswap (fld n 24 2) (fld n 19 5) (fld n 14 5)⟩ ]

/-- Slot 0, major 0x02. -/
def rows0_02 : List Row :=
  [ ⟨[], [], fun n => .addi (fld n 24 2) (fld n 19 5) (fld n 14 5) (fld n 0 14)⟩ ]

/-- Slot 0, major 0x03. -/
def rows0_03 : List Row :=
  [ ⟨[], [], fun n => .andi (fld n 24 2) (fld n 19 5) (fld n 14 5) (fld n 0 14)⟩ ]

/-- Slot 0, major 0x04. -/
def rows0_04 : List Row :=
  [ ⟨[], [], fun n => .ori (fld n 24 2) (fld n 19 5) (fld n 14 5) (fld n 0 14)⟩ ]

/-- Slot 0, major 0x05. -/
def rows0_05 : List Row :=
  [ ⟨[], [], fun n => .xori (fld n 24 2) (fld n 19 5) (fld n 14 5) (fld n 0 14)⟩ ]

/-- Slot 0, major 0x06. -/
def rows0_06 : List Row :=
  [ ⟨[], [(5, 9, 0)], fun n => .shli (fld n 24 2) (fld n 19 5) (fld n 14 5) (fld n 0 5)⟩ ]

/-- Slot 0, major 0x07. -/
def rows0_07 : List Row :=
  [ ⟨[], [(5, 9, 0)], fun n => .shri (fld n 24 2) (fld n 19 5) (fld n 14 5) (fld n 0 5)⟩ ]

/-- Slot 0, major 0x08. -/
def rows0_08 : List Row :=
  [ ⟨[], [(5, 9, 0)], fun n => .sari (fld n 24 2) (fld n 19 5) (fld n 14 5) (fld n 0 5)⟩ ]

/-- Slot 0, major 0x09. -/
def rows0_09 : List Row :=
  [ ⟨[], [], fun n => .muli (fld n 24 2) (fld n 19 5) (fld n 14 5) (fld n 0 14)⟩ ]

/-- Slot 0, major 0x0A. -/
def rows0_0A : List Row :=
  [ ⟨[], [], fun n => .movi (fld n 24 2) (fld n 19 5) (fld n 0 19)⟩ ]

/-- Slot 0, major 0x0B. -/
def rows0_0B : List Row :=
  [ ⟨[], [], fun n => .movhi (fld n 24 2) (fld n 19 5) (fld n 0 19)⟩ ]

/-- Slot 0, major 0x0C. -/
def rows0_0C : List Row :=
  [ ⟨[], [], fun n => .leab (fld n 24 2) (fld n 19 5) (fld n 0 19)⟩ ]

/-- Slot 0, major 0x0D. -/
def rows0_0D : List Row :=
  [ ⟨[], [(10, 4, 0)], fun n => .bfx (fld n 24 2) (fld n 19 5) (fld n 14 5) (fld n 5 5) (fld n 0 5)⟩ ]

/-- Slot 0, major 0x0E. -/
def rows0_0E : List Row :=
  [ ⟨[], [(10, 4, 0)], fun n => .bfxu (fld n 24 2) (fld n 19 5) (fld n 14 5) (fld n 5 5) (fld n 0 5)⟩ ]

/-- Slot 0, major 0x0F. -/
def rows0_0F : List Row :=
  [ ⟨[], [(10, 4, 0)], fun n => .bfi (fld n 24 2) (fld n 19 5) (fld n 14 5) (fld n 5 5) (fld n 0 5)⟩ ]

/-- Slot 0, major 0x10. -/
def rows0_10 : List Row :=
  [ ⟨[], [(0, 5, 0)], fun n => .setp (fld n 24 2) (fld n 21 3) (fld n 19 2) (fld n 14 5) (fld n 9 5) (fld n 5 4)⟩ ]

/-- Slot 0, major 0x11. -/
def rows0_11 : List Row :=
  [ ⟨[], [], fun n => .setpi (fld n 24 2) (fld n 21 3) (fld n 19 2) (fld n 14 5) (fld n 10 4) (fld n 0 10)⟩ ]

/-- Slot 0, major 0x12. -/
def rows0_12 : List Row :=
  [ ⟨[(0, 2, 0)], [(2, 11, 0)], fun n => .pand (fld n 24 2) (fld n 21 3) (fld n 18 3) (fld n 15 3) (fld n 14 1) (fld n 13 1)⟩,
    ⟨[(0, 2, 1)], [(2, 11, 0)], fun n => .por (fld n 24 2) (fld n 21 3) (fld n 18 3) (fld n 15 3) (fld n 14 1) (fld n 13 1)⟩,
    ⟨[(0, 2, 2)], [(2, 11, 0)], fun n => .pxor (fld n 24 2) (fld n 21 3) (fld n 18 3) (fld n 15 3) (fld n 14 1) (fld n 13 1)⟩ ]

/-- Slot 0, major 0x13. -/
def rows0_13 : List Row :=
  [ ⟨[], [(0, 5, 0)], fun n => .sel (fld n 24 2) (fld n 19 5) (fld n 14 5) (fld n 9 5) (fld n 6 3) (fld n 5 1)⟩ ]

/-- Slot 0, major 0x14. -/
def rows0_14 : List Row :=
  [ ⟨[], [], fun n => .br (fld n 24 2) (fld n 23 1) (fld n 20 3) (fld n 0 20)⟩ ]

/-- Slot 0, major 0x15. -/
def rows0_15 : List Row :=
  [ ⟨[], [(0, 15, 0)], fun n => .brr (fld n 24 2) (fld n 23 1) (fld n 20 3) (fld n 15 5)⟩ ]

/-- Slot 0, major 0x16. -/
def rows0_16 : List Row :=
  [ ⟨[], [], fun n => .call (fld n 24 2) (fld n 23 1) (fld n 20 3) (fld n 0 20)⟩ ]

/-- Slot 0, major 0x17. -/
def rows0_17 : List Row :=
  [ ⟨[], [(0, 15, 0)], fun n => .callr (fld n 24 2) (fld n 23 1) (fld n 20 3) (fld n 15 5)⟩ ]

/-- Slot 0, major 0x18. -/
def rows0_18 : List Row :=
  [ ⟨[], [(0, 20, 0)], fun n => .ret (fld n 24 2) (fld n 23 1) (fld n 20 3)⟩ ]

/-- Slot 0, major 0x19. -/
def rows0_19 : List Row :=
  [ ⟨[], [(19, 3, 0)], fun n => .loop (fld n 24 2) (fld n 22 2) (fld n 14 5) (fld n 0 14)⟩ ]

/-- Slot 0, major 0x1A. -/
def rows0_1A : List Row :=
  [ ⟨[], [], fun n => .loopi (fld n 24 2) (fld n 22 2) (fld n 10 12) (fld n 0 10)⟩ ]

/-- Slot 0, major 0x1B. -/
def rows0_1B : List Row :=
  [ ⟨[], [(0, 3, 0)], fun n => .wait (fld n 24 2) (fld n 19 5) (fld n 3 16)⟩ ]

/-- Slot 0, major 0x1C. -/
def rows0_1C : List Row :=
  [ ⟨[], [(0, 3, 0)], fun n => .sig (fld n 24 2) (fld n 19 5) (fld n 3 16)⟩ ]

/-- Slot 0, major 0x1D. -/
def rows0_1D : List Row :=
  [ ⟨[], [(0, 9, 0)], fun n => .movs (fld n 24 2) (fld n 19 5) (fld n 9 10)⟩ ]

/-- Slot 0, major 0x1E. -/
def rows0_1E : List Row :=
  [ ⟨[], [(0, 9, 0)], fun n => .smov (fld n 24 2) (fld n 19 5) (fld n 9 10)⟩ ]

/-- Slot 0, major 0x20. -/
def rows0_20 : List Row :=
  [ ⟨[(0, 2, 0)], [(2, 22, 0)], fun n => .park (fld n 24 2)⟩,
    ⟨[(0, 2, 1)], [(14, 10, 0)], fun n => .yield (fld n 24 2) (fld n 2 12)⟩,
    ⟨[(0, 2, 2)], [(14, 10, 0)], fun n => .arm (fld n 24 2) (fld n 2 12)⟩,
    ⟨[(0, 2, 3)], [(14, 10, 0)], fun n => .sprio (fld n 24 2) (fld n 2 12)⟩ ]

/-- Slot 0, major 0x21. -/
def rows0_21 : List Row :=
  [ ⟨[(0, 2, 0)], [], fun n => .cstart (fld n 24 2) (fld n 19 5) (fld n 14 5) (fld n 2 12)⟩,
    ⟨[(0, 2, 1)], [(14, 5, 0)], fun n => .cstop (fld n 24 2) (fld n 19 5) (fld n 2 12)⟩,
    ⟨[(0, 2, 2)], [(14, 5, 0)], fun n => .ckill (fld n 24 2) (fld n 19 5) (fld n 2 12)⟩ ]

/-- Slot 0, major 0x22. -/
def rows0_22 : List Row :=
  [ ⟨[(0, 2, 0)], [(14, 10, 0)], fun n => .trap (fld n 24 2) (fld n 2 12)⟩,
    ⟨[(0, 2, 1)], [(2, 22, 0)], fun n => .rett (fld n 24 2)⟩,
    ⟨[(0, 2, 2)], [(14, 10, 0)], fun n => .ctopen (fld n 24 2) (fld n 2 12)⟩,
    ⟨[(0, 2, 3)], [(2, 22, 0)], fun n => .ctclose (fld n 24 2)⟩ ]

/-- Slot 0, major 0x23. -/
def rows0_23 : List Row :=
  [ ⟨[(0, 2, 0)], [(14, 10, 0)], fun n => .segchk (fld n 24 2) (fld n 2 12)⟩ ]

/-- Slot 0, major 0x24. -/
def rows0_24 : List Row :=
  [ ⟨[(0, 14, 1)], [], fun n => .acread (fld n 24 2) (fld n 19 5) (fld n 14 5)⟩,
    ⟨[(0, 14, 4097)], [(14, 5, 0)], fun n => .acreadSnap (fld n 24 2) (fld n 19 5)⟩,
    ⟨[(0, 2, 1), (3, 11, 1024)], [(14, 5, 0)], fun n => .acreadEl (fld n 24 2) (fld n 19 5) (fld n 2 1)⟩,
    ⟨[(0, 2, 0)], [(8, 6, 0), (19, 5, 0)], fun n => .acrange (fld n 24 2) (fld n 14 5) (fld n 2 6)⟩,
    ⟨[(0, 2, 2)], [(8, 11, 0)], fun n => .acloop (fld n 24 2) (fld n 19 5) (fld n 7 1) (fld n 6 1) (fld n 4 2) (fld n 2 2)⟩,
    ⟨[(0, 2, 3)], [(2, 22, 0)], fun n => .acclr (fld n 24 2)⟩ ]

/-- Slot 0, major 0x25. -/
def rows0_25 : List Row :=
  [ ⟨[(0, 2, 1), (13, 1, 0)], [(6, 7, 0), (14, 5, 0)], fun n => .qstat (fld n 24 2) (fld n 19 5) (fld n 2 4)⟩,
    ⟨[(0, 2, 1), (13, 1, 1)], [(8, 5, 0), (14, 5, 0)], fun n => .qstatLs (fld n 24 2) (fld n 19 5) (fld n 2 6)⟩,
    ⟨[(0, 2, 0)], [(6, 8, 0)], fun n => .launch (fld n 24 2) (fld n 19 5) (fld n 14 5) (fld n 2 4)⟩,
    ⟨[(0, 2, 2)], [(6, 13, 0)], fun n => .qprio (fld n 24 2) (fld n 19 5) (fld n 4 2) (fld n 2 2)⟩,
    ⟨[(0, 2, 3)], [(6, 13, 0)], fun n => .qcancel (fld n 24 2) (fld n 19 5) (fld n 2 4)⟩ ]

/-- Slot 0, major 0x26. -/
def rows0_26 : List Row :=
  [ ⟨[(0, 14, 0)], [(19, 5, 0)], fun n => .bankrel (fld n 24 2) (fld n 14 5)⟩,
    ⟨[(0, 2, 0), (3, 11, 1024)], [(19, 5, 0)], fun n => .bankrelAcc (fld n 24 2) (fld n 14 5) (fld n 2 1)⟩,
    ⟨[(0, 2, 3), (3, 1, 0)], [(14, 5, 0)], fun n => .kseq (fld n 24 2) (fld n 19 5) (fld n 2 12)⟩,
    ⟨[(0, 2, 3), (3, 1, 1)], [], fun n => .kseqQueue (fld n 24 2) (fld n 19 5) (fld n 14 5) (fld n 2 12)⟩,
    ⟨[(0, 2, 1)], [(14, 5, 0)], fun n => .banktst (fld n 24 2) (fld n 19 5) (fld n 2 12)⟩,
    ⟨[(0, 2, 2)], [(2, 22, 0)], fun n => .kend (fld n 24 2)⟩ ]

/-- Slot 0, major 0x27. -/
def rows0_27 : List Row :=
  [ ⟨[(0, 4, 11)], [(4, 10, 0), (19, 5, 0)], fun n => .gsliceWait (fld n 24 2) (fld n 14 5)⟩,
    ⟨[(0, 2, 0), (5, 1, 0)], [(6, 13, 0)], fun n => .gid (fld n 24 2) (fld n 19 5) (fld n 2 3)⟩,
    ⟨[(0, 2, 0), (5, 1, 1)], [(2, 3, 0), (6, 8, 0)], fun n => .gidReg (fld n 24 2) (fld n 19 5) (fld n 14 5)⟩,
    ⟨[(0, 2, 1), (5, 1, 0)], [(6, 13, 0)], fun n => .gdim (fld n 24 2) (fld n 19 5) (fld n 2 3)⟩,
    ⟨[(0, 2, 1), (5, 1, 1)], [(2, 3, 0), (6, 8, 0)], fun n => .gdimReg (fld n 24 2) (fld n 19 5) (fld n 14 5)⟩,
    ⟨[(0, 2, 2), (5, 1, 0)], [(6, 13, 0)], fun n => .gbase (fld n 24 2) (fld n 19 5) (fld n 2 3)⟩,
    ⟨[(0, 2, 2), (5, 1, 1)], [(2, 3, 0), (6, 8, 0)], fun n => .gbaseReg (fld n 24 2) (fld n 19 5) (fld n 14 5)⟩,
    ⟨[(0, 2, 3)], [(4, 15, 0)], fun n => .gslice (fld n 24 2) (fld n 19 5) (fld n 2 2)⟩ ]

/-- Slot 0, major 0x28. -/
def rows0_28 : List Row :=
  [ ⟨[(0, 2, 0)], [(11, 3, 0), (19, 5, 0)], fun n => .barinit (fld n 24 2) (fld n 14 5) (fld n 8 3) (fld n 2 6)⟩,
    ⟨[(0, 2, 1)], [(8, 11, 0)], fun n => .bararv (fld n 24 2) (fld n 19 5) (fld n 2 6)⟩,
    ⟨[(0, 2, 2)], [(8, 11, 0)], fun n => .bardrop (fld n 24 2) (fld n 19 5) (fld n 2 6)⟩,
    ⟨[(0, 2, 3)], [(8, 16, 0)], fun n => .barwait (fld n 24 2) (fld n 2 6)⟩ ]

/-- Slot 0, major 0x29. -/
def rows0_29 : List Row :=
  [ ⟨[(0, 2, 0), (8, 1, 0)], [(9, 10, 0)], fun n => .bartst (fld n 24 2) (fld n 19 5) (fld n 2 6)⟩,
    ⟨[(0, 2, 0), (8, 1, 1)], [(9, 10, 0)], fun n => .bartstView (fld n 24 2) (fld n 19 5) (fld n 2 6)⟩,
    ⟨[(0, 2, 1)], [(19, 5, 0)], fun n => .colset (fld n 24 2) (fld n 14 5) (fld n 8 6) (fld n 2 6)⟩,
    ⟨[(0, 2, 2)], [(14, 5, 0)], fun n => .colget (fld n 24 2) (fld n 19 5) (fld n 2 12)⟩ ]

/-- Slot 0, major 0x2A. -/
def rows0_2A : List Row :=
  [ ⟨[(0, 2, 0)], [(14, 10, 0)], fun n => .chopen (fld n 24 2) (fld n 2 12)⟩,
    ⟨[(0, 2, 1)], [(14, 10, 0)], fun n => .chclose (fld n 24 2) (fld n 2 12)⟩,
    ⟨[(0, 2, 2)], [(14, 5, 0)], fun n => .chstat (fld n 24 2) (fld n 19 5) (fld n 2 12)⟩,
    ⟨[(0, 2, 3)], [(14, 5, 0)], fun n => .chwin (fld n 24 2) (fld n 19 5) (fld n 2 12)⟩ ]

/-- Slot 0, major 0x2B. -/
def rows0_2B : List Row :=
  [ ⟨[(0, 2, 1), (5, 1, 0)], [(6, 8, 0), (19, 5, 0)], fun n => .pginv (fld n 24 2) (fld n 14 5) (fld n 2 3)⟩,
    ⟨[(0, 2, 1), (5, 1, 1)], [(2, 3, 0), (6, 18, 0)], fun n => .pginvAll (fld n 24 2)⟩,
    ⟨[(0, 2, 0)], [(5, 9, 0)], fun n => .pgprobe (fld n 24 2) (fld n 19 5) (fld n 14 5) (fld n 2 3)⟩,
    ⟨[(0, 2, 2)], [(6, 8, 0)], fun n => .pgtouch (fld n 24 2) (fld n 19 5) (fld n 14 5) (fld n 5 1) (fld n 2 3)⟩ ]

/-- Slot 0, major 0x2C. -/
def rows0_2C : List Row :=
  [ ⟨[(0, 2, 0)], [(4, 10, 0)], fun n => .lkstat (fld n 24 2) (fld n 19 5) (fld n 14 5) (fld n 2 2)⟩,
    ⟨[(0, 2, 1)], [(10, 4, 0)], fun n => .lkpark (fld n 24 2) (fld n 19 5) (fld n 14 5) (fld n 2 8)⟩,
    ⟨[(0, 2, 2)], [(10, 4, 0)], fun n => .lkwake (fld n 24 2) (fld n 19 5) (fld n 14 5) (fld n 2 8)⟩,
    ⟨[(0, 2, 3)], [(3, 11, 0)], fun n => .lkstamp (fld n 24 2) (fld n 19 5) (fld n 14 5) (fld n 2 1)⟩ ]

/-- Slot 0, major 0x2D. -/
def rows0_2D : List Row :=
  [ ⟨[(0, 2, 0)], [(14, 10, 0)], fun n => .brk (fld n 24 2) (fld n 2 12)⟩,
    ⟨[(0, 2, 1)], [(11, 3, 0), (19, 5, 0)], fun n => .dbgmark (fld n 24 2) (fld n 14 5) (fld n 2 9)⟩,
    ⟨[(0, 2, 2)], [(2, 22, 0)], fun n => .trcon (fld n 24 2)⟩,
    ⟨[(0, 2, 3)], [(2, 22, 0)], fun n => .trcoff (fld n 24 2)⟩ ]

/-- Slot 1, major 0x01. -/
def rows1_01 : List Row :=
  [ ⟨[(0, 4, 0)], [], fun n => .vadd (fld n 24 2) (fld n 20 4) (fld n 15 5) (fld n 10 5) (fld n 7 3) (fld n 4 3)⟩,
    ⟨[(0, 4, 1)], [], fun n => .vsub (fld n 24 2) (fld n 20 4) (fld n 15 5) (fld n 10 5) (fld n 7 3) (fld n 4 3)⟩,
    ⟨[(0, 4, 2)], [], fun n => .vmul (fld n 24 2) (fld n 20 4) (fld n 15 5) (fld n 10 5) (fld n 7 3) (fld n 4 3)⟩,
    ⟨[(0, 4, 3)], [], fun n => .vmulh (fld n 24 2) (fld n 20 4) (fld n 15 5) (fld n 10 5) (fld n 7 3) (fld n 4 3)⟩,
    ⟨[(0, 4, 4)], [], fun n => .vmin (fld n 24 2) (fld n 20 4) (fld n 15 5) (fld n 10 5) (fld n 7 3) (fld n 4 3)⟩,
    ⟨[(0, 4, 5)], [], fun n => .vmax (fld n 24 2) (fld n 20 4) (fld n 15 5) (fld n 10 5) (fld n 7 3) (fld n 4 3)⟩,
    ⟨[(0, 4, 6)], [], fun n => .vadds (fld n 24 2) (fld n 20 4) (fld n 15 5) (fld n 10 5) (fld n 7 3) (fld n 4 3)⟩,
    ⟨[(0, 4, 7)], [], fun n => .vsubs (fld n 24 2) (fld n 20 4) (fld n 15 5) (fld n 10 5) (fld n 7 3) (fld n 4 3)⟩,
    ⟨[(0, 4, 8)], [], fun n => .vabsd (fld n 24 2) (fld n 20 4) (fld n 15 5) (fld n 10 5) (fld n 7 3) (fld n 4 3)⟩,
    ⟨[(0, 4, 9)], [], fun n => .vand (fld n 24 2) (fld n 20 4) (fld n 15 5) (fld n 10 5) (fld n 7 3) (fld n 4 3)⟩,
    ⟨[(0, 4, 10)], [], fun n => .vor (fld n 24 2) (fld n 20 4) (fld n 15 5) (fld n 10 5) (fld n 7 3) (fld n 4 3)⟩,
    ⟨[(0, 4, 11)], [], fun n => .vxor (fld n 24 2) (fld n 20 4) (fld n 15 5) (fld n 10 5) (fld n 7 3) (fld n 4 3)⟩,
    ⟨[(0, 4, 12)], [], fun n => .vshl (fld n 24 2) (fld n 20 4) (fld n 15 5) (fld n 10 5) (fld n 7 3) (fld n 4 3)⟩,
    ⟨[(0, 4, 13)], [], fun n => .vshr (fld n 24 2) (fld n 20 4) (fld n 15 5) (fld n 10 5) (fld n 7 3) (fld n 4 3)⟩,
    ⟨[(0, 4, 14)], [], fun n => .vavg (fld n 24 2) (fld n 20 4) (fld n 15 5) (fld n 10 5) (fld n 7 3) (fld n 4 3)⟩,
    ⟨[(0, 4, 15)], [(10, 5, 0)], fun n => .vpopc (fld n 24 2) (fld n 20 4) (fld n 15 5) (fld n 7 3) (fld n 4 3)⟩ ]

/-- Slot 1, major 0x02. -/
def rows1_02 : List Row :=
  [ ⟨[(0, 4, 0)], [], fun n => .vfadd (fld n 24 2) (fld n 20 4) (fld n 15 5) (fld n 10 5) (fld n 7 3) (fld n 4 3)⟩,
    ⟨[(0, 4, 1)], [], fun n => .vfsub (fld n 24 2) (fld n 20 4) (fld n 15 5) (fld n 10 5) (fld n 7 3) (fld n 4 3)⟩,
    ⟨[(0, 4, 2)], [], fun n => .vfmul (fld n 24 2) (fld n 20 4) (fld n 15 5) (fld n 10 5) (fld n 7 3) (fld n 4 3)⟩,
    ⟨[(0, 4, 3)], [], fun n => .vfmin (fld n 24 2) (fld n 20 4) (fld n 15 5) (fld n 10 5) (fld n 7 3) (fld n 4 3)⟩,
    ⟨[(0, 4, 4)], [], fun n => .vfmax (fld n 24 2) (fld n 20 4) (fld n 15 5) (fld n 10 5) (fld n 7 3) (fld n 4 3)⟩,
    ⟨[(0, 4, 5)], [(10, 5, 0)], fun n => .vfabs (fld n 24 2) (fld n 20 4) (fld n 15 5) (fld n 7 3) (fld n 4 3)⟩,
    ⟨[(0, 4, 6)], [(10, 5, 0)], fun n => .vfneg (fld n 24 2) (fld n 20 4) (fld n 15 5) (fld n 7 3) (fld n 4 3)⟩,
    ⟨[(0, 4, 7)], [(10, 5, 0)], fun n => .vexp2 (fld n 24 2) (fld n 20 4) (fld n 15 5) (fld n 7 3) (fld n 4 3)⟩,
    ⟨[(0, 4, 8)], [(10, 5, 0)], fun n => .vlog2 (fld n 24 2) (fld n 20 4) (fld n 15 5) (fld n 7 3) (fld n 4 3)⟩,
    ⟨[(0, 4, 9)], [(10, 5, 0)], fun n => .vrcp (fld n 24 2) (fld n 20 4) (fld n 15 5) (fld n 7 3) (fld n 4 3)⟩,
    ⟨[(0, 4, 10)], [(10, 5, 0)], fun n => .vrsqrt (fld n 24 2) (fld n 20 4) (fld n 15 5) (fld n 7 3) (fld n 4 3)⟩,
    ⟨[(0, 4, 11)], [(10, 5, 0)], fun n => .vfrint (fld n 24 2) (fld n 20 4) (fld n 15 5) (fld n 7 3) (fld n 4 3)⟩ ]

/-- Slot 1, major 0x03. -/
def rows1_03 : List Row :=
  [ ⟨[], [], fun n => .vfma (fld n 24 2) (fld n 20 4) (fld n 15 5) (fld n 10 5) (fld n 5 5) (fld n 2 3) (fld n 0 2)⟩ ]

/-- Slot 1, major 0x04. -/
def rows1_04 : List Row :=
  [ ⟨[], [], fun n => .vfms (fld n 24 2) (fld n 20 4) (fld n 15 5) (fld n 10 5) (fld n 5 5) (fld n 2 3) (fld n 0 2)⟩ ]

/-- Slot 1, major 0x05. -/
def rows1_05 : List Row :=
  [ ⟨[], [], fun n => .vfnma (fld n 24 2) (fld n 20 4) (fld n 15 5) (fld n 10 5) (fld n 5 5) (fld n 2 3) (fld n 0 2)⟩ ]

/-- Slot 1, major 0x06. -/
def rows1_06 : List Row :=
  [ ⟨[(0, 4, 0)], [], fun n => .vaddScalar (fld n 24 2) (fld n 20 4) (fld n 15 5) (fld n 10 5) (fld n 7 3) (fld n 4 3)⟩,
    ⟨[(0, 4, 1)], [], fun n => .vsubScalar (fld n 24 2) (fld n 20 4) (fld n 15 5) (fld n 10 5) (fld n 7 3) (fld n 4 3)⟩,
    ⟨[(0, 4, 2)], [], fun n => .vmulScalar (fld n 24 2) (fld n 20 4) (fld n 15 5) (fld n 10 5) (fld n 7 3) (fld n 4 3)⟩,
    ⟨[(0, 4, 3)], [], fun n => .vmulhScalar (fld n 24 2) (fld n 20 4) (fld n 15 5) (fld n 10 5) (fld n 7 3) (fld n 4 3)⟩,
    ⟨[(0, 4, 4)], [], fun n => .vminScalar (fld n 24 2) (fld n 20 4) (fld n 15 5) (fld n 10 5) (fld n 7 3) (fld n 4 3)⟩,
    ⟨[(0, 4, 5)], [], fun n => .vmaxScalar (fld n 24 2) (fld n 20 4) (fld n 15 5) (fld n 10 5) (fld n 7 3) (fld n 4 3)⟩,
    ⟨[(0, 4, 6)], [], fun n => .vaddsScalar (fld n 24 2) (fld n 20 4) (fld n 15 5) (fld n 10 5) (fld n 7 3) (fld n 4 3)⟩,
    ⟨[(0, 4, 7)], [], fun n => .vsubsScalar (fld n 24 2) (fld n 20 4) (fld n 15 5) (fld n 10 5) (fld n 7 3) (fld n 4 3)⟩,
    ⟨[(0, 4, 8)], [], fun n => .vabsdScalar (fld n 24 2) (fld n 20 4) (fld n 15 5) (fld n 10 5) (fld n 7 3) (fld n 4 3)⟩,
    ⟨[(0, 4, 9)], [], fun n => .vandScalar (fld n 24 2) (fld n 20 4) (fld n 15 5) (fld n 10 5) (fld n 7 3) (fld n 4 3)⟩,
    ⟨[(0, 4, 10)], [], fun n => .vorScalar (fld n 24 2) (fld n 20 4) (fld n 15 5) (fld n 10 5) (fld n 7 3) (fld n 4 3)⟩,
    ⟨[(0, 4, 11)], [], fun n => .vxorScalar (fld n 24 2) (fld n 20 4) (fld n 15 5) (fld n 10 5) (fld n 7 3) (fld n 4 3)⟩,
    ⟨[(0, 4, 12)], [], fun n => .vshlScalar (fld n 24 2) (fld n 20 4) (fld n 15 5) (fld n 10 5) (fld n 7 3) (fld n 4 3)⟩,
    ⟨[(0, 4, 13)], [], fun n => .vshrScalar (fld n 24 2) (fld n 20 4) (fld n 15 5) (fld n 10 5) (fld n 7 3) (fld n 4 3)⟩,
    ⟨[(0, 4, 14)], [], fun n => .vavgScalar (fld n 24 2) (fld n 20 4) (fld n 15 5) (fld n 10 5) (fld n 7 3) (fld n 4 3)⟩ ]

/-- Slot 1, major 0x07. -/
def rows1_07 : List Row :=
  [ ⟨[(0, 4, 0)], [], fun n => .vfaddScalar (fld n 24 2) (fld n 20 4) (fld n 15 5) (fld n 10 5) (fld n 7 3) (fld n 4 3)⟩,
    ⟨[(0, 4, 1)], [], fun n => .vfsubScalar (fld n 24 2) (fld n 20 4) (fld n 15 5) (fld n 10 5) (fld n 7 3) (fld n 4 3)⟩,
    ⟨[(0, 4, 2)], [], fun n => .vfmulScalar (fld n 24 2) (fld n 20 4) (fld n 15 5) (fld n 10 5) (fld n 7 3) (fld n 4 3)⟩,
    ⟨[(0, 4, 3)], [], fun n => .vfminScalar (fld n 24 2) (fld n 20 4) (fld n 15 5) (fld n 10 5) (fld n 7 3) (fld n 4 3)⟩,
    ⟨[(0, 4, 4)], [], fun n => .vfmaxScalar (fld n 24 2) (fld n 20 4) (fld n 15 5) (fld n 10 5) (fld n 7 3) (fld n 4 3)⟩ ]

/-- Slot 1, major 0x08. -/
def rows1_08 : List Row :=
  [ ⟨[], [(20, 1, 0)], fun n => .vcmp (fld n 24 2) (fld n 21 3) (fld n 15 5) (fld n 10 5) (fld n 7 3) (fld n 4 3) (fld n 0 4)⟩ ]

/-- Slot 1, major 0x09. -/
def rows1_09 : List Row :=
  [ ⟨[], [(20, 1, 0)], fun n => .vfcmp (fld n 24 2) (fld n 21 3) (fld n 15 5) (fld n 10 5) (fld n 7 3) (fld n 4 3) (fld n 0 4)⟩ ]

/-- Slot 1, major 0x0A. -/
def rows1_0A : List Row :=
  [ ⟨[(0, 2, 0)], [(2, 13, 0)], fun n => .mand (fld n 24 2) (fld n 21 3) (fld n 18 3) (fld n 15 3)⟩,
    ⟨[(0, 2, 1)], [(2, 13, 0)], fun n => .mor (fld n 24 2) (fld n 21 3) (fld n 18 3) (fld n 15 3)⟩,
    ⟨[(0, 2, 2)], [(2, 13, 0)], fun n => .mxor (fld n 24 2) (fld n 21 3) (fld n 18 3) (fld n 15 3)⟩,
    ⟨[(0, 2, 3)], [(2, 13, 0)], fun n => .mandn (fld n 24 2) (fld n 21 3) (fld n 18 3) (fld n 15 3)⟩ ]

/-- Slot 1, major 0x0B. -/
def rows1_0B : List Row :=
  [ ⟨[], [(0, 7, 0)], fun n => .vsel (fld n 24 2) (fld n 20 4) (fld n 15 5) (fld n 10 5) (fld n 7 3)⟩ ]

/-- Slot 1, major 0x0C. -/
def rows1_0C : List Row :=
  [ ⟨[], [(1, 3, 0)], fun n => .vcvt (fld n 24 2) (fld n 20 4) (fld n 15 5) (fld n 11 4) (fld n 7 4) (fld n 4 3) (fld n 0 1)⟩ ]

/-- Slot 1, major 0x0D. -/
def rows1_0D : List Row :=
  [ ⟨[(0, 1, 1), (10, 5, 24)], [], fun n => .vde (fld n 24 2) (fld n 20 4) (fld n 15 5) (fld n 6 4) (fld n 1 5)⟩,
    ⟨[(0, 1, 0)], [], fun n => .ven (fld n 24 2) (fld n 20 4) (fld n 15 5) (fld n 10 5) (fld n 6 4) (fld n 1 5)⟩ ]

/-- Slot 1, major 0x0E. -/
def rows1_0E : List Row :=
  [ ⟨[(0, 4, 0)], [(10, 5, 0)], fun n => .vrsum (fld n 24 2) (fld n 20 4) (fld n 15 5) (fld n 7 3) (fld n 4 3)⟩,
    ⟨[(0, 4, 1)], [(10, 5, 0)], fun n => .vrmax (fld n 24 2) (fld n 20 4) (fld n 15 5) (fld n 7 3) (fld n 4 3)⟩,
    ⟨[(0, 4, 2)], [(10, 5, 0)], fun n => .vrmin (fld n 24 2) (fld n 20 4) (fld n 15 5) (fld n 7 3) (fld n 4 3)⟩,
    ⟨[(0, 4, 3)], [(10, 5, 0)], fun n => .vscan (fld n 24 2) (fld n 20 4) (fld n 15 5) (fld n 7 3) (fld n 4 3)⟩ ]

/-- Slot 1, major 0x0F. -/
def rows1_0F : List Row :=
  [ ⟨[(0, 7, 0)], [], fun n => .vperm (fld n 24 2) (fld n 20 4) (fld n 15 5) (fld n 10 5) (fld n 7 3)⟩,
    ⟨[(0, 7, 1)], [], fun n => .vrot (fld n 24 2) (fld n 20 4) (fld n 15 5) (fld n 10 5) (fld n 7 3)⟩,
    ⟨[(0, 7, 2)], [], fun n => .vbcl (fld n 24 2) (fld n 20 4) (fld n 15 5) (fld n 10 5) (fld n 7 3)⟩ ]

/-- Slot 1, major 0x10. -/
def rows1_10 : List Row :=
  [ ⟨[], [(0, 5, 0)], fun n => .vxcopy (fld n 24 2) (fld n 20 4) (fld n 15 5) (fld n 11 4) (fld n 8 3) (fld n 5 3)⟩ ]

/-- Slot 1, major 0x11. -/
def rows1_11 : List Row :=
  [ ⟨[], [], fun n => .vmovi (fld n 24 2) (fld n 20 4) (fld n 17 3) (fld n 0 17)⟩ ]

/-- Slot 1, major 0x12. -/
def rows1_12 : List Row :=
  [ ⟨[], [], fun n => .vmovh (fld n 24 2) (fld n 20 4) (fld n 17 3) (fld n 0 17)⟩ ]

/-- Slot 1, major 0x13. -/
def rows1_13 : List Row :=
  [ ⟨[(0, 3, 0)], [(20, 4, 0)], fun n => .vget (fld n 24 2) (fld n 15 5) (fld n 10 5) (fld n 3 7)⟩,
    ⟨[(0, 3, 1)], [], fun n => .vput (fld n 24 2) (fld n 20 4) (fld n 15 5) (fld n 10 5) (fld n 3 7)⟩,
    ⟨[(0, 3, 2)], [(3, 7, 0), (15, 5, 0)], fun n => .vbcg (fld n 24 2) (fld n 20 4) (fld n 10 5)⟩ ]

/-- Slot 2, major 0x01. -/
def rows2_01 : List Row :=
  [ ⟨[], [], fun n => .ld (fld n 24 2) (fld n 19 5) (fld n 14 5) (fld n 12 2) (fld n 11 1) (fld n 0 11)⟩ ]

/-- Slot 2, major 0x02. -/
def rows2_02 : List Row :=
  [ ⟨[], [(11, 1, 0)], fun n => .st (fld n 24 2) (fld n 19 5) (fld n 14 5) (fld n 12 2) (fld n 0 11)⟩ ]

/-- Slot 2, major 0x03. -/
def rows2_03 : List Row :=
  [ ⟨[], [], fun n => .vld (fld n 24 2) (fld n 20 4) (fld n 15 5) (fld n 0 15)⟩ ]

/-- Slot 2, major 0x04. -/
def rows2_04 : List Row :=
  [ ⟨[], [], fun n => .vst (fld n 24 2) (fld n 20 4) (fld n 15 5) (fld n 0 15)⟩ ]

/-- Slot 2, major 0x05. -/
def rows2_05 : List Row :=
  [ ⟨[(12, 2, 2)], [(11, 1, 0)], fun n => .ald (fld n 24 2) (fld n 19 5) (fld n 14 5) (fld n 0 11)⟩ ]

/-- Slot 2, major 0x06. -/
def rows2_06 : List Row :=
  [ ⟨[(12, 2, 2)], [(11, 1, 0)], fun n => .ast (fld n 24 2) (fld n 19 5) (fld n 14 5) (fld n 0 11)⟩ ]

/-- Slot 2, major 0x07. -/
def rows2_07 : List Row :=
  [ ⟨[(13, 2, 0)], [], fun n => .avld (fld n 24 2) (fld n 20 4) (fld n 15 5) (fld n 0 13)⟩ ]

/-- Slot 2, major 0x08. -/
def rows2_08 : List Row :=
  [ ⟨[], [], fun n => .avst (fld n 24 2) (fld n 20 4) (fld n 15 5) (fld n 13 2) (fld n 0 13)⟩ ]

/-- Slot 2, major 0x09. -/
def rows2_09 : List Row :=
  [ ⟨[], [(0, 5, 0)], fun n => .amo (fld n 24 2) (fld n 19 5) (fld n 14 5) (fld n 9 5) (fld n 5 4)⟩ ]

/-- Slot 2, major 0x0A. -/
def rows2_0A : List Row :=
  [ ⟨[], [], fun n => .wld (fld n 24 2) (fld n 20 4) (fld n 15 5) (fld n 0 15)⟩ ]

/-- Slot 2, major 0x0B. -/
def rows2_0B : List Row :=
  [ ⟨[], [], fun n => .wst (fld n 24 2) (fld n 20 4) (fld n 15 5) (fld n 0 15)⟩ ]

/-- Slot 2, major 0x0C. -/
def rows2_0C : List Row :=
  [ ⟨[(20, 1, 0)], [], fun n => .fcfg (fld n 24 2) (fld n 21 3) (fld n 15 5) (fld n 0 15)⟩,
    ⟨[(20, 1, 1)], [], fun n => .fcfgRb (fld n 24 2) (fld n 21 3) (fld n 15 5) (fld n 0 15)⟩ ]

/-- Slot 2, major 0x0D. -/
def rows2_0D : List Row :=
  [ ⟨[], [(20, 2, 0)], fun n => .ocfg (fld n 24 2) (fld n 22 2) (fld n 15 5) (fld n 0 15)⟩ ]

/-- Slot 2, major 0x0E. -/
def rows2_0E : List Row :=
  [ ⟨[], [(0, 15, 0), (20, 2, 0)], fun n => .opush (fld n 24 2) (fld n 22 2) (fld n 15 5)⟩ ]

/-- Slot 2, major 0x0F. -/
def rows2_0F : List Row :=
  [ ⟨[(12, 1, 0)], [(0, 12, 0)], fun n => .popq (fld n 24 2) (fld n 20 4) (fld n 15 5) (fld n 13 2)⟩,
    ⟨[(12, 1, 1)], [(0, 9, 0)], fun n => .popqFlag (fld n 24 2) (fld n 20 4) (fld n 15 5) (fld n 13 2) (fld n 9 3)⟩ ]

/-- Slot 2, major 0x10. -/
def rows2_10 : List Row :=
  [ ⟨[], [(0, 5, 0), (10, 1, 0)], fun n => .rst (fld n 24 2) (fld n 21 3) (fld n 16 5) (fld n 11 5) (fld n 7 3) (fld n 5 2)⟩ ]

/-- Slot 2, major 0x11. -/
def rows2_11 : List Row :=
  [ ⟨[], [(0, 4, 0)], fun n => .radd (fld n 24 2) (fld n 21 3) (fld n 16 5) (fld n 11 5) (fld n 10 1) (fld n 7 3) (fld n 5 2) (fld n 4 1)⟩ ]

/-- Slot 2, major 0x12. -/
def rows2_12 : List Row :=
  [ ⟨[], [], fun n => .rget (fld n 24 2) (fld n 21 3) (fld n 16 5) (fld n 11 5) (fld n 8 3) (fld n 6 2) (fld n 0 6)⟩ ]

/-- Slot 2, major 0x13. -/
def rows2_13 : List Row :=
  [ ⟨[], [(0, 2, 0)], fun n => .ramo (fld n 24 2) (fld n 21 3) (fld n 16 5) (fld n 11 5) (fld n 8 3) (fld n 6 2) (fld n 2 4)⟩ ]

/-- Slot 2, major 0x14. -/
def rows2_14 : List Row :=
  [ ⟨[], [(0, 21, 0)], fun n => .drain (fld n 24 2) (fld n 21 3)⟩ ]

/-- Slot 2, major 0x15. -/
def rows2_15 : List Row :=
  [ ⟨[], [(0, 21, 0)], fun n => .fence (fld n 24 2) (fld n 21 3)⟩ ]

/-- Slot 2, major 0x16. -/
def rows2_16 : List Row :=
  [ ⟨[], [(0, 2, 0)], fun n => .chsend (fld n 24 2) (fld n 12 12) (fld n 7 5) (fld n 5 2) (fld n 2 3)⟩ ]

/-- Slot 2, major 0x17. -/
def rows2_17 : List Row :=
  [ ⟨[(7, 1, 0)], [(0, 7, 0)], fun n => .chrecv (fld n 24 2) (fld n 12 12) (fld n 8 4)⟩,
    ⟨[(7, 1, 1)], [(0, 4, 0)], fun n => .chrecvFlag (fld n 24 2) (fld n 12 12) (fld n 8 4) (fld n 4 3)⟩ ]

/-- Slot 2, major 0x18. -/
def rows2_18 : List Row :=
  [ ⟨[], [(0, 3, 0)], fun n => .hmsg (fld n 24 2) (fld n 21 3) (fld n 16 5) (fld n 11 5) (fld n 3 8)⟩ ]

/-- Slot 2, major 0x19. -/
def rows2_19 : List Row :=
  [ ⟨[], [(0, 14, 0)], fun n => .hset (fld n 24 2) (fld n 21 3) (fld n 19 2) (fld n 14 5)⟩ ]

/-- Slot 2, major 0x1A. -/
def rows2_1A : List Row :=
  [ ⟨[], [(0, 14, 0)], fun n => .hget (fld n 24 2) (fld n 19 5) (fld n 16 3) (fld n 14 2)⟩ ]

/-- Slot 2, major 0x1B. -/
def rows2_1B : List Row :=
  [ ⟨[], [(0, 14, 0), (19, 2, 0)], fun n => .hadd (fld n 24 2) (fld n 21 3) (fld n 14 5)⟩ ]

/-- Slot 2, major 0x1C. -/
def rows2_1C : List Row :=
  [ ⟨[], [(0, 14, 0)], fun n => .parset (fld n 24 2) (fld n 21 3) (fld n 19 2) (fld n 14 5)⟩ ]

/-- Slot 2, major 0x1D. -/
def rows2_1D : List Row :=
  [ ⟨[], [(0, 14, 0)], fun n => .parget (fld n 24 2) (fld n 19 5) (fld n 16 3) (fld n 14 2)⟩ ]

/-- Slot 3, major 0x01. -/
def rows3_01 : List Row :=
  [ ⟨[], [(0, 12, 0)], fun n => .mcall (fld n 24 2) (fld n 21 3) (fld n 19 2) (fld n 12 7)⟩ ]

/-- Slot 3, major 0x02. -/
def rows3_02 : List Row :=
  [ ⟨[(16, 3, 0)], [(0, 11, 0)], fun n => .rowrunSmax (fld n 24 2) (fld n 21 3) (fld n 19 2) (fld n 11 5)⟩,
    ⟨[(16, 3, 1)], [(0, 11, 0)], fun n => .rowrunNorm (fld n 24 2) (fld n 21 3) (fld n 19 2) (fld n 11 5)⟩ ]

/-- Slot 3, major 0x03. -/
def rows3_03 : List Row :=
  [ ⟨[], [(0, 14, 0)], fun n => .cpy (fld n 24 2) (fld n 21 3) (fld n 19 2) (fld n 14 5)⟩ ]

/-- Slot 3, major 0x04. -/
def rows3_04 : List Row :=
  [ ⟨[], [(0, 14, 0)], fun n => .cpyx (fld n 24 2) (fld n 21 3) (fld n 19 2) (fld n 14 5)⟩ ]

/-- Slot 3, major 0x05. -/
def rows3_05 : List Row :=
  [ ⟨[], [(0, 14, 0)], fun n => .cpyf (fld n 24 2) (fld n 21 3) (fld n 19 2) (fld n 14 5)⟩ ]

/-- Slot 3, major 0x06. -/
def rows3_06 : List Row :=
  [ ⟨[], [(0, 14, 0), (19, 2, 0)], fun n => .dset (fld n 24 2) (fld n 21 3) (fld n 14 5)⟩ ]

/-- Slot 3, major 0x07. -/
def rows3_07 : List Row :=
  [ ⟨[], [(0, 14, 0), (19, 2, 0)], fun n => .dget (fld n 24 2) (fld n 21 3) (fld n 14 5)⟩ ]

/-- Slot 3, major 0x08. -/
def rows3_08 : List Row :=
  [ ⟨[], [(0, 22, 0)], fun n => .ecancel (fld n 24 2) (fld n 22 2)⟩ ]

/-- Slot 3, major 0x09. -/
def rows3_09 : List Row :=
  [ ⟨[], [(0, 14, 0), (19, 3, 0)], fun n => .excset (fld n 24 2) (fld n 22 2) (fld n 14 5)⟩ ]

/-- Slot 3, major 0x0A. -/
def rows3_0A : List Row :=
  [ ⟨[], [(0, 14, 0), (19, 3, 0)], fun n => .excget (fld n 24 2) (fld n 22 2) (fld n 14 5)⟩ ]

/-- Slot 3, major 0x0B. -/
def rows3_0B : List Row :=
  [ ⟨[], [(0, 14, 0), (19, 3, 0)], fun n => .eqstat (fld n 24 2) (fld n 22 2) (fld n 14 5)⟩ ]

/-- The rows of slot 0 by major opcode. -/
def rowsOf0 (major : Nat) : List Row :=
  match major with
  | 1 => rows0_01
  | 2 => rows0_02
  | 3 => rows0_03
  | 4 => rows0_04
  | 5 => rows0_05
  | 6 => rows0_06
  | 7 => rows0_07
  | 8 => rows0_08
  | 9 => rows0_09
  | 10 => rows0_0A
  | 11 => rows0_0B
  | 12 => rows0_0C
  | 13 => rows0_0D
  | 14 => rows0_0E
  | 15 => rows0_0F
  | 16 => rows0_10
  | 17 => rows0_11
  | 18 => rows0_12
  | 19 => rows0_13
  | 20 => rows0_14
  | 21 => rows0_15
  | 22 => rows0_16
  | 23 => rows0_17
  | 24 => rows0_18
  | 25 => rows0_19
  | 26 => rows0_1A
  | 27 => rows0_1B
  | 28 => rows0_1C
  | 29 => rows0_1D
  | 30 => rows0_1E
  | 32 => rows0_20
  | 33 => rows0_21
  | 34 => rows0_22
  | 35 => rows0_23
  | 36 => rows0_24
  | 37 => rows0_25
  | 38 => rows0_26
  | 39 => rows0_27
  | 40 => rows0_28
  | 41 => rows0_29
  | 42 => rows0_2A
  | 43 => rows0_2B
  | 44 => rows0_2C
  | 45 => rows0_2D
  | _ => []

/-- The rows of slot 1 by major opcode. -/
def rowsOf1 (major : Nat) : List Row :=
  match major with
  | 1 => rows1_01
  | 2 => rows1_02
  | 3 => rows1_03
  | 4 => rows1_04
  | 5 => rows1_05
  | 6 => rows1_06
  | 7 => rows1_07
  | 8 => rows1_08
  | 9 => rows1_09
  | 10 => rows1_0A
  | 11 => rows1_0B
  | 12 => rows1_0C
  | 13 => rows1_0D
  | 14 => rows1_0E
  | 15 => rows1_0F
  | 16 => rows1_10
  | 17 => rows1_11
  | 18 => rows1_12
  | 19 => rows1_13
  | _ => []

/-- The rows of slot 2 by major opcode. -/
def rowsOf2 (major : Nat) : List Row :=
  match major with
  | 1 => rows2_01
  | 2 => rows2_02
  | 3 => rows2_03
  | 4 => rows2_04
  | 5 => rows2_05
  | 6 => rows2_06
  | 7 => rows2_07
  | 8 => rows2_08
  | 9 => rows2_09
  | 10 => rows2_0A
  | 11 => rows2_0B
  | 12 => rows2_0C
  | 13 => rows2_0D
  | 14 => rows2_0E
  | 15 => rows2_0F
  | 16 => rows2_10
  | 17 => rows2_11
  | 18 => rows2_12
  | 19 => rows2_13
  | 20 => rows2_14
  | 21 => rows2_15
  | 22 => rows2_16
  | 23 => rows2_17
  | 24 => rows2_18
  | 25 => rows2_19
  | 26 => rows2_1A
  | 27 => rows2_1B
  | 28 => rows2_1C
  | 29 => rows2_1D
  | _ => []

/-- The rows of slot 3 by major opcode. -/
def rowsOf3 (major : Nat) : List Row :=
  match major with
  | 1 => rows3_01
  | 2 => rows3_02
  | 3 => rows3_03
  | 4 => rows3_04
  | 5 => rows3_05
  | 6 => rows3_06
  | 7 => rows3_07
  | 8 => rows3_08
  | 9 => rows3_09
  | 10 => rows3_0A
  | 11 => rows3_0B
  | _ => []

/-- The rows of a slot and a major opcode. -/
def rowsOf (slot : Fin 4) (major : Nat) : List Row :=
  match slot with
  | 0 => rowsOf0 major
  | 1 => rowsOf1 major
  | 2 => rowsOf2 major
  | 3 => rowsOf3 major

/-- The first row whose code bits the word holds. -/
def pickRow (n : Nat) : List Row → Option Row
  | [] => none
  | r :: rs => if r.code.all (bitsAre n) then some r else pickRow n rs

/-- The instruction of row r in word n, or the KIND of the first condition of R77 that it meets. -/
def Row.read (r : Row) (n : Nat) : Except Nat Instr :=
  if !(r.inst n).codesOk then .error 1
  else if !(r.inst n).sourcesOk then .error 2
  else if !(r.zero.all (bitsAre n)) || !(r.inst n).zerosOk then .error 3
  else if !(r.inst n).limitsOk then .error 5
  else .ok (r.inst n)

/-- The instruction that the decoder reads from a word in a slot; a header only in slot 0 (R65); the KIND of a reserved
encoding (R77, Table 3-10). -/
def decodeSlot (slot : Fin 4) (w : BitVec 32) : Except Nat Instr :=
  let n := w.toNat
  if n = 0 then .ok .nop
  else if slot = 0 ∧ n / 2 ^ 27 = 31 then
    .ok (.header (fld n 26 1) (fld n 21 5) (fld n 20 1) (fld n 15 5) (fld n 12 3) (fld n 9 3) (fld n 0 9))
  else
    match rowsOf slot (n / 2 ^ 26) with
    | [] => .error 0
    | r :: rs => match pickRow n (r :: rs) with
      | none => .error 1
      | some row => row.read n

/-- As decodeSlot, a reserved encoding as the instruction that R78 makes of it. -/
def decodeWord (slot : Fin 4) (w : BitVec 32) : Instr :=
  match decodeSlot slot w with
  | .ok i => i
  | .error k => .reservedEncoding slot w (BitVec.ofNat 5 k)

/-- The word of slot k of a bundle (R61). -/
def slotWord (b : Bundle) (k : Fin 4) : BitVec 32 := b.extractLsb' (32 * k.val) 32

/-- The long-immediate forms (R68). -/
def Instr.longImm : Instr → Bool
  | .vmovi .. => true | .vmovh .. => true | .wld .. => true | .wst .. => true | _ => false

/-- Whether the bundle has a header. -/
def hasHeader (b : Bundle) : Bool := (slotWord b 0).toNat / 2 ^ 27 == 31

/-- The four instructions of a bundle; two long-immediate forms beside a header are both reserved with KIND 4 (R68, R77). -/
def decodeBundle (b : Bundle) : List Instr :=
  let i1 := decodeWord 1 (slotWord b 1)
  let i2 := decodeWord 2 (slotWord b 2)
  let clash := hasHeader b && i1.longImm && i2.longImm
  [decodeWord 0 (slotWord b 0),
   if clash then .reservedEncoding 1 (slotWord b 1) 4 else i1,
   if clash then .reservedEncoding 2 (slotWord b 2) 4 else i2,
   decodeWord 3 (slotWord b 3)]

/-- The word of an instruction of slot 0 (Tables 3-3 to 3-9). -/
def encode0 : Instr → Option Nat
  | .header w s x t r i l => some (0xf8000000 + w.toNat * 67108864 + s.toNat * 2097152 + x.toNat * 1048576 + t.toNat * 32768 + r.toNat * 4096 + i.toNat * 512 + l.toNat * 1)
  | .add p d a b => some (0x4000000 + p.toNat * 16777216 + d.toNat * 524288 + a.toNat * 16384 + b.toNat * 512)
  | .sub p d a b => some (0x4000001 + p.toNat * 16777216 + d.toNat * 524288 + a.toNat * 16384 + b.toNat * 512)
  | .and p d a b => some (0x4000002 + p.toNat * 16777216 + d.toNat * 524288 + a.toNat * 16384 + b.toNat * 512)
  | .or p d a b => some (0x4000003 + p.toNat * 16777216 + d.toNat * 524288 + a.toNat * 16384 + b.toNat * 512)
  | .xor p d a b => some (0x4000004 + p.toNat * 16777216 + d.toNat * 524288 + a.toNat * 16384 + b.toNat * 512)
  | .andn p d a b => some (0x4000005 + p.toNat * 16777216 + d.toNat * 524288 + a.toNat * 16384 + b.toNat * 512)
  | .shl p d a b => some (0x4000006 + p.toNat * 16777216 + d.toNat * 524288 + a.toNat * 16384 + b.toNat * 512)
  | .shr p d a b => some (0x4000007 + p.toNat * 16777216 + d.toNat * 524288 + a.toNat * 16384 + b.toNat * 512)
  | .sar p d a b => some (0x4000008 + p.toNat * 16777216 + d.toNat * 524288 + a.toNat * 16384 + b.toNat * 512)
  | .rol p d a b => some (0x4000009 + p.toNat * 16777216 + d.toNat * 524288 + a.toNat * 16384 + b.toNat * 512)
  | .min p d a b => some (0x400000a + p.toNat * 16777216 + d.toNat * 524288 + a.toNat * 16384 + b.toNat * 512)
  | .max p d a b => some (0x400000b + p.toNat * 16777216 + d.toNat * 524288 + a.toNat * 16384 + b.toNat * 512)
  | .minu p d a b => some (0x400000c + p.toNat * 16777216 + d.toNat * 524288 + a.toNat * 16384 + b.toNat * 512)
  | .maxu p d a b => some (0x400000d + p.toNat * 16777216 + d.toNat * 524288 + a.toNat * 16384 + b.toNat * 512)
  | .mul p d a b => some (0x400000e + p.toNat * 16777216 + d.toNat * 524288 + a.toNat * 16384 + b.toNat * 512)
  | .mulh p d a b => some (0x400000f + p.toNat * 16777216 + d.toNat * 524288 + a.toNat * 16384 + b.toNat * 512)
  | .mulhu p d a b => some (0x4000010 + p.toNat * 16777216 + d.toNat * 524288 + a.toNat * 16384 + b.toNat * 512)
  | .div p d a b => some (0x4000011 + p.toNat * 16777216 + d.toNat * 524288 + a.toNat * 16384 + b.toNat * 512)
  | .divu p d a b => some (0x4000012 + p.toNat * 16777216 + d.toNat * 524288 + a.toNat * 16384 + b.toNat * 512)
  | .rem p d a b => some (0x4000013 + p.toNat * 16777216 + d.toNat * 524288 + a.toNat * 16384 + b.toNat * 512)
  | .remu p d a b => some (0x4000014 + p.toNat * 16777216 + d.toNat * 524288 + a.toNat * 16384 + b.toNat * 512)
  | .adds p d a b => some (0x4000015 + p.toNat * 16777216 + d.toNat * 524288 + a.toNat * 16384 + b.toNat * 512)
  | .subs p d a b => some (0x4000016 + p.toNat * 16777216 + d.toNat * 524288 + a.toNat * 16384 + b.toNat * 512)
  | .clz p d a => some (0x4000017 + p.toNat * 16777216 + d.toNat * 524288 + a.toNat * 16384)
  | .ctz p d a => some (0x4000018 + p.toNat * 16777216 + d.toNat * 524288 + a.toNat * 16384)
  | .popc p d a => some (0x4000019 + p.toNat * 16777216 + d.toNat * 524288 + a.toNat * 16384)
  | .brev p d a => some (0x400001a + p.toNat * 16777216 + d.toNat * 524288 + a.toNat * 16384)
  | .bswap p d a => some (0x400001b + p.toNat * 16777216 + d.toNat * 524288 + a.toNat * 16384)
  | .addi p d a i => some (0x8000000 + p.toNat * 16777216 + d.toNat * 524288 + a.toNat * 16384 + i.toNat * 1)
  | .andi p d a i => some (0xc000000 + p.toNat * 16777216 + d.toNat * 524288 + a.toNat * 16384 + i.toNat * 1)
  | .ori p d a i => some (0x10000000 + p.toNat * 16777216 + d.toNat * 524288 + a.toNat * 16384 + i.toNat * 1)
  | .xori p d a i => some (0x14000000 + p.toNat * 16777216 + d.toNat * 524288 + a.toNat * 16384 + i.toNat * 1)
  | .shli p d a s => some (0x18000000 + p.toNat * 16777216 + d.toNat * 524288 + a.toNat * 16384 + s.toNat * 1)
  | .shri p d a s => some (0x1c000000 + p.toNat * 16777216 + d.toNat * 524288 + a.toNat * 16384 + s.toNat * 1)
  | .sari p d a s => some (0x20000000 + p.toNat * 16777216 + d.toNat * 524288 + a.toNat * 16384 + s.toNat * 1)
  | .muli p d a i => some (0x24000000 + p.toNat * 16777216 + d.toNat * 524288 + a.toNat * 16384 + i.toNat * 1)
  | .movi p d i => some (0x28000000 + p.toNat * 16777216 + d.toNat * 524288 + i.toNat * 1)
  | .movhi p d i => some (0x2c000000 + p.toNat * 16777216 + d.toNat * 524288 + i.toNat * 1)
  | .leab p d i => some (0x30000000 + p.toNat * 16777216 + d.toNat * 524288 + i.toNat * 1)
  | .bfx p d a l s => some (0x34000000 + p.toNat * 16777216 + d.toNat * 524288 + a.toNat * 16384 + l.toNat * 32 + s.toNat * 1)
  | .bfxu p d a l s => some (0x38000000 + p.toNat * 16777216 + d.toNat * 524288 + a.toNat * 16384 + l.toNat * 32 + s.toNat * 1)
  | .bfi p d a l s => some (0x3c000000 + p.toNat * 16777216 + d.toNat * 524288 + a.toNat * 16384 + l.toNat * 32 + s.toNat * 1)
  | .setp p d c a b k => some (0x40000000 + p.toNat * 16777216 + d.toNat * 2097152 + c.toNat * 524288 + a.toNat * 16384 + b.toNat * 512 + k.toNat * 32)
  | .setpi p d c a k i => some (0x44000000 + p.toNat * 16777216 + d.toNat * 2097152 + c.toNat * 524288 + a.toNat * 16384 + k.toNat * 1024 + i.toNat * 1)
  | .pand p d a b x y => some (0x48000000 + p.toNat * 16777216 + d.toNat * 2097152 + a.toNat * 262144 + b.toNat * 32768 + x.toNat * 16384 + y.toNat * 8192)
  | .por p d a b x y => some (0x48000001 + p.toNat * 16777216 + d.toNat * 2097152 + a.toNat * 262144 + b.toNat * 32768 + x.toNat * 16384 + y.toNat * 8192)
  | .pxor p d a b x y => some (0x48000002 + p.toNat * 16777216 + d.toNat * 2097152 + a.toNat * 262144 + b.toNat * 32768 + x.toNat * 16384 + y.toNat * 8192)
  | .sel p d a b c v => some (0x4c000000 + p.toNat * 16777216 + d.toNat * 524288 + a.toNat * 16384 + b.toNat * 512 + c.toNat * 64 + v.toNat * 32)
  | .br p v c o => some (0x50000000 + p.toNat * 16777216 + v.toNat * 8388608 + c.toNat * 1048576 + o.toNat * 1)
  | .brr p v c a => some (0x54000000 + p.toNat * 16777216 + v.toNat * 8388608 + c.toNat * 1048576 + a.toNat * 32768)
  | .call p v c o => some (0x58000000 + p.toNat * 16777216 + v.toNat * 8388608 + c.toNat * 1048576 + o.toNat * 1)
  | .callr p v c a => some (0x5c000000 + p.toNat * 16777216 + v.toNat * 8388608 + c.toNat * 1048576 + a.toNat * 32768)
  | .ret p v c => some (0x60000000 + p.toNat * 16777216 + v.toNat * 8388608 + c.toNat * 1048576)
  | .loop p l a n => some (0x64000000 + p.toNat * 16777216 + l.toNat * 4194304 + a.toNat * 16384 + n.toNat * 1)
  | .loopi p l c n => some (0x68000000 + p.toNat * 16777216 + l.toNat * 4194304 + c.toNat * 1024 + n.toNat * 1)
  | .wait p s n => some (0x6c000000 + p.toNat * 16777216 + s.toNat * 524288 + n.toNat * 8)
  | .sig p s n => some (0x70000000 + p.toNat * 16777216 + s.toNat * 524288 + n.toNat * 8)
  | .movs p d s => some (0x74000000 + p.toNat * 16777216 + d.toNat * 524288 + s.toNat * 512)
  | .smov p a s => some (0x78000000 + p.toNat * 16777216 + a.toNat * 524288 + s.toNat * 512)
  | .park p => some (0x80000000 + p.toNat * 16777216)
  | .yield p n => some (0x80000001 + p.toNat * 16777216 + n.toNat * 4)
  | .arm p n => some (0x80000002 + p.toNat * 16777216 + n.toNat * 4)
  | .sprio p n => some (0x80000003 + p.toNat * 16777216 + n.toNat * 4)
  | .cstart p d a n => some (0x84000000 + p.toNat * 16777216 + d.toNat * 524288 + a.toNat * 16384 + n.toNat * 4)
  | .cstop p d n => some (0x84000001 + p.toNat * 16777216 + d.toNat * 524288 + n.toNat * 4)
  | .ckill p d n => some (0x84000002 + p.toNat * 16777216 + d.toNat * 524288 + n.toNat * 4)
  | .trap p n => some (0x88000000 + p.toNat * 16777216 + n.toNat * 4)
  | .rett p => some (0x88000001 + p.toNat * 16777216)
  | .ctopen p o => some (0x88000002 + p.toNat * 16777216 + o.toNat * 4)
  | .ctclose p => some (0x88000003 + p.toNat * 16777216)
  | .segchk p i => some (0x8c000000 + p.toNat * 16777216 + i.toNat * 4)
  | .acrange p a n => some (0x90000000 + p.toNat * 16777216 + a.toNat * 16384 + n.toNat * 4)
  | .acread p d a => some (0x90000001 + p.toNat * 16777216 + d.toNat * 524288 + a.toNat * 16384)
  | .acreadSnap p d => some (0x90001001 + p.toNat * 16777216 + d.toNat * 524288)
  | .acreadEl p d h => some (0x90002001 + p.toNat * 16777216 + d.toNat * 524288 + h.toNat * 4)
  | .acloop p d c t k s => some (0x90000002 + p.toNat * 16777216 + d.toNat * 524288 + c.toNat * 128 + t.toNat * 64 + k.toNat * 16 + s.toNat * 4)
  | .acclr p => some (0x90000003 + p.toNat * 16777216)
  | .launch p d a q => some (0x94000000 + p.toNat * 16777216 + d.toNat * 524288 + a.toNat * 16384 + q.toNat * 4)
  | .qstat p d q => some (0x94000001 + p.toNat * 16777216 + d.toNat * 524288 + q.toNat * 4)
  | .qstatLs p d n => some (0x94002001 + p.toNat * 16777216 + d.toNat * 524288 + n.toNat * 4)
  | .qprio p d e n => some (0x94000002 + p.toNat * 16777216 + d.toNat * 524288 + e.toNat * 16 + n.toNat * 4)
  | .qcancel p d q => some (0x94000003 + p.toNat * 16777216 + d.toNat * 524288 + q.toNat * 4)
  | .bankrel p a => some (0x98000000 + p.toNat * 16777216 + a.toNat * 16384)
  | .bankrelAcc p a h => some (0x98002000 + p.toNat * 16777216 + a.toNat * 16384 + h.toNat * 4)
  | .banktst p d s => some (0x98000001 + p.toNat * 16777216 + d.toNat * 524288 + s.toNat * 4)
  | .kend p => some (0x98000002 + p.toNat * 16777216)
  | .kseq p d s => some (0x98000003 + p.toNat * 16777216 + d.toNat * 524288 + s.toNat * 4)
  | .kseqQueue p d a s => some (0x98000003 + p.toNat * 16777216 + d.toNat * 524288 + a.toNat * 16384 + s.toNat * 4)
  | .gid p d n => some (0x9c000000 + p.toNat * 16777216 + d.toNat * 524288 + n.toNat * 4)
  | .gidReg p d a => some (0x9c000020 + p.toNat * 16777216 + d.toNat * 524288 + a.toNat * 16384)
  | .gdim p d n => some (0x9c000001 + p.toNat * 16777216 + d.toNat * 524288 + n.toNat * 4)
  | .gdimReg p d a => some (0x9c000021 + p.toNat * 16777216 + d.toNat * 524288 + a.toNat * 16384)
  | .gbase p d n => some (0x9c000002 + p.toNat * 16777216 + d.toNat * 524288 + n.toNat * 4)
  | .gbaseReg p d a => some (0x9c000022 + p.toNat * 16777216 + d.toNat * 524288 + a.toNat * 16384)
  | .gslice p d s => some (0x9c000003 + p.toNat * 16777216 + d.toNat * 524288 + s.toNat * 4)
  | .gsliceWait p a => some (0x9c00000b + p.toNat * 16777216 + a.toNat * 16384)
  | .barinit p a l n => some (0xa0000000 + p.toNat * 16777216 + a.toNat * 16384 + l.toNat * 256 + n.toNat * 4)
  | .bararv p d n => some (0xa0000001 + p.toNat * 16777216 + d.toNat * 524288 + n.toNat * 4)
  | .bardrop p d n => some (0xa0000002 + p.toNat * 16777216 + d.toNat * 524288 + n.toNat * 4)
  | .barwait p n => some (0xa0000003 + p.toNat * 16777216 + n.toNat * 4)
  | .bartst p d n => some (0xa4000000 + p.toNat * 16777216 + d.toNat * 524288 + n.toNat * 4)
  | .bartstView p d n => some (0xa4000100 + p.toNat * 16777216 + d.toNat * 524288 + n.toNat * 4)
  | .colset p a c f => some (0xa4000001 + p.toNat * 16777216 + a.toNat * 16384 + c.toNat * 256 + f.toNat * 4)
  | .colget p d s => some (0xa4000002 + p.toNat * 16777216 + d.toNat * 524288 + s.toNat * 4)
  | .chopen p c => some (0xa8000000 + p.toNat * 16777216 + c.toNat * 4)
  | .chclose p c => some (0xa8000001 + p.toNat * 16777216 + c.toNat * 4)
  | .chstat p d c => some (0xa8000002 + p.toNat * 16777216 + d.toNat * 524288 + c.toNat * 4)
  | .chwin p d c => some (0xa8000003 + p.toNat * 16777216 + d.toNat * 524288 + c.toNat * 4)
  | .pgprobe p d a n => some (0xac000000 + p.toNat * 16777216 + d.toNat * 524288 + a.toNat * 16384 + n.toNat * 4)
  | .pginv p a n => some (0xac000001 + p.toNat * 16777216 + a.toNat * 16384 + n.toNat * 4)
  | .pginvAll p => some (0xac000021 + p.toNat * 16777216)
  | .pgtouch p d a w n => some (0xac000002 + p.toNat * 16777216 + d.toNat * 524288 + a.toNat * 16384 + w.toNat * 32 + n.toNat * 4)
  | .lkstat p d a w => some (0xb0000000 + p.toNat * 16777216 + d.toNat * 524288 + a.toNat * 16384 + w.toNat * 4)
  | .lkpark p d a m => some (0xb0000001 + p.toNat * 16777216 + d.toNat * 524288 + a.toNat * 16384 + m.toNat * 4)
  | .lkwake p d a m => some (0xb0000002 + p.toNat * 16777216 + d.toNat * 524288 + a.toNat * 16384 + m.toNat * 4)
  | .lkstamp p d a s => some (0xb0000003 + p.toNat * 16777216 + d.toNat * 524288 + a.toNat * 16384 + s.toNat * 4)
  | .brk p n => some (0xb4000000 + p.toNat * 16777216 + n.toNat * 4)
  | .dbgmark p a n => some (0xb4000001 + p.toNat * 16777216 + a.toNat * 16384 + n.toNat * 4)
  | .trcon p => some (0xb4000002 + p.toNat * 16777216)
  | .trcoff p => some (0xb4000003 + p.toNat * 16777216)
  | _ => none

/-- The word of an instruction of slot 1 (Tables 3-3 to 3-9). -/
def encode1 : Instr → Option Nat
  | .vadd p d a b m t => some (0x4000000 + p.toNat * 16777216 + d.toNat * 1048576 + a.toNat * 32768 + b.toNat * 1024 + m.toNat * 128 + t.toNat * 16)
  | .vsub p d a b m t => some (0x4000001 + p.toNat * 16777216 + d.toNat * 1048576 + a.toNat * 32768 + b.toNat * 1024 + m.toNat * 128 + t.toNat * 16)
  | .vmul p d a b m t => some (0x4000002 + p.toNat * 16777216 + d.toNat * 1048576 + a.toNat * 32768 + b.toNat * 1024 + m.toNat * 128 + t.toNat * 16)
  | .vmulh p d a b m t => some (0x4000003 + p.toNat * 16777216 + d.toNat * 1048576 + a.toNat * 32768 + b.toNat * 1024 + m.toNat * 128 + t.toNat * 16)
  | .vmin p d a b m t => some (0x4000004 + p.toNat * 16777216 + d.toNat * 1048576 + a.toNat * 32768 + b.toNat * 1024 + m.toNat * 128 + t.toNat * 16)
  | .vmax p d a b m t => some (0x4000005 + p.toNat * 16777216 + d.toNat * 1048576 + a.toNat * 32768 + b.toNat * 1024 + m.toNat * 128 + t.toNat * 16)
  | .vadds p d a b m t => some (0x4000006 + p.toNat * 16777216 + d.toNat * 1048576 + a.toNat * 32768 + b.toNat * 1024 + m.toNat * 128 + t.toNat * 16)
  | .vsubs p d a b m t => some (0x4000007 + p.toNat * 16777216 + d.toNat * 1048576 + a.toNat * 32768 + b.toNat * 1024 + m.toNat * 128 + t.toNat * 16)
  | .vabsd p d a b m t => some (0x4000008 + p.toNat * 16777216 + d.toNat * 1048576 + a.toNat * 32768 + b.toNat * 1024 + m.toNat * 128 + t.toNat * 16)
  | .vand p d a b m t => some (0x4000009 + p.toNat * 16777216 + d.toNat * 1048576 + a.toNat * 32768 + b.toNat * 1024 + m.toNat * 128 + t.toNat * 16)
  | .vor p d a b m t => some (0x400000a + p.toNat * 16777216 + d.toNat * 1048576 + a.toNat * 32768 + b.toNat * 1024 + m.toNat * 128 + t.toNat * 16)
  | .vxor p d a b m t => some (0x400000b + p.toNat * 16777216 + d.toNat * 1048576 + a.toNat * 32768 + b.toNat * 1024 + m.toNat * 128 + t.toNat * 16)
  | .vshl p d a b m t => some (0x400000c + p.toNat * 16777216 + d.toNat * 1048576 + a.toNat * 32768 + b.toNat * 1024 + m.toNat * 128 + t.toNat * 16)
  | .vshr p d a b m t => some (0x400000d + p.toNat * 16777216 + d.toNat * 1048576 + a.toNat * 32768 + b.toNat * 1024 + m.toNat * 128 + t.toNat * 16)
  | .vavg p d a b m t => some (0x400000e + p.toNat * 16777216 + d.toNat * 1048576 + a.toNat * 32768 + b.toNat * 1024 + m.toNat * 128 + t.toNat * 16)
  | .vpopc p d a m t => some (0x400000f + p.toNat * 16777216 + d.toNat * 1048576 + a.toNat * 32768 + m.toNat * 128 + t.toNat * 16)
  | .vaddScalar p d a g m t => some (0x18000000 + p.toNat * 16777216 + d.toNat * 1048576 + a.toNat * 32768 + g.toNat * 1024 + m.toNat * 128 + t.toNat * 16)
  | .vsubScalar p d a g m t => some (0x18000001 + p.toNat * 16777216 + d.toNat * 1048576 + a.toNat * 32768 + g.toNat * 1024 + m.toNat * 128 + t.toNat * 16)
  | .vmulScalar p d a g m t => some (0x18000002 + p.toNat * 16777216 + d.toNat * 1048576 + a.toNat * 32768 + g.toNat * 1024 + m.toNat * 128 + t.toNat * 16)
  | .vmulhScalar p d a g m t => some (0x18000003 + p.toNat * 16777216 + d.toNat * 1048576 + a.toNat * 32768 + g.toNat * 1024 + m.toNat * 128 + t.toNat * 16)
  | .vminScalar p d a g m t => some (0x18000004 + p.toNat * 16777216 + d.toNat * 1048576 + a.toNat * 32768 + g.toNat * 1024 + m.toNat * 128 + t.toNat * 16)
  | .vmaxScalar p d a g m t => some (0x18000005 + p.toNat * 16777216 + d.toNat * 1048576 + a.toNat * 32768 + g.toNat * 1024 + m.toNat * 128 + t.toNat * 16)
  | .vaddsScalar p d a g m t => some (0x18000006 + p.toNat * 16777216 + d.toNat * 1048576 + a.toNat * 32768 + g.toNat * 1024 + m.toNat * 128 + t.toNat * 16)
  | .vsubsScalar p d a g m t => some (0x18000007 + p.toNat * 16777216 + d.toNat * 1048576 + a.toNat * 32768 + g.toNat * 1024 + m.toNat * 128 + t.toNat * 16)
  | .vabsdScalar p d a g m t => some (0x18000008 + p.toNat * 16777216 + d.toNat * 1048576 + a.toNat * 32768 + g.toNat * 1024 + m.toNat * 128 + t.toNat * 16)
  | .vandScalar p d a g m t => some (0x18000009 + p.toNat * 16777216 + d.toNat * 1048576 + a.toNat * 32768 + g.toNat * 1024 + m.toNat * 128 + t.toNat * 16)
  | .vorScalar p d a g m t => some (0x1800000a + p.toNat * 16777216 + d.toNat * 1048576 + a.toNat * 32768 + g.toNat * 1024 + m.toNat * 128 + t.toNat * 16)
  | .vxorScalar p d a g m t => some (0x1800000b + p.toNat * 16777216 + d.toNat * 1048576 + a.toNat * 32768 + g.toNat * 1024 + m.toNat * 128 + t.toNat * 16)
  | .vshlScalar p d a g m t => some (0x1800000c + p.toNat * 16777216 + d.toNat * 1048576 + a.toNat * 32768 + g.toNat * 1024 + m.toNat * 128 + t.toNat * 16)
  | .vshrScalar p d a g m t => some (0x1800000d + p.toNat * 16777216 + d.toNat * 1048576 + a.toNat * 32768 + g.toNat * 1024 + m.toNat * 128 + t.toNat * 16)
  | .vavgScalar p d a g m t => some (0x1800000e + p.toNat * 16777216 + d.toNat * 1048576 + a.toNat * 32768 + g.toNat * 1024 + m.toNat * 128 + t.toNat * 16)
  | .vfadd p d a b m t => some (0x8000000 + p.toNat * 16777216 + d.toNat * 1048576 + a.toNat * 32768 + b.toNat * 1024 + m.toNat * 128 + t.toNat * 16)
  | .vfsub p d a b m t => some (0x8000001 + p.toNat * 16777216 + d.toNat * 1048576 + a.toNat * 32768 + b.toNat * 1024 + m.toNat * 128 + t.toNat * 16)
  | .vfmul p d a b m t => some (0x8000002 + p.toNat * 16777216 + d.toNat * 1048576 + a.toNat * 32768 + b.toNat * 1024 + m.toNat * 128 + t.toNat * 16)
  | .vfmin p d a b m t => some (0x8000003 + p.toNat * 16777216 + d.toNat * 1048576 + a.toNat * 32768 + b.toNat * 1024 + m.toNat * 128 + t.toNat * 16)
  | .vfmax p d a b m t => some (0x8000004 + p.toNat * 16777216 + d.toNat * 1048576 + a.toNat * 32768 + b.toNat * 1024 + m.toNat * 128 + t.toNat * 16)
  | .vfabs p d a m t => some (0x8000005 + p.toNat * 16777216 + d.toNat * 1048576 + a.toNat * 32768 + m.toNat * 128 + t.toNat * 16)
  | .vfneg p d a m t => some (0x8000006 + p.toNat * 16777216 + d.toNat * 1048576 + a.toNat * 32768 + m.toNat * 128 + t.toNat * 16)
  | .vexp2 p d a m t => some (0x8000007 + p.toNat * 16777216 + d.toNat * 1048576 + a.toNat * 32768 + m.toNat * 128 + t.toNat * 16)
  | .vlog2 p d a m t => some (0x8000008 + p.toNat * 16777216 + d.toNat * 1048576 + a.toNat * 32768 + m.toNat * 128 + t.toNat * 16)
  | .vrcp p d a m t => some (0x8000009 + p.toNat * 16777216 + d.toNat * 1048576 + a.toNat * 32768 + m.toNat * 128 + t.toNat * 16)
  | .vrsqrt p d a m t => some (0x800000a + p.toNat * 16777216 + d.toNat * 1048576 + a.toNat * 32768 + m.toNat * 128 + t.toNat * 16)
  | .vfrint p d a m t => some (0x800000b + p.toNat * 16777216 + d.toNat * 1048576 + a.toNat * 32768 + m.toNat * 128 + t.toNat * 16)
  | .vfaddScalar p d a g m t => some (0x1c000000 + p.toNat * 16777216 + d.toNat * 1048576 + a.toNat * 32768 + g.toNat * 1024 + m.toNat * 128 + t.toNat * 16)
  | .vfsubScalar p d a g m t => some (0x1c000001 + p.toNat * 16777216 + d.toNat * 1048576 + a.toNat * 32768 + g.toNat * 1024 + m.toNat * 128 + t.toNat * 16)
  | .vfmulScalar p d a g m t => some (0x1c000002 + p.toNat * 16777216 + d.toNat * 1048576 + a.toNat * 32768 + g.toNat * 1024 + m.toNat * 128 + t.toNat * 16)
  | .vfminScalar p d a g m t => some (0x1c000003 + p.toNat * 16777216 + d.toNat * 1048576 + a.toNat * 32768 + g.toNat * 1024 + m.toNat * 128 + t.toNat * 16)
  | .vfmaxScalar p d a g m t => some (0x1c000004 + p.toNat * 16777216 + d.toNat * 1048576 + a.toNat * 32768 + g.toNat * 1024 + m.toNat * 128 + t.toNat * 16)
  | .vfma p d a b c m t => some (0xc000000 + p.toNat * 16777216 + d.toNat * 1048576 + a.toNat * 32768 + b.toNat * 1024 + c.toNat * 32 + m.toNat * 4 + t.toNat * 1)
  | .vfms p d a b c m t => some (0x10000000 + p.toNat * 16777216 + d.toNat * 1048576 + a.toNat * 32768 + b.toNat * 1024 + c.toNat * 32 + m.toNat * 4 + t.toNat * 1)
  | .vfnma p d a b c m t => some (0x14000000 + p.toNat * 16777216 + d.toNat * 1048576 + a.toNat * 32768 + b.toNat * 1024 + c.toNat * 32 + m.toNat * 4 + t.toNat * 1)
  | .vcmp p d a b m t c => some (0x20000000 + p.toNat * 16777216 + d.toNat * 2097152 + a.toNat * 32768 + b.toNat * 1024 + m.toNat * 128 + t.toNat * 16 + c.toNat * 1)
  | .vfcmp p d a b m t c => some (0x24000000 + p.toNat * 16777216 + d.toNat * 2097152 + a.toNat * 32768 + b.toNat * 1024 + m.toNat * 128 + t.toNat * 16 + c.toNat * 1)
  | .mand p d a b => some (0x28000000 + p.toNat * 16777216 + d.toNat * 2097152 + a.toNat * 262144 + b.toNat * 32768)
  | .mor p d a b => some (0x28000001 + p.toNat * 16777216 + d.toNat * 2097152 + a.toNat * 262144 + b.toNat * 32768)
  | .mxor p d a b => some (0x28000002 + p.toNat * 16777216 + d.toNat * 2097152 + a.toNat * 262144 + b.toNat * 32768)
  | .mandn p d a b => some (0x28000003 + p.toNat * 16777216 + d.toNat * 2097152 + a.toNat * 262144 + b.toNat * 32768)
  | .vsel p d a b m => some (0x2c000000 + p.toNat * 16777216 + d.toNat * 1048576 + a.toNat * 32768 + b.toNat * 1024 + m.toNat * 128)
  | .vcvt p d a e s m w => some (0x30000000 + p.toNat * 16777216 + d.toNat * 1048576 + a.toNat * 32768 + e.toNat * 2048 + s.toNat * 128 + m.toNat * 16 + w.toNat * 1)
  | .ven p d a b e l => some (0x34000000 + p.toNat * 16777216 + d.toNat * 1048576 + a.toNat * 32768 + b.toNat * 1024 + e.toNat * 64 + l.toNat * 2)
  | .vde p d a e l => some (0x34006001 + p.toNat * 16777216 + d.toNat * 1048576 + a.toNat * 32768 + e.toNat * 64 + l.toNat * 2)
  | .vrsum p d a m t => some (0x38000000 + p.toNat * 16777216 + d.toNat * 1048576 + a.toNat * 32768 + m.toNat * 128 + t.toNat * 16)
  | .vrmax p d a m t => some (0x38000001 + p.toNat * 16777216 + d.toNat * 1048576 + a.toNat * 32768 + m.toNat * 128 + t.toNat * 16)
  | .vrmin p d a m t => some (0x38000002 + p.toNat * 16777216 + d.toNat * 1048576 + a.toNat * 32768 + m.toNat * 128 + t.toNat * 16)
  | .vscan p d a m t => some (0x38000003 + p.toNat * 16777216 + d.toNat * 1048576 + a.toNat * 32768 + m.toNat * 128 + t.toNat * 16)
  | .vperm p d a b m => some (0x3c000000 + p.toNat * 16777216 + d.toNat * 1048576 + a.toNat * 32768 + b.toNat * 1024 + m.toNat * 128)
  | .vrot p d a k m => some (0x3c000001 + p.toNat * 16777216 + d.toNat * 1048576 + a.toNat * 32768 + k.toNat * 1024 + m.toNat * 128)
  | .vbcl p d a k m => some (0x3c000002 + p.toNat * 16777216 + d.toNat * 1048576 + a.toNat * 32768 + k.toNat * 1024 + m.toNat * 128)
  | .vxcopy p d a t k m => some (0x40000000 + p.toNat * 16777216 + d.toNat * 1048576 + a.toNat * 32768 + t.toNat * 2048 + k.toNat * 256 + m.toNat * 32)
  | .vmovi p d m i => some (0x44000000 + p.toNat * 16777216 + d.toNat * 1048576 + m.toNat * 131072 + i.toNat * 1)
  | .vmovh p d m i => some (0x48000000 + p.toNat * 16777216 + d.toNat * 1048576 + m.toNat * 131072 + i.toNat * 1)
  | .vget p a g l => some (0x4c000000 + p.toNat * 16777216 + a.toNat * 32768 + g.toNat * 1024 + l.toNat * 8)
  | .vput p d a g l => some (0x4c000001 + p.toNat * 16777216 + d.toNat * 1048576 + a.toNat * 32768 + g.toNat * 1024 + l.toNat * 8)
  | .vbcg p d g => some (0x4c000002 + p.toNat * 16777216 + d.toNat * 1048576 + g.toNat * 1024)
  | _ => none

/-- The word of an instruction of slot 2 (Tables 3-3 to 3-9). -/
def encode2 : Instr → Option Nat
  | .ld p d b z x o => some (0x4000000 + p.toNat * 16777216 + d.toNat * 524288 + b.toNat * 16384 + z.toNat * 4096 + x.toNat * 2048 + o.toNat * 1)
  | .st p g b z o => some (0x8000000 + p.toNat * 16777216 + g.toNat * 524288 + b.toNat * 16384 + z.toNat * 4096 + o.toNat * 1)
  | .ald p d b o => some (0x14002000 + p.toNat * 16777216 + d.toNat * 524288 + b.toNat * 16384 + o.toNat * 1)
  | .ast p g b o => some (0x18002000 + p.toNat * 16777216 + g.toNat * 524288 + b.toNat * 16384 + o.toNat * 1)
  | .vld p v b o => some (0xc000000 + p.toNat * 16777216 + v.toNat * 1048576 + b.toNat * 32768 + o.toNat * 1)
  | .vst p v b o => some (0x10000000 + p.toNat * 16777216 + v.toNat * 1048576 + b.toNat * 32768 + o.toNat * 1)
  | .avld p v b o => some (0x1c000000 + p.toNat * 16777216 + v.toNat * 1048576 + b.toNat * 32768 + o.toNat * 1)
  | .avst p v b m o => some (0x20000000 + p.toNat * 16777216 + v.toNat * 1048576 + b.toNat * 32768 + m.toNat * 8192 + o.toNat * 1)
  | .amo p d a b f => some (0x24000000 + p.toNat * 16777216 + d.toNat * 524288 + a.toNat * 16384 + b.toNat * 512 + f.toNat * 32)
  | .wld p v b o => some (0x28000000 + p.toNat * 16777216 + v.toNat * 1048576 + b.toNat * 32768 + o.toNat * 1)
  | .wst p v b o => some (0x2c000000 + p.toNat * 16777216 + v.toNat * 1048576 + b.toNat * 32768 + o.toNat * 1)
  | .fcfg p f a o => some (0x30000000 + p.toNat * 16777216 + f.toNat * 2097152 + a.toNat * 32768 + o.toNat * 1)
  | .fcfgRb p f a o => some (0x30100000 + p.toNat * 16777216 + f.toNat * 2097152 + a.toNat * 32768 + o.toNat * 1)
  | .ocfg p o a i => some (0x34000000 + p.toNat * 16777216 + o.toNat * 4194304 + a.toNat * 32768 + i.toNat * 1)
  | .opush p o s => some (0x38000000 + p.toNat * 16777216 + o.toNat * 4194304 + s.toNat * 32768)
  | .popq p d g q => some (0x3c000000 + p.toNat * 16777216 + d.toNat * 1048576 + g.toNat * 32768 + q.toNat * 8192)
  | .popqFlag p d g q r => some (0x3c001000 + p.toNat * 16777216 + d.toNat * 1048576 + g.toNat * 32768 + q.toNat * 8192 + r.toNat * 512)
  | .rst p h a s c o => some (0x40000000 + p.toNat * 16777216 + h.toNat * 2097152 + a.toNat * 65536 + s.toNat * 2048 + c.toNat * 128 + o.toNat * 32)
  | .radd p h a s w c o k => some (0x44000000 + p.toNat * 16777216 + h.toNat * 2097152 + a.toNat * 65536 + s.toNat * 2048 + w.toNat * 1024 + c.toNat * 128 + o.toNat * 32 + k.toNat * 16)
  | .rget p h a b c o l => some (0x48000000 + p.toNat * 16777216 + h.toNat * 2097152 + a.toNat * 65536 + b.toNat * 2048 + c.toNat * 256 + o.toNat * 64 + l.toNat * 1)
  | .ramo p h a b c o f => some (0x4c000000 + p.toNat * 16777216 + h.toNat * 2097152 + a.toNat * 65536 + b.toNat * 2048 + c.toNat * 256 + o.toNat * 64 + f.toNat * 4)
  | .drain p c => some (0x50000000 + p.toNat * 16777216 + c.toNat * 2097152)
  | .fence p c => some (0x54000000 + p.toNat * 16777216 + c.toNat * 2097152)
  | .chsend p n s o c => some (0x58000000 + p.toNat * 16777216 + n.toNat * 4096 + s.toNat * 128 + o.toNat * 32 + c.toNat * 4)
  | .chrecv p n d => some (0x5c000000 + p.toNat * 16777216 + n.toNat * 4096 + d.toNat * 256)
  | .chrecvFlag p n d r => some (0x5c000080 + p.toNat * 16777216 + n.toNat * 4096 + d.toNat * 256 + r.toNat * 16)
  | .hmsg p h a b l => some (0x60000000 + p.toNat * 16777216 + h.toNat * 2097152 + a.toNat * 65536 + b.toNat * 2048 + l.toNat * 8)
  | .hset p h t a => some (0x64000000 + p.toNat * 16777216 + h.toNat * 2097152 + t.toNat * 524288 + a.toNat * 16384)
  | .hget p d h t => some (0x68000000 + p.toNat * 16777216 + d.toNat * 524288 + h.toNat * 65536 + t.toNat * 16384)
  | .hadd p h a => some (0x6c000000 + p.toNat * 16777216 + h.toNat * 2097152 + a.toNat * 16384)
  | .parset p x t a => some (0x70000000 + p.toNat * 16777216 + x.toNat * 2097152 + t.toNat * 524288 + a.toNat * 16384)
  | .parget p d x t => some (0x74000000 + p.toNat * 16777216 + d.toNat * 524288 + x.toNat * 65536 + t.toNat * 16384)
  | _ => none

/-- The word of an instruction of slot 3 (Tables 3-3 to 3-9). -/
def encode3 : Instr → Option Nat
  | .mcall p d r i => some (0x4000000 + p.toNat * 16777216 + d.toNat * 2097152 + r.toNat * 524288 + i.toNat * 4096)
  | .rowrunSmax p d r a => some (0x8000000 + p.toNat * 16777216 + d.toNat * 2097152 + r.toNat * 524288 + a.toNat * 2048)
  | .rowrunNorm p d r a => some (0x8010000 + p.toNat * 16777216 + d.toNat * 2097152 + r.toNat * 524288 + a.toNat * 2048)
  | .cpy p d r a => some (0xc000000 + p.toNat * 16777216 + d.toNat * 2097152 + r.toNat * 524288 + a.toNat * 16384)
  | .cpyx p d r a => some (0x10000000 + p.toNat * 16777216 + d.toNat * 2097152 + r.toNat * 524288 + a.toNat * 16384)
  | .cpyf p d r a => some (0x14000000 + p.toNat * 16777216 + d.toNat * 2097152 + r.toNat * 524288 + a.toNat * 16384)
  | .dset p d g => some (0x18000000 + p.toNat * 16777216 + d.toNat * 2097152 + g.toNat * 16384)
  | .dget p d g => some (0x1c000000 + p.toNat * 16777216 + d.toNat * 2097152 + g.toNat * 16384)
  | .ecancel p e => some (0x20000000 + p.toNat * 16777216 + e.toNat * 4194304)
  | .excset p e g => some (0x24000000 + p.toNat * 16777216 + e.toNat * 4194304 + g.toNat * 16384)
  | .excget p e g => some (0x28000000 + p.toNat * 16777216 + e.toNat * 4194304 + g.toNat * 16384)
  | .eqstat p e g => some (0x2c000000 + p.toNat * 16777216 + e.toNat * 4194304 + g.toNat * 16384)
  | _ => none

/-- The slot of an instruction that a slot word holds; NOP counts for slot 0. -/
def Instr.slot? (i : Instr) : Option (Fin 4) :=
  match i with
  | .nop => some 0
  | .reservedEncoding k _ _ => some k
  | _ => if (encode0 i).isSome then some 0 else if (encode1 i).isSome then some 1 else if (encode2 i).isSome then some 2
         else if (encode3 i).isSome then some 3 else none

/-- The word of an instruction as a number. -/
def Instr.encode (i : Instr) : Option Nat :=
  match i with
  | .nop => some 0
  | .reservedEncoding _ w _ => some w.toNat
  | _ => (encode0 i).or ((encode1 i).or ((encode2 i).or (encode3 i)))

/-- The word of an instruction; none for a step of the machine that no word encodes. -/
def encode (i : Instr) : Option (BitVec 32) := i.encode.map (BitVec.ofNat 32)

/-- The instruction of a word whose bits are w, tried in slots 0, 1, 2 and 3: the first slot in which the word is an
instruction; a word that is none in every slot is a reserved encoding of slot 0. -/
def decodeTableWord (nbits w : Nat) : Option Instr :=
  if nbits ≤ 32 then
    let x : BitVec 32 := BitVec.ofNat 32 w
    match decodeSlot 0 x, decodeSlot 1 x, decodeSlot 2 x, decodeSlot 3 x with
    | .ok i, _, _, _ => some i
    | _, .ok i, _, _ => some i
    | _, _, .ok i, _ => some i
    | _, _, _, .ok i => some i
    | _, _, _, _ => some (decodeWord 0 x)
  else none

end Sys2Proof
end

