-- ==== Sys2Proof/Machine/Bits.lean ====
section
/-! DEFINITION. Bit-field, lane, element and scalar-integer helpers: pure functions on bit vectors that the meanings of
the scalar and vector instructions share (R36, R37, R94, R117). -/

namespace Sys2Proof.Machine

/-- Bits [h:l] of a bit vector, both ends included (R8), as a number. -/
def fieldNat {w : Nat} (x : BitVec w) (h l : Nat) : Nat := (x.toNat >>> l) % 2 ^ (h + 1 - l)

/-- Bit i of a number, as a Bool. -/
def bitOf (n i : Nat) : Bool := n.testBit i

/-- A Bool as a one-bit vector. -/
def boolBit (b : Bool) : BitVec 1 := if b then 1#1 else 0#1

/-- The signed value of the low w bits of n, two's complement (R36). -/
def signedOf (w n : Nat) : Int := if 2 * (n % 2 ^ w) < 2 ^ w then ((n % 2 ^ w : Nat) : Int) else ((n % 2 ^ w : Nat) : Int) - 2 ^ w

/-- An integer mod 2^w, as a w-bit number (R10: a width is imposed only by an explicit slice). -/
def wrapNat (w : Nat) (v : Int) : Nat := (v % 2 ^ w).toNat

/-- Number of one bits among bits 0 to w - 1. -/
def popCount : Nat → Nat → Nat
  | 0, _ => 0
  | w + 1, n => n % 2 + popCount w (n / 2)

/-- Number of leading zero bits of a 32-bit word, 32 for zero (Table 4-1, CLZ). -/
def clz32 (a : Word) : Nat := if a = 0 then 32 else 31 - a.toNat.log2

/-- Number of trailing zero bits below position w. -/
def ctzFrom : Nat → Nat → Nat
  | 0, _ => 0
  | w + 1, n => if n % 2 = 1 then 0 else 1 + ctzFrom w (n / 2)

/-- Number of trailing zero bits of a 32-bit word, 32 for zero (Table 4-1, CTZ). -/
def ctz32 (a : Word) : Nat := ctzFrom 32 a.toNat

/-- Bit reversal of the low w bits (Table 4-1, BREV). -/
def revBits : Nat → Nat → Nat → Nat
  | 0, _, acc => acc
  | w + 1, n, acc => revBits w (n / 2) (2 * acc + n % 2)

/-- Quotient rounded toward zero (Table 4-1, trunc). -/
def truncDiv (a b : Int) : Int := Int.tdiv a b

/-- Lane L of a vector, 32 bits (R37). -/
def lane (v : Vec) (l : Nat) : Word := BitVec.ofNat 32 (v.toNat >>> (32 * l))

/-- A vector from its lanes: lane L is f L, for L below n. -/
def ofLanesNat (f : Nat → Nat) : Nat → Nat
  | 0 => 0
  | n + 1 => ofLanesNat f n + ((f n % 2 ^ 32) <<< (32 * n))

/-- The vector whose lane L holds f L (128 lanes). -/
def ofLanes (f : Nat → Word) : Vec := BitVec.ofNat 4096 (ofLanesNat (fun l => (f l).toNat) 128)

/-- Element j of width w of a packed vector (R37): bits [wj + w - 1 : wj]. -/
def element (w : Nat) (v : Vec) (j : Nat) : Nat := (v.toNat >>> (w * j)) % 2 ^ w

/-- The number whose element j of width w is f j, for j below n. -/
def packElems (w : Nat) (f : Nat → Nat) : Nat → Nat
  | 0 => 0
  | n + 1 => packElems w f n + ((f n % 2 ^ w) <<< (w * n))

/-- The packed vector of the 4096 / w elements f j (R117). -/
def ofElems (w : Nat) (f : Nat → Nat) : Vec := BitVec.ofNat 4096 (packElems w f (4096 / w))

/-- The 4,096-bit image of a lane mask: 32 ones for each enabled lane. -/
def maskBits (m : Mask) : Vec := ofLanes (fun l => if m.toNat.testBit l then 0xFFFFFFFF#32 else 0#32)

/-- Lanes of x where the mask is one, lanes of old elsewhere (R118). -/
def mergeLanes (m : Mask) (old x : Vec) : Vec := (x &&& maskBits m) ||| (old &&& ~~~ (maskBits m))

/-- Every lane holds w. -/
def splat (w : Word) : Vec := ofLanes (fun _ => w)

/-- The lane-index vector (Table 3-4, code 25): lane L holds L as N32. -/
def laneIndex : Vec := ofLanes (fun l => BitVec.ofNat 32 l)

/-- The all-ones mask m0. -/
def fullMask : Mask := BitVec.allOnes 128

/-- The byte k of a bit vector. -/
def byteOf {w : Nat} (x : BitVec w) (k : Nat) : Byte := BitVec.ofNat 8 (x.toNat >>> (8 * k))

/-- Scalar register functions of Table 4-1 on N32 operands. -/
inductive AluFn where
  | add | sub | and | or | xor | andn | shl | shr | sar | rol | min | max | minu | maxu
  | mul | mulh | mulhu | div | divu | rem | remu | adds | subs | clz | ctz | popc | brev | bswap
  deriving DecidableEq, Repr

/-- gd for each function of Table 4-1 (R94). -/
def aluResult (fn : AluFn) (a b : Word) : Word :=
  match fn with
  | .add => a + b
  | .sub => a - b
  | .and => a &&& b
  | .or => a ||| b
  | .xor => a ^^^ b
  | .andn => a &&& ~~~ b
  | .shl => a <<< (b.toNat % 32)
  | .shr => a >>> (b.toNat % 32)
  | .sar => a.sshiftRight (b.toNat % 32)
  | .rol => a.rotateLeft (b.toNat % 32)
  | .min => if a.toInt ≤ b.toInt then a else b
  | .max => if a.toInt ≤ b.toInt then b else a
  | .minu => if a.toNat ≤ b.toNat then a else b
  | .maxu => if a.toNat ≤ b.toNat then b else a
  | .mul => a * b
  | .mulh => BitVec.ofInt 32 ((a.toInt * b.toInt) / 2 ^ 32)
  | .mulhu => BitVec.ofNat 32 ((a.toNat * b.toNat) / 2 ^ 32)
  | .div =>
    if b = 0 then 0xFFFFFFFF#32
    else if a = 0x80000000#32 ∧ b = 0xFFFFFFFF#32 then 0x80000000#32
    else BitVec.ofInt 32 (truncDiv a.toInt b.toInt)
  | .divu => if b = 0 then 0xFFFFFFFF#32 else BitVec.ofNat 32 (a.toNat / b.toNat)
  | .rem =>
    if b = 0 then a
    else if a = 0x80000000#32 ∧ b = 0xFFFFFFFF#32 then 0#32
    else BitVec.ofInt 32 (a.toInt - truncDiv a.toInt b.toInt * b.toInt)
  | .remu => if b = 0 then a else BitVec.ofNat 32 (a.toNat - a.toNat / b.toNat * b.toNat)
  | .adds => BitVec.ofInt 32 (clampInt (-2 ^ 31) (2 ^ 31 - 1) (a.toInt + b.toInt))
  | .subs => BitVec.ofInt 32 (clampInt (-2 ^ 31) (2 ^ 31 - 1) (a.toInt - b.toInt))
  | .clz => BitVec.ofNat 32 (clz32 a)
  | .ctz => BitVec.ofNat 32 (ctz32 a)
  | .popc => BitVec.ofNat 32 (popCount 32 a.toNat)
  | .brev => BitVec.ofNat 32 (revBits 32 a.toNat 0)
  | .bswap => a.extractLsb' 0 8 ++ a.extractLsb' 8 8 ++ a.extractLsb' 16 8 ++ a.extractLsb' 24 8

/-- Scalar conditions of Table 3-4 (R99); codes 11 to 15 are reserved and never reach here. -/
def scalarCond (k : BitVec 4) (a b : Word) : Bool :=
  match k.toNat with
  | 0 => a == b
  | 1 => a != b
  | 2 => decide (a.toInt < b.toInt)
  | 3 => decide (a.toInt ≤ b.toInt)
  | 4 => decide (b.toInt < a.toInt)
  | 5 => decide (b.toInt ≤ a.toInt)
  | 6 => decide (a.toNat < b.toNat)
  | 7 => decide (a.toNat ≤ b.toNat)
  | 8 => decide (b.toNat < a.toNat)
  | 9 => decide (b.toNat ≤ a.toNat)
  | _ => (a &&& b) != 0#32

/-- The bit field a[pos + len - 1 : pos], zero extended (R98). -/
def bitField (a : Word) (pos len : Nat) : Word := BitVec.ofNat 32 ((a.toNat >>> pos) % 2 ^ len)

/-- The bit field sign extended (R98, BFX). -/
def bitFieldS (a : Word) (pos len : Nat) : Word := BitVec.ofInt 32 (signedOf len (a.toNat >>> pos))

/-- BFI: bits [pos + len - 1 : pos] of the old register replaced by a[len - 1 : 0] (R98). -/
def bitInsert (old a : Word) (pos len : Nat) : Word :=
  let m : Word := BitVec.ofNat 32 ((2 ^ len - 1) <<< pos)
  (old &&& ~~~ m) ||| ((a <<< pos) &&& m)

/-- Pieces of n bytes joined, the first lowest. -/
def leJoin (n : Nat) (l : List Nat) : Nat := l.foldr (fun x acc => x + acc * 2 ^ (8 * n)) 0

end Sys2Proof.Machine
end

