-- ==== Sys2Proof/Machine/Float.lean ====
section
/-! DEFINITION. Floating formats and exact arithmetic (R35, R44 to R50, R54): a finite value is a dyadic number
(-1)^s * m * 2^e, so sums, products and fused products are exact and every operation rounds once. -/

namespace Sys2Proof.Machine

/-- The floating element formats of Table 2-1 but E8M0, which holds only powers of two. -/
inductive Fmt where
  | f32 | bf16 | f16 | e5m2 | e4m3 | e2m1
  deriving DecidableEq, Repr

/-- Width in bits (Table 2-1). -/
def Fmt.width : Fmt → Nat
  | .f32 => 32 | .bf16 => 16 | .f16 => 16 | .e5m2 => 8 | .e4m3 => 8 | .e2m1 => 4

/-- Mantissa bits (Table 2-1). -/
def Fmt.mb : Fmt → Nat
  | .f32 => 23 | .bf16 => 7 | .f16 => 10 | .e5m2 => 2 | .e4m3 => 3 | .e2m1 => 1

/-- Exponent bias (Table 2-1). -/
def Fmt.bias : Fmt → Nat
  | .f32 => 127 | .bf16 => 127 | .f16 => 15 | .e5m2 => 15 | .e4m3 => 7 | .e2m1 => 1

/-- Bits of the largest finite magnitude (Table 2-1, Max finite). -/
def Fmt.maxFinite : Fmt → Nat
  | .f32 => 0x7F7FFFFF | .bf16 => 0x7F7F | .f16 => 0x7BFF | .e5m2 => 0x7B | .e4m3 => 0x7E | .e2m1 => 0x7

/-- Bits of +infinity where the format holds one. -/
def Fmt.infBits : Fmt → Nat
  | .f32 => 0x7F800000 | .bf16 => 0x7F80 | .f16 => 0x7C00 | .e5m2 => 0x7C | .e4m3 => 0x7F | .e2m1 => 0x7

/-- Whether the format holds infinities (Table 2-1). -/
def Fmt.hasInf : Fmt → Bool
  | .e4m3 => false | .e2m1 => false | _ => true

/-- Whether DAZ and FTZ bear on the format (R46). -/
def Fmt.flushes : Fmt → Bool
  | .f32 => true | .bf16 => true | .f16 => true | _ => false

/-- Rounding modes of FPC.RM (Table 2-2). -/
inductive Rm where
  | rne | rtz | rup | rdn | rna | sr
  deriving DecidableEq, Repr

/-- FPC's fields (Table 2-2), as an operation uses them. -/
structure FpMode where
  rm : Rm := .rne
  daz : Bool := false
  ftz : Bool := false
  sat : Bool := false
  prop : Bool := false
  seed : Nat := 0
  deriving DecidableEq, Repr

/-- The mode that an FPC word gives (Table 2-2); the reserved values 110 and 111 of RM are never stored (R42). -/
def FpMode.of (w : BitVec 32) : FpMode :=
  { rm := match fieldNat w 8 6 with
      | 1 => .rtz | 2 => .rup | 3 => .rdn | 4 => .rna | 5 => .sr | _ => .rne,
    daz := w.toNat.testBit 9, ftz := w.toNat.testBit 10, sat := w.toNat.testBit 11,
    prop := fieldNat w 13 12 = 1, seed := fieldNat w 31 16 }

/-- An exact floating value: a NaN with its sign and mantissa (mw bits wide), an infinity, or (-1)^s * m * 2^e. -/
inductive FVal where
  | nan (s : Bool) (mant mw : Nat)
  | inf (s : Bool)
  | num (s : Bool) (m : Nat) (e : Int)
  deriving DecidableEq, Repr

/-- The canonical quiet NaN as a value: its mantissa is the most significant bit alone (R49). -/
def FVal.canon : FVal := .nan false 0 0

def FVal.isNan : FVal → Bool | .nan .. => true | _ => false
def FVal.isInf : FVal → Bool | .inf _ => true | _ => false
def FVal.isZero : FVal → Bool | .num _ 0 _ => true | _ => false
def FVal.sign : FVal → Bool | .nan s _ _ => s | .inf s => s | .num s _ _ => s
def FVal.neg : FVal → FVal | .nan s m w => .nan s m w | .inf s => .inf (!s) | .num s m e => .num (!s) m e
def FVal.abs : FVal → FVal | .nan s m w => .nan s m w | .inf _ => .inf false | .num _ m e => .num false m e

/-- The value that bits of a format encode (R35). An E4M3 NaN keeps its three mantissa bits, which a wider destination extends under R49: DEDUCED,
unsafe, log 154. -/
def Fmt.decode (f : Fmt) (b : Nat) : FVal :=
  let s := b.testBit (f.width - 1)
  let mant := b % 2 ^ f.mb
  let ef := (b >>> f.mb) % 2 ^ (f.width - 1 - f.mb)
  let top := 2 ^ (f.width - 1 - f.mb) - 1
  if f = .e4m3 ∧ ef = top ∧ mant = 7 then .nan s mant 3
  else if f.hasInf ∧ ef = top then (if mant = 0 then .inf s else .nan s mant f.mb)
  else if ef = 0 then .num s mant (1 - (f.bias : Int) - f.mb)
  else .num s (mant + 2 ^ f.mb) ((ef : Int) - f.bias - f.mb)

/-- A subnormal operand of F32, F16 or BF16 reads as zero of its sign under DAZ (R46). -/
def Fmt.decodeDaz (f : Fmt) (daz : Bool) (b : Nat) : FVal :=
  match f.decode b with
  | .num s m e => if daz && f.flushes && decide (m < 2 ^ f.mb) then .num s 0 e else .num s m e
  | v => v

/-- m * 2^d for an integer d: exact when d is not negative, else the quotient rounded in mode rm (R44), sign s, draw r. -/
def roundShift (rm : Rm) (s : Bool) (r m : Nat) (d : Int) : Nat :=
  if 0 ≤ d then m <<< d.toNat
  else
    let k := (-d).toNat
    let n := m >>> k
    let rest := m % 2 ^ k
    match rm with
    | .rtz => n
    | .rne => if 2 ^ k < 2 * rest ∨ (2 * rest = 2 ^ k ∧ n % 2 = 1) then n + 1 else n
    | .rna => if 2 ^ k ≤ 2 * rest then n + 1 else n
    | .rup => if rest ≠ 0 ∧ !s then n + 1 else n
    | .rdn => if rest ≠ 0 ∧ s then n + 1 else n
    | .sr => (m * 2 ^ 16 + r * 2 ^ k) >>> (k + 16)

/-- Whether an overflow in mode rm gives an infinity in the F32 row of Table 2-3. -/
def overflowToInf (rm : Rm) (s : Bool) : Bool :=
  match rm with
  | .rne => true | .rna => true | .sr => true | .rtz => false
  | .rup => !s | .rdn => s

/-- The sign bit of a format, placed. -/
def Fmt.signBits (f : Fmt) (s : Bool) : Nat := if s then 2 ^ (f.width - 1) else 0

/-- The outcome of an overflow (Table 2-3). -/
def Fmt.overflow (f : Fmt) (rm : Rm) (sat s : Bool) : Nat :=
  f.signBits s +
  match f with
  | .e2m1 => 0x7
  | .f32 => if overflowToInf rm s then f.infBits else f.maxFinite
  | .e4m3 => if sat then f.maxFinite else if overflowToInf rm s then 0x7F else f.maxFinite
  | _ => if sat then f.maxFinite else if overflowToInf rm s then f.infBits else f.maxFinite

/-- A NaN result in a format (R49), of the NaN value n: the canonical NaN, or n fitted to the format under PROP. -/
def Fmt.nanBits (f : Fmt) (prop : Bool) (s : Bool) (mant mw : Nat) : Nat :=
  match f with
  | .e2m1 => 0
  | .e4m3 => if prop then f.signBits s + 0x7F else 0x7F
  | _ =>
    if prop then
      let quiet := if mw = 0 then 0 else mant ||| 2 ^ (mw - 1)
      let fit := if mw ≤ f.mb then quiet <<< (f.mb - mw) else quiet >>> (mw - f.mb)
      f.signBits s + f.infBits + (fit ||| 2 ^ (f.mb - 1))
    else f.infBits + 2 ^ (f.mb - 1)

/-- Rounding of a finite value to a format: bits, and whether it overflowed (R44, R46, R47). -/
def Fmt.roundNum (f : Fmt) (rm : Rm) (ftz sat : Bool) (r : Nat) (s : Bool) (m : Nat) (e : Int) : Nat × Bool :=
  if m = 0 then (f.signBits s, false)
  else
    let emin : Int := 1 - (f.bias : Int)
    let q : Int := max ((m.log2 : Int) + e - f.mb) (emin - f.mb)
    let k := roundShift rm s r m (e - q)
    if k < 2 ^ f.mb then
      (f.signBits s + (if ftz && f.flushes then 0 else k), false)
    else
      let up := k.log2 - f.mb
      let bits := (((q + up + f.mb + f.bias) : Int).toNat <<< f.mb) + ((k >>> up) - 2 ^ f.mb)
      if f.maxFinite < bits then (f.overflow rm sat s, true) else (f.signBits s + bits, false)

/-- A value rounded to a format under a mode: bits, and whether it overflowed (R44 to R49). -/
def Fmt.encodeOv (f : Fmt) (md : FpMode) (r : Nat) (v : FVal) : Nat × Bool :=
  match v with
  | .nan s mant mw => (f.nanBits md.prop s mant mw, false)
  | .inf s => if f.hasInf then (f.signBits s + f.infBits, false) else (f.overflow md.rm md.sat s, true)
  | .num s m e => f.roundNum md.rm md.ftz md.sat r s m e

/-- A value rounded to a format under a mode. -/
def Fmt.encode (f : Fmt) (md : FpMode) (r : Nat) (v : FVal) : Nat := (f.encodeOv md r v).1

/-- The first NaN operand in operand order, else the canonical NaN (R49). -/
def firstNan : List FVal → FVal
  | [] => FVal.canon
  | v :: vs => if v.isNan then v else firstNan vs

/-- The exact sum of two finite values, with the sign of an exact zero sum as R44 gives. -/
def addNum (rm : Rm) (s1 : Bool) (m1 : Nat) (e1 : Int) (s2 : Bool) (m2 : Nat) (e2 : Int) : FVal :=
  let e := min e1 e2
  let a : Int := (m1 <<< (e1 - e).toNat : Nat)
  let b : Int := (m2 <<< (e2 - e).toNat : Nat)
  let t := (if s1 then -a else a) + (if s2 then -b else b)
  if t = 0 then .num (if s1 = s2 then s1 else rm = .rdn) 0 e
  else .num (decide (t < 0)) t.natAbs e

/-- The exact sum a + b (R124): an invalid sum of opposite infinities is a NaN. -/
def FVal.add (rm : Rm) (a b : FVal) : FVal :=
  match a, b with
  | .num s1 m1 e1, .num s2 m2 e2 => addNum rm s1 m1 e1 s2 m2 e2
  | .inf s1, .inf s2 => if s1 = s2 then .inf s1 else FVal.canon
  | .inf s, .num .. => .inf s
  | .num .., .inf s => .inf s
  | x, y => firstNan [x, y]

/-- The exact product (R124): infinity times zero is invalid. -/
def FVal.mul (a b : FVal) : FVal :=
  match a, b with
  | .num s1 m1 e1, .num s2 m2 e2 => .num (s1 != s2) (m1 * m2) (e1 + e2)
  | .inf s1, .num s2 m2 _ => if m2 = 0 then FVal.canon else .inf (s1 != s2)
  | .num s1 m1 _, .inf s2 => if m1 = 0 then FVal.canon else .inf (s1 != s2)
  | .inf s1, .inf s2 => .inf (s1 != s2)
  | x, y => firstNan [x, y]

/-- The exact a * b + c with the NaN order a, b, c; negP and negC negate the product and c (R125). -/
def FVal.fma (rm : Rm) (negP negC : Bool) (a b c : FVal) : FVal :=
  if a.isNan || b.isNan || c.isNan then firstNan [a, b, c]
  else
    let p := FVal.mul a b
    let p := if negP then p.neg else p
    let c := if negC then c.neg else c
    FVal.add rm p c

/-- The order of two values that are not NaN, -0 below +0: whether a is below b. -/
def FVal.ltTotal (a b : FVal) : Bool :=
  match a, b with
  | .inf s, .inf t => s && !t
  | .inf s, _ => s
  | _, .inf t => !t
  | .num s1 m1 e1, .num s2 m2 e2 =>
    if m1 = 0 ∧ m2 = 0 then s1 && !s2
    else
      let e := min e1 e2
      let x : Int := (m1 <<< (e1 - e).toNat : Nat)
      let y : Int := (m2 <<< (e2 - e).toNat : Nat)
      decide ((if s1 then -x else x) < (if s2 then -y else y))
  | _, _ => false

/-- IEEE 754 comparison a < b of two values that are not NaN (+0 equals -0, R126). -/
def FVal.lt (a b : FVal) : Bool := if a.isZero && b.isZero then false else FVal.ltTotal a b

/-- IEEE 754-2019 minimum and maximum (R124): a NaN if either is one, and -0 below +0. -/
def FVal.minF (a b : FVal) : FVal :=
  if a.isNan || b.isNan then firstNan [a, b] else if FVal.ltTotal b a then b else a
def FVal.maxF (a b : FVal) : FVal :=
  if a.isNan || b.isNan then firstNan [a, b] else if FVal.ltTotal a b then b else a

/-- The floor of m * 2^e for a signed dyadic number. -/
def floorDyadic (s : Bool) (m : Nat) (e : Int) : Int :=
  let t : Int := if s then -(m : Int) else m
  if 0 ≤ e then t * 2 ^ e.toNat else t / 2 ^ (-e).toNat

/-- A finite value rounded to an integer in mode rm (R44, an integer destination has u = 1). -/
def roundToInt (rm : Rm) (r : Nat) (s : Bool) (m : Nat) (e : Int) : Int :=
  let k : Int := roundShift rm s r m e
  if s then -k else k

/-- Conversion of a value to an integer range (R48): NaN gives 0, an infinity the limit. -/
def FVal.toIntSat (rm : Rm) (r : Nat) (lo hi : Int) : FVal → Int
  | .nan .. => 0
  | .inf s => if s then lo else hi
  | .num s m e => clampInt lo hi (roundToInt rm r s m e)

/-- An integer as a value. -/
def FVal.ofInt (v : Int) : FVal := .num (decide (v < 0)) v.natAbs 0

/-- A value rounded to F32 to nearest even, subnormals kept, canonical NaN (to_f32_rne, R54). -/
def f32Rne (v : FVal) : Nat := Fmt.f32.encode {} 0 v

/-- RNE results of F32 operations that keep a NaN operand for R49. -/
def rneV (v : FVal) : FVal := if v.isNan then v else Fmt.f32.decode (f32Rne v)
def mulV (a b : FVal) : FVal := rneV (FVal.mul a b)
def addV (a b : FVal) : FVal := rneV (FVal.add .rne a b)
def fmaV (a b c : FVal) : FVal := rneV (FVal.fma .rne false false a b c)

/-- add_f32_rne on bit patterns (R54): an invalid add gives 0x7FC00000. -/
def addF32 (a b : Nat) : Nat := f32Rne (FVal.add .rne (Fmt.f32.decode a) (Fmt.f32.decode b))

/-- F32 multiply and fused multiply-add under RNE (R55). -/
def mulF32 (a b : Nat) : Nat := f32Rne (FVal.mul (Fmt.f32.decode a) (Fmt.f32.decode b))
def fmaF32 (a b c : Nat) : Nat :=
  f32Rne (FVal.fma .rne false false (Fmt.f32.decode a) (Fmt.f32.decode b) (Fmt.f32.decode c))

/-- One xorshift32 step (R45). -/
def xorshift (z : Nat) : Nat :=
  let z := z ^^^ (z * 2 ^ 13 % 2 ^ 32)
  let z := z ^^^ (z / 2 ^ 17)
  z ^^^ (z * 2 ^ 5 % 2 ^ 32)

/-- The state of lane L's generator for a seed and an SRSTEP value, before its first draw (R45). -/
def drawState (seed srstep l : Nat) : Nat :=
  let s := (seed * 2 ^ 16) ^^^ ((l + 1) * 0x9E3779B9 % 2 ^ 32)
  let z := (s + srstep * 0x6A09E667) % 2 ^ 32
  let z := if z = 0 then 1 else z
  xorshift (xorshift z)

/-- draw[k] of lane L (R45). -/
def drawK : Nat → Nat → Nat
  | 0, z => z / 2 ^ 16
  | k + 1, z => drawK k (xorshift z)

/-- The draw of position k of lane L: formed only under SR (R45). -/
def drawOf (md : FpMode) (srstep l k : Nat) : Nat :=
  if md.rm = .sr then drawK k (drawState md.seed srstep l) else 0

end Sys2Proof.Machine
end

