-- ==== Sys2Proof/Config.lean ====
section
/-! DEFINITION. What an implementation fixes and the free values: constants with no body, so that nothing can be proved of
their values. -/

namespace Sys2Proof.Config

/-- A value the spec leaves open, one for each use (State.fresh numbers the uses): a free value. DESIGN CHOICE, log 1; safe. -/
opaque freeValue : Nat → Nat

/-- The cycles a network message, an edge access or another transfer whose time the spec does not fix takes, beyond the
least, for each use (R23, R26, R263). DESIGN CHOICE, log 2; safe. -/
opaque delay : Nat → Nat

/-- The 16 bytes of a fault-ring entry, as a function of the VA, ASID, world and requesting tile that R424 says it holds: the
spec gives no layout. DESIGN CHOICE, log 3; safe. -/
opaque ringEntry : (va asid world x y : Nat) → Nat

/-- The physical column (north and south sides) or row (east and west sides) of the outermost tile to whose router an edge tile attaches: R23
does not say which of 192 or 168 each of the 128 of a side takes. DESIGN CHOICE, log 175; safe. -/
opaque edgeLine : (edge : Nat) → Nat

/-- The 384-bit secret that reticle r's physically unclonable function gives with its helper data (R452). DESIGN CHOICE, log 4; safe. -/
opaque pufSecret : (r : Nat) → Nat

end Sys2Proof.Config
end

