-- ==== Sys2Proof/Machine/Auto.lean ====
section
/-! DEFINITION. The steps of the opcode table that the machine itself brings about when they are due (timers, arrivals, engine
starts and ends): plain names for them, kept in the agenda and on the timer lists. Each stands for the Instr of its name
(Step runs it by that instruction's meaning). -/

namespace Sys2Proof.Machine

/-- A due step of the machine. -/
inductive Auto where
  | tileClockCycle
  | seatTake (c : TileId) (seat : Fin 2)
  | displacement (c : TileId)
  | contextReady (c : TileId) (tag : Tag)
  | yieldDeadline (c : TileId) (tag : Tag)
  | swapRequest (c : TileId) (out : Fin 4) (incoming : SwapIn)
  | stagingEnd (c : TileId)
  | swapDecision (c : TileId)
  | swapIn (c : TileId)
  | spillDone (c : TileId)
  | handlerStart (c : TileId)
  | kill (c : TileId) (tag : Tag)
  | killDone (c : TileId) (tag : Tag)
  | matrixCommandStart (c : TileId)
  | leaveGrant (r : ReticleId)
  | leaveTimeout (c : TileId)
  | routineSave (c : TileId)
  | routineResume (c : TileId)
  | rowCommandStart (c : TileId)
  | rowCommandComplete (c : TileId)
  | copyCommandStart (c : TileId)
  | copyCommandComplete (c : TileId)
  | engineCommandFault (c : TileId) (e : Engine)
  | engineWatchdog (c : TileId) (e : Engine)
  | rqOverflow (c : TileId) (tag : Tag)
  | feedRead (c : TileId) (tag : Tag) (f : Fin 8)
  | outletWrite (c : TileId) (tag : Tag) (o : Fin 4)
  | networkInjection (c : TileId)
  | releaseSend (c : TileId) (serial : Nat)
  | acquirePerformed (c : TileId) (tag : Tag)
  | message (n : Nat)
  | channelItemResend (n : Nat)
  | peerLost (c : TileId) (kernel ch : Nat)
  | barrierRequestSend (c : TileId) (tag : Tag)
  | barrierRequestApply (c : TileId)
  | dispatch (q : QueueId)
  | conditionReadPerformed (q : QueueId)
  | contextLaunchStart (c : TileId) (kernel : Nat)
  | kernelComplete (kernel : Nat)
  | completionEntryWrite (q : QueueId)
  | abortGraceExpiry (kernel : Nat)
  | hostTimeout
  | unitZeroingDone (c : TileId) (unit : Nat)
  | gangStart (kernel : Nat)
  | gangDeadline (kernel : Nat)
  | pageWalk (n : Nat)
  | shootdownComplete
  | ceThresholdMigration (c : TileId)
  | wsRefreshMiss (c : TileId)
  | migrationCopy
  | migrationCheck
  | migrationRewrite
  | migrationResume
  | quiesceTimeout
  | scrubBeat (c : TileId) (sram : Bool)
  | scrubLate (c : TileId) (sram : Bool)
  | worldChange (c : TileId)
  | cruiseMessage (r : ReticleId) (side : Fin 4) (msg : BitVec 512)
  | probeEnd (r : ReticleId)
  | roundTimer (r : ReticleId)
  | leaderHeartbeat (r : ReticleId)
  | heartbeatTimeout (r : ReticleId)
  | claimPost (r : ReticleId)
  | claimWindowEnd (r : ReticleId)
  | pllLockTimeout (r : ReticleId)
  | parentSelection (r : ReticleId)
  | holdLimit (r : ReticleId)
  | cycleCorrection (r : ReticleId)
  | frequencySwitch
  | reducedServiceEnd
  | recruise (died : Option ReticleId)
  | wavelengthWakeTimeout (port : PortId) (w : Fin 8)
  | replayTimeout (port : PortId)
  | nakRepeat (port : PortId)
  | lkrpltoExpiry (port : PortId)
  | linkSilent (port : PortId)
  | trainingEnd (port : PortId)
  | stampSend (port : PortId)
  | linkPolicyPark (port : PortId)
  | linkPolicyWake (port : PortId)
  | timeStep
  | pairBeatArrival (n : Nat)
  | pairTimeout (n : Nat)
  deriving DecidableEq, Repr

end Sys2Proof.Machine
end

