-- ==== Sys2Proof/Machine/Memory.lean ====
section
/-! DEFINITION. Memory as plain data: a list of (address, byte) pairs, addresses strictly rising, no entry equal to what an
unlisted address reads as. Every wider access is built here from bytes, little-endian (R8). A Store adds the protected words
that read as uncorrectable (R512). -/

namespace Sys2Proof.Machine

/-- One memory: the bytes that differ from what an unlisted address reads as. -/
abbrev Mem := List Host.Cell

/-- What an address that nothing has written reads as. The spec gives RAM no power-on contents beyond the zeroing of
R446 and R452: zero. -/
def unlistedByte : Byte := 0#8

/-- The byte at an address. -/
def Mem.byteAt : Mem → Nat → Byte
  | [], _ => unlistedByte
  | (b, v) :: r, a => if a = b then v else if a < b then unlistedByte else Mem.byteAt r a

/-- One byte written; the canonical form is kept (the unlisted value removes the entry). -/
def Mem.writeByte : Mem → Nat → Byte → Mem
  | [], a, x => if x = unlistedByte then [] else [(a, x)]
  | (b, v) :: r, a, x =>
    if a < b then (if x = unlistedByte then (b, v) :: r else (a, x) :: (b, v) :: r)
    else if a = b then (if x = unlistedByte then r else (a, x) :: r)
    else (b, v) :: Mem.writeByte r a x

/-- The n bytes from address a as a little-endian number. -/
def Mem.readNat (m : Mem) (a : Nat) : Nat → Nat
  | 0 => 0
  | n + 1 => (m.byteAt a).toNat + 256 * Mem.readNat m (a + 1) n

/-- The n low bytes of a number written from address a, little-endian. -/
def Mem.writeNat (m : Mem) (a : Nat) : Nat → Nat → Mem
  | 0, _ => m
  | n + 1, v => Mem.writeNat (m.writeByte a (BitVec.ofNat 8 v)) (a + 1) n (v / 256)

/-- Addresses strictly rise from lo on and no entry holds the unlisted value. -/
def Mem.wfFrom : Nat → Mem → Bool
  | _, [] => true
  | lo, (b, v) :: r => decide (lo ≤ b) && decide (v ≠ unlistedByte) && Mem.wfFrom (b + 1) r

/-- The canonical form of a memory. -/
def Mem.wf (m : Mem) : Bool := Mem.wfFrom 0 m

/-- A protected memory: its bytes, the indexes of its protected words that read as uncorrectable (R512), rising, and of
those whose next read corrects an error (R445). -/
structure Store where
  cells : Mem := []
  bad : List Nat := []
  weak : List Nat := []
  deriving DecidableEq, Repr

/-- Whether an access of n bytes at a touches a word of g bytes that reads as uncorrectable (R286, R512). -/
def Store.badIn (s : Store) (g a n : Nat) : Bool := s.bad.any (fun k => decide (g * k < a + n) && decide (a < g * (k + 1)))

/-- How many words of g bytes an access of n bytes at a corrects (R445). -/
def Store.weakIn (s : Store) (g a n : Nat) : Nat :=
  (s.weak.filter (fun k => decide (g * k < a + n) && decide (a < g * (k + 1)))).length

/-- The n bytes at a as a little-endian number. -/
def Store.readNat (s : Store) (a n : Nat) : Nat := s.cells.readNat a n

/-- A write of n bytes at a: words that it covers whole get a fresh code, others stay as they read (R512). -/
def Store.writeNat (s : Store) (g a n v : Nat) : Store :=
  { cells := s.cells.writeNat a n v,
    bad := s.bad.filter (fun k => !(decide (a ≤ g * k) && decide (g * (k + 1) ≤ a + n))),
    weak := s.weak.filter (fun k => !(decide (g * k < a + n) && decide (a < g * (k + 1)))) }

/-- A word marked as reading uncorrectable. -/
def Store.spoil (s : Store) (k : Nat) : Store :=
  { s with bad := if s.bad.contains k then s.bad else (s.bad.filter (· < k)) ++ [k] ++ (s.bad.filter (k < ·)) }

/-- Counters that are zero where unlisted, keys rising: accounts, loop counters, sparse tables of numbers. -/
abbrev Counts := List (Nat × Nat)

/-- The counter of a key. -/
def Counts.at : Counts → Nat → Nat
  | [], _ => 0
  | (b, v) :: r, a => if a = b then v else if a < b then 0 else Counts.at r a

/-- A counter set; zero removes the entry. -/
def Counts.put : Counts → Nat → Nat → Counts
  | [], a, x => if x = 0 then [] else [(a, x)]
  | (b, v) :: r, a, x =>
    if a < b then (if x = 0 then (b, v) :: r else (a, x) :: (b, v) :: r)
    else if a = b then (if x = 0 then r else (a, x) :: r)
    else (b, v) :: Counts.put r a x

/-- A counter raised by n, mod m. -/
def Counts.bump (c : Counts) (k n m : Nat) : Counts := c.put k ((c.at k + n) % m)

/-- A sparse table of data by numeric key, keys rising. -/
def assocGet {α : Type} : List (Nat × α) → Nat → Option α
  | [], _ => none
  | (b, v) :: r, a => if a = b then some v else assocGet r a

/-- The entry of a key set. -/
def assocPut {α : Type} : List (Nat × α) → Nat → α → List (Nat × α)
  | [], a, x => [(a, x)]
  | (b, v) :: r, a, x => if a < b then (a, x) :: (b, v) :: r else if a = b then (a, x) :: r else (b, v) :: assocPut r a x

/-- The entry of a key removed. -/
def assocDel {α : Type} (l : List (Nat × α)) (a : Nat) : List (Nat × α) := l.filter (fun e => e.1 ≠ a)

end Sys2Proof.Machine
end

