-- ==== Sys2Proof/Machine/TileState.lean ====
section
/-! DEFINITION. What one logical tile holds, as plain data: its contexts by tag with everything R251 gives a context, its
memories, engines, queues, seats, accounts, units and debug state (chapters 1 to 12, 14, 19 and 22). -/

namespace Sys2Proof.Machine

/-- A register with its poison bit (R80). -/
structure Reg (w : Nat) where
  val : BitVec w := 0
  poison : Bool := false
  deriving DecidableEq, Repr

/-- The registers of a context (R251). g0, p0 and m0 are hard-wired by the accessors of Ops (R80, R251). -/
structure Regs where
  g : Vector (Reg 32) 32 := Vector.replicate 32 {}
  p : Vector (Reg 1) 8 := Vector.replicate 8 {}
  v : Vector (Reg 4096) 16 := Vector.replicate 16 {}
  m : Vector (Reg 128) 8 := Vector.replicate 8 {}
  x : Vector (Reg 64) 8 := Vector.replicate 8 {}
  h : Vector (Reg 96) 8 := Vector.replicate 8 {}
  d : Vector (BitVec 32) 8 := Vector.replicate 8 0
  deriving DecidableEq, Repr

/-- A register named with its class. -/
inductive RegRef where
  | g (i : BitVec 5) | p (i : BitVec 3) | v (i : BitVec 4) | m (i : BitVec 3) | x (i : BitVec 3) | h (i : BitVec 3)
  deriving DecidableEq, Repr

/-- A value on its way to a register (R82). A vector write carries its lane mask and whether mk was m0 (R119). -/
inductive RegWrite where
  | g (i : BitVec 5) (val : BitVec 32)
  | p (i : BitVec 3) (val : Bool)
  | v (i : BitVec 4) (val : Vec) (mask : Mask) (whole : Bool)
  | m (i : BitVec 3) (val : Mask)
  | x (i : BitVec 3) (val : BitVec 64)
  | h (i : BitVec 3) (val : BitVec 96)
  deriving DecidableEq, Repr

/-- A pending write (R82 to R84): remain counts issued bundles; arrive is the first cycle (of now) in which the value has
come from its unit, which only a compatibility stall looks at (R85). serial orders producing bundles. -/
structure Pending where
  write : RegWrite
  poison : Bool := false
  remain : Nat
  arrive : Nat := 0
  serial : Nat := 0
  slot : Nat := 0
  deriving DecidableEq, Repr

/-- One hardware loop level (R106): start and end are byte addresses of bundles. -/
structure Loop where
  active : Bool := false
  start : BitVec 32 := 0
  stop : BitVec 32 := 0
  cnt : BitVec 32 := 0
  deriving DecidableEq, Repr

/-- The flow state of a context (R107): pc, next pc, delay bit, loop levels. -/
structure Flow where
  pc : BitVec 32 := 0
  npc : BitVec 32 := 16
  indelay : Bool := false
  loops : Vector Loop 4 := Vector.replicate 4 {}
  deriving DecidableEq, Repr

/-- The special registers of a context (Table 4-8, R41, R79, R278). -/
structure SysRegs where
  fpc : BitVec 32 := 0
  srstep : BitVec 32 := 0
  epc : BitVec 32 := 0
  cause : BitVec 8 := 0
  epcDelay : Bool := false
  inHandler : Bool := false
  doneMask : BitVec 4 := 0
  poisonRec : BitVec 64 := 0
  cycleHs : BitVec 32 := 0
  prio : BitVec 2 := 0
  armed : Bool := false
  deriving DecidableEq, Repr

/-- The semaphores of a context and what reaches them in the cycle that runs (R109, R111), with the tag's latch (R264). -/
structure Sems where
  s : Vector (BitVec 16) 32 := Vector.replicate 32 0
  inc : Vector Nat 32 := Vector.replicate 32 0
  put : List (BitVec 5 × BitVec 16) := []
  latch : Vector (BitVec 16) 32 := Vector.replicate 32 0
  latchOver : Bool := false
  deriving DecidableEq, Repr

/-- A vector that a feed holds or an outlet has been given, with its poison (R72, R286) and the NaN lanes that it counts when it is yielded
(R229). -/
structure HeldVec where
  val : Vec
  poison : Bool := false
  due : Nat := 0
  nans : Nat := 0
  deriving DecidableEq, Repr

/-- A feed port (R150): block is the parameter or rebuild block; i0 to i3 are the next vector's loop indices (in rebuild
mode i0 is b and i1 is i). beats counts the beats of that vector that have been read, part holds their bytes and partBad says that a word
of them was uncorrectable (R157). -/
structure Feed where
  active : Bool := false
  rebuild : Bool := false
  block : BitVec 256 := 0
  blockAddr : BitVec 32 := 0
  i0 : Nat := 0
  i1 : Nat := 0
  i2 : Nat := 0
  i3 : Nat := 0
  read : Nat := 0
  popped : Nat := 0
  held : List HeldVec := []
  fpc : BitVec 32 := 0
  region : Bool := false
  readAt : Nat := 0
  beats : Nat := 0
  part : List Nat := []
  partBad : Bool := false
  deriving DecidableEq, Repr

/-- An outlet port (R150, R155): pushed counts the vectors given to it, written those written; it writes none before the cycle
writeAt. beats counts the beats of the oldest vector that have been written (R157). -/
structure Outlet where
  active : Bool := false
  block : BitVec 256 := 0
  blockAddr : BitVec 32 := 0
  i0 : Nat := 0
  i1 : Nat := 0
  i2 : Nat := 0
  i3 : Nat := 0
  pushed : Nat := 0
  written : Nat := 0
  buf : List Vec := []
  writeAt : Nat := 0
  beats : Nat := 0
  deriving DecidableEq, Repr

/-- The containment checkpoint (R288). -/
structure Checkpoint where
  opened : Bool := false
  g : Vector (Reg 32) 32 := Vector.replicate 32 {}
  p : Vector (Reg 1) 8 := Vector.replicate 8 {}
  handler : BitVec 32 := 0
  deriving DecidableEq, Repr

/-- A result-queue entry (R158): the tag word without VALID, and the payload when DATA is set. -/
structure RqEntry where
  word : BitVec 32
  data : Option Vec := none
  poison : Bool := false
  deriving DecidableEq, Repr

/-- A local memory of a tile (R32). -/
inductive Space where
  | spad | acc | wst
  deriving DecidableEq, Repr

/-- Why an issue attempt failed (Table 10-2), as a condition that is judged again later (R257). -/
inductive WaitCond where
  /-- a header wait or WAIT: the semaphore holds at least need (R66, R110) -/
  | sem (n : BitVec 5) (need : Nat)
  /-- no byte of the range is locked against the access by an engine (R143) -/
  | unlocked (sp : Space) (addr len : Nat) (write : Bool)
  /-- no unit of the range is PENDING for the context's kernel (Table 14-8) -/
  | unitHeld (sp : Space) (addr len : Nat)
  /-- no bank of the range is occupied by an earlier core access (R142) -/
  | bankFree (sp : Space) (addr len : Nat)
  /-- no weight-store bank of the range is in refresh (R144) -/
  | refreshed (addr len : Nat)
  /-- the feed has a vector ready (R72) -/
  | feedReady (f : Fin 8)
  /-- the outlet's buffer has room (R155) -/
  | outletRoom (o : Fin 4)
  /-- every vector pushed to the outlet has been written (R154) -/
  | outletDrained (o : Fin 4)
  /-- the matrix, row or copy queue has a free entry (R197, R212) -/
  | engineRoom (e : Nat)
  /-- the tile may inject into the network (R436) -/
  | injectable
  /-- the network command queue has a free entry (R164) -/
  | netRoom
  /-- the result queue q3 of the tag can reserve so many entries (R336) -/
  | q3Room (n : Nat)
  /-- the result queue holds an entry, or nothing in flight can fill it (R159) -/
  | rqReady (q : Fin 4)
  /-- the remote operations issued before are performed at the scope (R169); fence adds the outlets (R170) -/
  | performed (sc : BitVec 3) (fence : Bool)
  /-- no acquire of the context is unperformed (R241) -/
  | acquired
  /-- no earlier ordered-form RAMO is unperformed (R245) -/
  | ramoDone
  /-- PARK's three conditions (R270) -/
  | parkReady
  /-- no engine command of the kernel is queued, running or saved and no port of it is ACTIVE (R365) -/
  | kernelQuiet
  /-- every value due at this boundary has arrived (R85) -/
  | arrived
  /-- two cycles since the previous issued bundle (R293) -/
  | segSpaced
  /-- the send window of a channel has room (chapter 17) -/
  | window (ch : BitVec 12) (flits : Nat)
  /-- every CHSEND of the tag on the channel is performed or has failed (R411) -/
  | chanSent (ch : BitVec 12)
  /-- a message for the channel is held (chapter 17) -/
  | message (ch : BitVec 12)
  /-- the barrier verdict or completion the context waits for is held (chapter 16) -/
  | barrier (b : BitVec 6) (what : BitVec 2)
  /-- the level's gang value is reached (chapter 15) -/
  | gang (value : BitVec 64)
  /-- the page instruction's answer for this address is held; the stall starts its walk (R429) -/
  | pageAnswer (va : BitVec 80) (sec touch write : Bool)
  deriving DecidableEq, Repr

/-- The states of a context (R252). -/
inductive CtxState where
  | empty | dormant | ready | issuing | blocked | staged | spilling | saved | halted | faulted | killing
  deriving DecidableEq, Repr

/-- Where a context stands in its life: its state, number, kernel, block and deferred trap; entering says that it has taken a trap whose
handler has issued no bundle yet (R305). -/
structure Life where
  st : CtxState := .empty
  num : Option (Fin 4) := none
  saveSlot : Option (Fin 2) := none
  kernel : Nat := 0
  secure : Bool := false
  resume : CtxState := .ready
  waits : List WaitCond := []
  blockCause : Nat := 6
  yieldUntil : Option (BitVec 64) := none
  yielded : Bool := false
  deferred : Option (BitVec 8) := none
  recovery : Bool := false
  lastIssue : Option Nat := none
  resumeAt : Nat := 0
  started : Bool := false
  partLanded : Bool := false
  entering : Bool := false
  deriving DecidableEq, Repr

/-- What the kill of a tag is doing (Table 11-7): the step, when it began, when step 3 began, and who is told. -/
structure KillState where
  step : Nat := 0
  began : Nat := 0
  netAt : Nat := 0
  byTag : Option Tag := none
  byHost : Bool := false
  deriving DecidableEq, Repr

/-- What the ordering rules need to know of a context's remote operations (R166, R169, R240, R241): the failed ones, each with its
serial and the smallest level that its location lies in, and the acquire that is not performed. -/
structure RemoteView where
  failed : List (Nat × Nat) := []
  acquire : Option Nat := none
  deriving DecidableEq, Repr

/-- The debug state of a context (chapter 22): a hold and its reason and watchpoint, the n of the last BRK, a step to make
(with TRAPREQ or not), a trap 0xBC due at the next attempt, the trace bit, the feed vectors a partial bundle popped (R503),
and the port the tag watches (R496). -/
structure DebugView where
  held : Bool := false
  reason : BitVec 3 := 0
  watch : BitVec 4 := 0
  brk : BitVec 12 := 0
  step : Option Bool := none
  stepTrap : Bool := false
  tracing : Bool := false
  popped : List (Fin 8 × Vec × Bool) := []
  port : Option PortId := none
  deriving DecidableEq, Repr

/-- A barrier verdict held by a tag (R394): fn and barrier it answers; accepted with a phase, or refused with a cause. -/
structure Verdict where
  fn : BitVec 2
  n : BitVec 6
  accepted : Bool
  phase : BitVec 16 := 0
  cause : BitVec 8 := 0
  deriving DecidableEq, Repr

/-- The answer of a page walk that a PGPROBE or PGTOUCH waited for (R429): the address asked, and what the walk found. -/
structure PageAnswer where
  va : BitVec 80
  sec : Bool
  touch : Bool
  write : Bool
  word : BitVec 32
  cause : BitVec 8 := 0
  deriving DecidableEq, Repr

/-- What a context waits for from a home tile or a page walker: the request in flight and the answer held; gslicePast is the PC of the
bundle with GSLICE.wait that has been attempted and has not issued, gsliceIn that of a handler's (R384). -/
structure Asked where
  barReq : Option Nat := none
  verdict : Option Verdict := none
  pageReq : Option Nat := none
  pageAns : Option PageAnswer := none
  gslicePast : Option (BitVec 32) := none
  gsliceIn : Option (BitVec 32) := none
  deriving DecidableEq, Repr

/-- A context (R251), held by its tile under its tag, with the result queues of the tag (R158). -/
structure Context where
  regs : Regs := {}
  flow : Flow := {}
  sys : SysRegs := {}
  sems : Sems := {}
  feeds : Vector Feed 8 := Vector.replicate 8 {}
  outlets : Vector Outlet 4 := Vector.replicate 4 {}
  ckpt : Checkpoint := {}
  segN : BitVec 32 := 0
  segC : BitVec 32 := 0xFFFFFFFF
  pending : List Pending := []
  serial : Nat := 0
  life : Life := {}
  kill : KillState := {}
  rq : Vector (List RqEntry) 4 := Vector.replicate 4 []
  remote : RemoteView := {}
  asked : Asked := {}
  dbg : DebugView := {}
  regBad : List RegRef := []
  deriving DecidableEq, Repr

/-- A lock of an engine command on rows of bytes (R143, R217): dest locks against reads and writes, else against writes
only. order is the command's place in issue order. -/
structure Lock where
  engine : Engine
  order : Nat
  sp : Space
  base : Int
  stride : Int
  rows : Nat
  len : Nat
  dest : Bool
  deriving DecidableEq, Repr

/-- A matrix command in the queue (R197): what MCALL captured. -/
structure MatrixCmd where
  tag : Tag
  kernel : Nat
  dep : BitVec 32
  xs : Vector (BitVec 64) 8
  fpc : BitVec 32
  srstep : BitVec 32
  pr : BitVec 2
  idx : BitVec 7
  pc : BitVec 14
  enq : Nat
  order : Nat
  region : Bool
  deriving DecidableEq, Repr

/-- A weight tile (R175): layout, sparsity, dual, and each loaded logical column's image. -/
structure WeightTile where
  wl : BitVec 5 := 6
  sp : BitVec 2 := 0
  dw : Bool := false
  cols : List (BitVec 10240) := []
  deriving DecidableEq, Repr

/-- The source of the LOADW that filled a weight tile (R201, R514). -/
structure LoadSource where
  memsel : Bool
  base : BitVec 24
  wl : BitVec 5
  sp : BitVec 2
  dw : Bool
  nc : BitVec 7
  deriving DecidableEq, Repr

/-- One output row on its way to the accumulator write port (R179, R192): values as exact integers or F32 words, with the
events that it counts beside those of its writes (R204); mi numbers the STREAM or DRAIN that it is of. -/
structure OutRow where
  mi : Nat := 0
  due : Nat
  addr : Nat
  isF32 : Bool
  words : List Int
  sats : Nat := 0
  ovfs : Nat := 0
  add : Bool
  coloured : Bool
  col : Bool
  deriving DecidableEq, Repr

/-- The part of a running routine that a save slot keeps (R201): microinstruction index, pointers, loop stack (index after the
LOOP, count), the depth of a skip (R187), ACCMODE, effective priority. -/
structure RoutineState where
  idx : Nat := 0
  ptrs : Vector (BitVec 24) 8 := Vector.replicate 8 0
  loops : List (Nat × Nat) := []
  skip : Nat := 0
  add : Bool := true
  ce : Bool := false
  col : Bool := false
  prio : BitVec 2 := 0
  deriving DecidableEq, Repr

/-- A routine in a save slot (R201); ran counts the cycles it has run (R334). -/
structure SavedRoutine where
  cmd : MatrixCmd
  rt : RoutineState
  activeSrc : Option LoadSource
  shadowSrc : Option LoadSource
  since : Nat
  ran : Nat
  deriving DecidableEq, Repr

/-- Power leave of a routine (R203). -/
inductive Leave where
  | none | requested (at' : Nat) | granted (at' : Nat)
  deriving DecidableEq, Repr

/-- A LOADW in progress, or the replay of one (R184, R202, R514): its source, its microinstruction, the next beat, the bytes of the column
that is being read, the columns read; whether it fills the active tile and not the shadow. -/
structure LoadRun where
  src : LoadSource
  active : Bool := false
  idx : Nat := 0
  beat : Nat := 0
  got : Nat := 0
  cols : List (BitVec 10240) := []
  deriving DecidableEq, Repr

/-- A STREAM in progress (R185, R192): dataflow, operand layout, rows, the next row and the cycle of its first plane, operand
base, row stride, exponent offset, sub-row stride, output or G base, the ACCMODE it started with, and its number mi in the command. -/
structure StreamRun where
  mi : Nat := 0
  idx : Nat := 0
  plane : Nat := 0
  got : List (Nat × Nat) := []
  bad : Option Nat := none
  df : BitVec 2
  ol : BitVec 5
  rows : Nat
  next : Nat := 0
  at' : Nat
  base : Nat
  stride : Nat
  xo : Int
  sb : Nat
  out : Nat
  add : Bool
  ce : Bool
  col : Bool
  deriving DecidableEq, Repr

/-- A lock of a STREAM or DRAIN past its last plane (R143, R194): sources until a cycle, outputs until the last row of its number is
written. -/
structure MicroLock where
  until' : Nat
  mi : Nat
  lock : Lock
  deriving DecidableEq, Repr

/-- The running command of the matrix engine: routine state, start, next fetch, leave, LOADW and STREAM in progress, first cycle
in which the array is free, cycle of an O STREAM's last plane, output rows on their way, locks of ended microinstructions, the number of the next
STREAM or DRAIN, the cycle a save ends in (it waits for its outputs first), the last cycle of a restore with the replays that
follow it (source, whether of the active tile), undrained O values, cycles run before a save, a SYNC mark that
waits, a fault. -/
structure MatrixRun where
  cmd : MatrixCmd
  rt : RoutineState
  started : Nat
  fetchAt : Nat
  leave : Leave := .none
  load : Option LoadRun := none
  loadFree : Nat := 0
  stream : Option StreamRun := none
  arrayFree : Nat := 0
  planesEnd : Nat := 0
  outs : List OutRow := []
  locks : List MicroLock := []
  mseq : Nat := 0
  saving : Option (Option Nat) := none
  restoring : Option (Nat × List (LoadSource × Bool)) := none
  oDirty : Bool := false
  ran : Nat := 0
  marked : Bool := false
  fault : Option (BitVec 8 × Nat × Nat) := none
  deriving DecidableEq, Repr

/-- The matrix engine of a tile: weights, PE accumulators (exact sums, row major), queue, running command, save slots,
exception counters with thresholds (R171, R204). replay says that a migration has left the active tile to be read again (R514), preload is
that replay, preBad the offset of an uncorrectable word that it met. -/
structure MatrixEngine where
  active : WeightTile := {}
  shadow : WeightTile := {}
  pendingShadow : Bool := false
  activeSrc : Option LoadSource := none
  shadowSrc : Option LoadSource := none
  replay : Bool := false
  preload : Option LoadRun := none
  preBad : Option Nat := none
  pe : List Int := []
  queue : List MatrixCmd := []
  run : Option MatrixRun := none
  saved : List SavedRoutine := []
  count : Vector (BitVec 32) 3 := Vector.replicate 3 0
  thresh : Vector (BitVec 32) 3 := Vector.replicate 3 0
  deriving DecidableEq, Repr

/-- A handle's entry (R427): base, length, control word. -/
structure Handle where
  base : Nat
  len : Nat
  ctl : BitVec 32
  deriving DecidableEq, Repr

/-- The forms of a row or copy command (Table 8-1). -/
inductive BlockForm where
  | smax | norm | cpy | cpyx | cpyf
  deriving DecidableEq, Repr

/-- A row or copy command as captured at its issue (R212), a CPYX with the entry of its handle, which stays pinned (R224). -/
structure BlockCmd where
  form : BlockForm
  ordinal : Nat := 0
  tag : Tag
  kernel : Nat
  dep : BitVec 32
  fpc : BitVec 32
  srstep : BitVec 32
  pr : BitVec 2
  block : BitVec 256
  pc : BitVec 14
  enq : Nat
  order : Nat
  region : Bool
  handle : Option Handle := none
  deriving DecidableEq, Repr

/-- How an external access of a CPYX stands (R427, R511): made when it is due, never answered, or waiting in the pair buffer. -/
inductive ExtWait where
  | due | lost | paired
  deriving DecidableEq, Repr

/-- An external access of a CPYX in flight: its beat, when it was sent, when it is next looked at, and how it stands. -/
structure ExtAccess where
  beat : Nat
  sent : Nat
  due : Nat
  wait : ExtWait
  deriving DecidableEq, Repr

/-- The running command of the row or copy engine: its start cycle, the cycles it has lost to locks, units and banks (R222), whether the
read or the write of the step that it stands at has been made, the
bytes read by row (each row as a little-endian number), the outputs of the row in SCALE with their overflows, the beats read
and written of a CPYX, its external accesses in flight, whether its completion mark waits for its
queue, the cycle it completes in once its last write has been made, and a fault that ends it (cause, index, offset). -/
structure BlockRun where
  cmd : BlockCmd
  started : Nat
  lost : Nat := 0
  rdDone : Bool := false
  wrDone : Bool := false
  got : List (Nat × Nat) := []
  outs : List (Nat × Bool) := []
  nread : Nat := 0
  nwritten : Nat := 0
  inFlight : List ExtAccess := []
  marked : Bool := false
  doneAt : Option Nat := none
  fault : Option (BitVec 8 × Nat × Nat) := none
  deriving DecidableEq, Repr

/-- The row or the copy engine. -/
structure BlockEngine where
  queue : List BlockCmd := []
  run : Option BlockRun := none
  deriving DecidableEq, Repr

/-- An entry that waits for a full result queue (R209, R214, R337): tag, queue, entry, since when, the engine that waits with
it, if one, and whether RQ_OVERFLOW has been given for it. -/
structure WaitingPush where
  tag : Tag
  q : Fin 4
  entry : RqEntry
  since : Nat
  engine : Option Engine := none
  told : Bool := false
  deriving DecidableEq, Repr

/-- An operation of the tile's network command queue (R164, R333): what it does is in its message. -/
inductive NetKind where
  | rst | radd | rget | ramo | chsend | hmsg | barrier
  deriving DecidableEq, Repr

/-- One remote operation held by the network command queue until it is performed (R164). covers are the serials of the
operations that a release waits for (R239), after those of the ordered atomics before it (R245); ready says that it may be
injected, doomed that a covered operation has failed (R240), failing that its own failure is on its way back. part counts the
beats done at its target, unitDone the units or beats acknowledged. hits and faults give, by 64 KiB granule of the virtual
address, the physical address with its W, or the reason of a failed translation; spans the log2 of the size of the page that a granule's translation came from. bytes and handler are an HMSG's, spoiled names its beats that were read uncorrectable; dropped says that a beat
of a coloured add has been discarded; foreign is the
wafer that sent it, gang the GANG of its kernel there (R407), and via the port it came through, where that wafer is another one. -/
structure RemoteOp where
  serial : Nat
  kind : NetKind
  tag : Tag
  pc : BitVec 14
  pcFull : BitVec 32 := 0
  addr : BitVec 80 := 0
  secure : Bool := false
  nt : Bool := false
  data : Vec := 0
  poison : Bool := false
  isI32 : Bool := false
  col : Bool := false
  dropped : Bool := false
  fn : BitVec 4 := 0
  b0 : BitVec 32 := 0
  b1 : BitVec 32 := 0
  units : Nat := 1
  unitDone : Nat := 0
  tagLow : BitVec 16 := 0
  ord : BitVec 2 := 0
  scope : Nat := 0
  lies : Nat := 7
  covers : List Nat := []
  waitOutlets : List (Fin 4 × Nat) := []
  after : List Nat := []
  ready : Bool := true
  injected : Bool := false
  held : Bool := false
  performed : Bool := false
  hits : List (Nat × Nat × Bool) := []
  spans : List (Nat × Nat) := []
  enq : Nat := 0
  part : Nat := 0
  ordinal : Nat := 0
  channel : BitVec 12 := 0
  dst : TileId := ⟨0, 0⟩
  pr : BitVec 2 := 0
  kernel : Nat := 0
  asid : Nat := 0
  doomed : Bool := false
  failing : Bool := false
  faults : List (Nat × Nat) := []
  bytes : List (BitVec 512) := []
  spoiled : List Nat := []
  handler : BitVec 32 := 0
  gang : BitVec 64 := 0
  foreign : Option Nat := none
  via : Option PortId := none
  wire : Nat := 0
  deriving DecidableEq, Repr

/-- An issue seat (R255): who holds it and since which cycle. -/
structure Seat where
  tag : Tag
  since : Nat
  deriving DecidableEq, Repr

/-- How a slot position was used in the bundle that issues (Table 12-2). -/
inductive SlotUse where
  | empty | header | on | off | reserved
  deriving DecidableEq, Repr

/-- A bundle issued in the cycle that runs. -/
structure Issued where
  tag : Tag
  pc : BitVec 14
  seat : Nat
  uses : Vector SlotUse 4
  blockBanks : List Nat := []
  memBanks : List Nat := []
  deriving DecidableEq, Repr

/-- A handler start waiting on its tile (R417, R418): kernel, handler PC, descriptor, whether its payload is written and since when. -/
structure HandlerEntry where
  kernel : Nat
  pc : BitVec 32
  g1 : BitVec 32
  g2 : BitVec 32
  g3 : BitVec 32
  g4 : BitVec 32
  ready : Bool := true
  since : Nat := 0
  serial : Nat := 0
  deriving DecidableEq, Repr

/-- What the seats did in the cycle that runs, for charging (R301 to R306): bundles issued, the seat-1 bundle that merging kept back,
failed attempts with their causes, traps taken, the seat-0 context and whether it is in its bubble, the tags whose host step
has been attempted and the slot that it ran, whether the scrubber took the cycle, the tags that a kill has freed, and the banks whose
beat of the cycle a requester other than the core has taken (R142, R217). For the order of R254 and R255: the seats that a kill has left in this
cycle, the context displaced in it, and the handler starts made in it. -/
structure CycleLog where
  issued : List Issued := []
  readyLost : Option (Tag × BitVec 14) := none
  failed : List (Tag × Nat) := []
  trapped : List Tag := []
  stepping : List Tag := []
  seatZero : Option Tag := none
  bubbleZero : Bool := false
  stepped : Option (Tag × Nat × Bool × BitVec 14) := none
  killed : List (Tag × BitVec 14) := []
  scrub : Bool := false
  beats : List (Space × Nat) := []
  vacated : List (Fin 2) := []
  displaced : Option Tag := none
  begun : List (Tag × HandlerEntry) := []
  deriving DecidableEq, Repr

/-- What an instruction leaves to the end of its cycle: effects that hold from the next cycle on. -/
inductive EndAct where
  | halt (tag : Tag)
  | killBegin (tag : Tag) (byTag : Option Tag) (byHost : Bool)
  | colours (first count : Nat) (val : Bool)
  | arm (tag : Tag) (val : Bool)
  | prio (tag : Tag) (val : BitVec 2)
  | range (tag : Tag) (n start stop : Nat)
  | snapshot
  | fold (tag : Tag)
  | stop (e : Engine) (tag : Tag) (regionOnly : Bool)
  | release (kernel : Nat) (units : List Nat)
  | discard (tag : Tag)
  | reprio (tag : Tag) (e n : BitVec 2) (d : BitVec 5) (serial : Nat)
  deriving DecidableEq, Repr

/-- A bank that a core access occupies (R142): space, bank, first cycle, cycle it is free from. -/
structure BankUse where
  sp : Space
  bank : Nat
  start : Nat
  free : Nat
  deriving DecidableEq, Repr

/-- A swap in progress (R261 to R263): left counts the beats of the incoming context's slot that staging has still to read, the next no
sooner than stageEnd. -/
structure Swap where
  out : Fin 4
  incoming : SwapIn
  inTag : Option Tag := none
  outTag : Option Tag := none
  stageEnd : Nat := 0
  left : Nat := 0
  decided : Option Nat := none
  slot : Fin 2 := 0
  seat : Option (Fin 2) := none
  deriving DecidableEq, Repr

/-- The core of a tile: seats, swap, handler-start queue, bank use, the cycle's log. spillLeft counts the beats of the slot that a spill has
still to write, the next no sooner than spillEnd (R263). -/
structure Core where
  seats : Vector (Option Seat) 2 := Vector.replicate 2 none
  swap : Option Swap := none
  spillTag : Option Tag := none
  spillEnd : Nat := 0
  spillLeft : Nat := 0
  swapWaiting : List (Fin 4 × SwapIn) := []
  slotBusy : Vector (Option Tag) 2 := Vector.replicate 2 none
  banks : List BankUse := []
  log : CycleLog := {}
  atEnd : List EndAct := []
  overflow : List (Tag × List Pending) := []
  nextOrder : Nat := 0
  deriving DecidableEq, Repr

/-- The accounting store of a tile (R298): counters by account * 2048 + range * 32 + cause (account 8 is the tile's), range
tables, loop counters by tag * 32 + level * 8 + slot * 2 + kind, the snapshots and the epoch start. -/
structure Accounts where
  counts : Counts := []
  ranges : Vector (List (Nat × Nat × Nat)) 8 := Vector.replicate 8 []
  loops : Counts := []
  t0 : BitVec 64 := 0
  snap : Counts := []
  snapElapsed : BitVec 64 := 0
  hostSnap : Counts := []
  hostElapsed : BitVec 64 := 0
  deriving DecidableEq, Repr

/-- The states of a scratchpad bank or colour region for one kernel (R359). -/
inductive UnitState where
  | pending | held | released
  | zeroing (until' : Nat)
  deriving DecidableEq, Repr

/-- A kernel on a tile: its units (bank b is unit b, colour region i is unit 16 + i; unlisted is UNPLANNED), its dispatch
order, whether its contexts have started here, its weight-store mode and its world. -/
structure TileKernel where
  kernel : Nat
  units : List (Nat × UnitState) := []
  order : Nat := 0
  started : Bool := false
  writeMode : Bool := false
  secure : Bool := false
  deriving DecidableEq, Repr

/-- The memories of a tile (Table 1-1), with its colours and COLDROP (R148). The instruction and routine stores hold what
the loader placed; the marks here are their uncorrectable words and those whose next read corrects an error, and wiped lists the images whose windows a world change
has zeroed (R446). -/
structure TileMem where
  spad : Store := {}
  acc : Store := {}
  wst : Store := {}
  istoreBad : List (Nat × Nat) := []
  rstoreBad : List (Nat × Nat) := []
  istoreWeak : List (Nat × Nat) := []
  rstoreWeak : List (Nat × Nat) := []
  wiped : List Nat := []
  colours : BitVec 64 := 0
  colDrop : BitVec 32 := 0
  deriving DecidableEq, Repr

end Sys2Proof.Machine
end

