-- ==== Sys2Proof/Machine/LinkState.lean ====
section
/-! DEFINITION. What a reticle holds (chapter 20), what a Thaov port holds (chapter 21) and what the host's debug and paired-run
registers hold (chapter 22), as plain data. -/

namespace Sys2Proof.Machine

/-! ### Reticles (chapter 20) -/

/-- The states of a reticle (Table 20-1). -/
inductive RetSt where
  | reset | selfTest | probe | elect | follower | leader | map | clock | ready | isolated | failed
  deriving DecidableEq, Repr

/-- What a side shows (R453). -/
inductive SideRes where
  | dead | up | edge
  deriving DecidableEq, Repr

/-- The condition of a PLL (R460). -/
inductive PllSt where
  | locked | hold | slew
  deriving DecidableEq, Repr

/-- One side of a reticle (R453, R454, R460): result, one-way latency in 10 ns, whether its PROBE was answered and the
neighbour's PROBE seen, when its PROBE left, consecutive discards, and what CLOCK messages told of the neighbour. -/
structure SideState where
  res : SideRes := .dead
  latency : BitVec 16 := 0
  acked : Bool := false
  seen : Bool := false
  linkBits : BitVec 32 := 0xFFFFFFFF
  sentAt : Nat := 0
  discards : Nat := 0
  nbPll : PllSt := .hold
  nbDepth : BitVec 8 := 0xFF
  nbKey : BitVec 64 := 0
  nbChild : Bool := false
  deriving DecidableEq, Repr

/-- A REPORT as the leader holds it (Table 20-4): the reporter's key, its payload and the side it came in on. -/
structure ReportRec where
  key : BitVec 64
  sides : BitVec 16
  deads : BitVec 48
  cols : BitVec 96
  lats : BitVec 64
  via : Fin 4
  deriving DecidableEq, Repr

/-- The clock of a reticle (R459 to R461): PLL and whether it has locked since the MAP, parent side (0 to 3, 4 carrier, 5 boot oscillator),
depth, HOLD entries, when it began to hold, the departure of its CYCLE from the wafer's count, the tile cycle of its last change, and the
boot time at which CYCLE is 0, the CYCLE value with which its tiles became LIVE, the tile cycles since then and how many of them the power
controller or the frequency switch withheld. -/
structure RetClock where
  pll : PllSt := .hold
  hasPll : Bool := false
  parent : BitVec 3 := 5
  depth : BitVec 8 := 0
  holds : BitVec 16 := 0
  since : Nat := 0
  skew : Int := 0
  lastCorr : Nat := 0
  startAt : Option Nat := none
  liveAt : BitVec 64 := 0
  ran : Nat := 0
  throttled : Nat := 0
  deriving DecidableEq, Repr

/-- The power domain of a reticle (R466 to R469). Currents are in units of 0.1 A. fifo holds leave requests
(tile, class budget, cycle), held the leaves granted. -/
structure RetPower where
  mean : BitVec 16 := 0
  peak : BitVec 16 := 0
  mv : BitVec 16 := 800
  fixed : Bool := false
  calibrated : Bool := false
  over640 : Nat := 0
  throttle : Bool := false
  noLeave : Bool := false
  crack : BitVec 16 := 0
  crackRuns : Vector Nat 16 := Vector.replicate 16 0
  cracked : BitVec 16 := 0
  ithrot : BitVec 32 := 6000
  leavebud : BitVec 32 := 5040
  leaveto : BitVec 32 := 0x100000
  crkth : BitVec 32 := 20
  budget : Nat := 5040
  fifo : List (TileId × Nat × Nat) := []
  held : List (TileId × Nat) := []
  deriving DecidableEq, Repr

/-- A reticle (R450 to R470). px0 and py0 of its tiles follow from its number; times are in units of 0.1 ns of wafer.time. -/
structure Reticle where
  st : RetSt := .reset
  entered : Nat := 0
  dead : List (Nat × Nat) := []
  health : BitVec 8 := 0
  key : BitVec 64 := 0
  side : Vector SideState 4 := Vector.replicate 4 {}
  round : BitVec 16 := 0
  best : BitVec 64 := 0
  up : Option (Fin 4) := none
  heard : Nat := 0
  roundAt : Nat := 0
  seq : BitVec 32 := 0
  seen : List (Nat × Nat × Nat) := []
  reports : List ReportRec := []
  routes : List (Nat × Fin 4) := []
  barred : Bool := false
  place : Option (Nat × Nat) := none
  rowsGone : BitVec 168 := 0
  clock : RetClock := {}
  power : RetPower := {}
  cause : BitVec 8 := 0
  causes : BitVec 16 := 0
  deriving DecidableEq, Repr

/-- A claim on the carrier management bus (R456). -/
structure Claim where
  key : BitVec 64
  round : BitVec 16
  live : Nat
  deriving DecidableEq, Repr

/-- The carrier's boot flash (R449): each record absent or failed (none), or its signed content. -/
structure Flash where
  keys : Option (List (Nat × BitVec 768)) := none
  defects : Option (List (BitVec 56 × List (Nat × Nat))) := none
  geometry : Option (List (BitVec 56 × Nat × Nat)) := none
  deriving DecidableEq, Repr

/-- What the cruise holds beyond its reticles: the flash and what was read of it, the claims, the messages under way, the
leader, the CYCLE of the switch to full clock and the tile cycle until which it withholds issue (R463), and the timers of the cruise in
wafer.time. -/
structure Cruise where
  reticles : Vector Reticle 96 := Vector.replicate 96 {}
  flash : Flash := {}
  keyBad : Bool := false
  defBad : Bool := false
  geoBad : Bool := false
  newdef : BitVec 32 := 0
  reduced : Bool := false
  busy : Bool := false
  leader : Option ReticleId := none
  round : BitVec 16 := 0
  rsel : BitVec 8 := 0
  claims : List Claim := []
  carrierRef : BitVec 4 := 0xF
  switchAt : Option (BitVec 64) := none
  holdUntil : Nat := 0
  timers : List (Nat × Auto) := []
  deriving DecidableEq, Repr

/-! ### Thaov ports (chapter 21) -/

/-- Wavelength states (Table 21-4). -/
inductive WaveSt where
  | dark | active | litIdle | parked | waking | failed
  deriving DecidableEq, Repr

/-- A wavelength at this end of its port (R481, R491, R492): whether a RESTRIPE that adds it has been sent and received since it was
last ACTIVE, whether a PARK of the peer has named it in vain, and the tag that woke it. -/
structure Wave where
  st : WaveSt := .dark
  since : Nat := 0
  addSent : Bool := false
  addSeen : Bool := false
  parkSeen : Bool := false
  waking : Option (TileId × Tag) := none
  bias : BitVec 16 := 0
  power : BitVec 16 := 0
  hrs : BitVec 32 := 0
  eol : BitVec 32 := 0xFFFFFFFF
  onTime : Nat := 0
  hourGrains : Nat := 0
  history : List (BitVec 32 × BitVec 16) := []
  corrected : BitVec 16 := 0
  uncorrected : BitVec 16 := 0
  taps : Vector Int 5 := Vector.replicate 5 0
  deriving DecidableEq, Repr

/-- Port states (Table 21-5). -/
inductive PortSt where
  | dark | training | active | degraded | failed
  deriving DecidableEq, Repr

/-- A flit that waits to be sent, with the serial of the operation of this wafer that it belongs to, if one. -/
structure OutFlit where
  flit : BitVec 1024
  op : Option Nat := none
  deriving DecidableEq, Repr

/-- A flit in the replay buffer (R478, R480): its RSEQ, how often it was sent, since which cycle it is held, the time of its last send, the
stripe set that it was first sent under, and its operation. -/
structure Replay where
  rseq : BitVec 16
  flit : BitVec 1024
  sent : Nat := 1
  since : Nat
  last : Nat
  set : BitVec 8
  op : Option Nat := none
  deriving DecidableEq, Repr

/-- A flit that left on the fibre: its transmission number and the stripe set that carries it (R473, R475); in TRAINING neither counts. -/
structure Sent where
  num : BitVec 32
  set : BitVec 8
  flit : BitVec 1024
  deriving DecidableEq, Repr

/-- An operation that left this wafer through a port and is not yet answered: its source tile, tag and serial (R164, R486). -/
structure Outbound where
  src : TileId
  tag : Tag
  serial : Nat
  wire : Nat
  deriving DecidableEq, Repr

/-- The registers of a port (Table 21-7) that hold what the host wrote. -/
structure PortRegs where
  sec : Bool := false
  devctl : Bool := false
  minw : BitVec 4 := 4
  why : BitVec 8 := 0
  purged : Bool := false
  peer : BitVec 32 := 0
  peerA : BitVec 32 := 0
  pol : BitVec 32 := 0
  rpl : BitVec 32 := 0
  rplto : BitVec 32 := 250000
  off : BitVec 32 := 0
  dly : BitVec 32 := 0
  fecth : BitVec 32 := 16
  bmax : BitVec 32 := 0xFFFFFFFF
  pmin : BitVec 32 := 0x8000
  deriving DecidableEq, Repr

/-- A Thaov port (R471 to R498): state, wavelengths, registers; its sender: transmission number, next RSEQ, stripe set in use and the
set of its last RESTRIPE, replay buffer, flits that wait, whether the peer has paused it and since when, the last new
acknowledgement, in units of 0.1 ns of wafer.time as every time here but those of the replay buffer and of the pause; its receiver: expected RSEQ, last RSEQ received in order, the peer's stripe set, the NAK under way, the last flit,
the operation being received (its flits so far and their bytes), whether it has paused the peer; identity, stamps, grains without
traffic, operations that left and are not answered, and the flits that left on the fibre, newest last. -/
structure Port where
  st : PortSt := .dark
  since : Nat := 0
  waves : Vector Wave 8 := Vector.replicate 8 {}
  regs : PortRegs := {}
  txNum : BitVec 32 := 0
  txSeq : BitVec 16 := 0
  txMask : BitVec 8 := 0
  goal : BitVec 8 := 0
  replay : List Replay := []
  sendq : List OutFlit := []
  paused : Bool := false
  pausedAt : Nat := 0
  ackAt : Nat := 0
  rxSeq : BitVec 16 := 0
  rxAck : BitVec 16 := 0xFFFF
  rxMask : BitVec 8 := 0
  nakAt : Option Nat := none
  rxAt : Nat := 0
  rxCount : Nat := 0
  rxData : Nat := 0
  pausedPeer : Bool := false
  identOk : Bool := false
  stampGot : Option (BitVec 64 × BitVec 64) := none
  stampDone : Bool := false
  idleGrains : Nat := 0
  carried : Bool := false
  outbound : List Outbound := []
  fibre : List Sent := []
  deriving DecidableEq, Repr

/-- The link state of the wafer (R485, R490, R493). route holds the VALID entries; was holds LKSTS of the ports that a link instruction has
changed in a cycle, as it stood at the cycle's start (R496). -/
structure Links where
  ports : Vector Port 64 := Vector.replicate 64 {}
  wafer : BitVec 16 := 0
  rsel : BitVec 16 := 0
  routes : List (Nat × BitVec 16) := []
  time : BitVec 7 := 0
  stepDone : Bool := false
  stepWaits : Bool := false
  lastCorr : Nat := 0
  was : List (PortId × Nat × BitVec 32) := []
  notices : List (BitVec 8 × BitVec 64 × BitVec 16 × BitVec 16 × BitVec 80) := []
  deriving DecidableEq, Repr

/-! ### Debug and paired runs (chapter 22) -/

/-- The debug state of a tile (R504, R508): watchpoints, trace control and ring. -/
structure TileDebug where
  wpAddr : Vector (BitVec 24) 16 := Vector.replicate 16 0
  wpCtl : Vector (BitVec 32) 16 := Vector.replicate 16 0
  wpHost : BitVec 16 := 0
  tctl : BitVec 32 := 0
  ring : List (Nat × BitVec 128) := []
  next : BitVec 8 := 0
  used : Nat := 0
  discards : BitVec 16 := 0
  deriving DecidableEq, Repr

/-- The partitions of a paired run (R510): width, height, the bases of the primary and of the shadow (X in [15:8], Y in [7:0]). -/
structure PairPart where
  w : Nat
  h : Nat
  primary : BitVec 16
  shadow : BitVec 16
  deriving DecidableEq, Repr

/-- A beat of a paired run that has not met its counterpart (R511), in the pair buffer when here is set: which partition, its key (relative position and ordinal), target, NT, data, and
the operation that it belongs to. -/
structure PairBeat where
  serial : Nat
  shadow : Bool
  rx : Nat
  ry : Nat
  ordinal : Nat
  addr : BitVec 80
  pa : Nat
  nt : Bool
  len : Nat
  data : Nat
  src : TileId
  op : Option Nat := none
  here : Bool := false
  deriving DecidableEq, Repr

/-- The host's debug and paired-run registers (Table 22-1), the ordinals of the external write beats of each tile, and the
beats that wait. -/
structure DebugRegs where
  dsel : BitVec 32 := 0
  dbgen : BitVec 2 := 0
  achsel : BitVec 32 := 0
  pairctl : BitVec 32 := 0
  pairp : BitVec 16 := 0
  pairs : BitVec 16 := 0
  pairto : BitVec 32 := 0x100000
  part : Option PairPart := none
  mismatch : Bool := false
  why : BitVec 2 := 0
  mva : BitVec 64 := 0
  msrc : BitVec 32 := 0
  ordinals : Counts := []
  beats : List PairBeat := []
  deriving DecidableEq, Repr

end Sys2Proof.Machine
end

