-- ==== Sys2Proof/Machine/WaferState.lean ====
section
/-! DEFINITION. What a tile holds of the wafer's objects (its life, TLB, barrier and channel stores, debug state) and what the
wafer holds beyond its tiles, as plain data (chapters 13 to 22). -/

namespace Sys2Proof.Machine

/-! ### Images and kernels (chapter 14) -/

/-- One tile program of an image (R343, R348): rectangle, bundles, trap vector, account ranges, segment table. -/
structure Program where
  xa : Nat := 0
  ya : Nat := 0
  xb : Nat := 0
  yb : Nat := 0
  bundles : List (BitVec 128) := []
  vector : Option Nat := none
  ranges : List (Nat × Nat × Nat) := []
  segments : List (Nat × Nat × BitVec 32) := []
  deriving DecidableEq, Repr

/-- A buffer of the scratchpad plan (R352). -/
structure PlanBuffer where
  prog : Nat
  bank : Nat
  offset : Nat
  size : Nat
  first : Nat
  last : Nat
  deriving DecidableEq, Repr

/-- One end of a declared channel (Table 17-1). -/
structure ChannelDecl where
  n : Nat
  sx : Nat
  sy : Nat
  rx : Nat
  ry : Nat
  win : Nat
  sw : Nat
  rw' : Nat
  yFirst : Bool := false
  deriving DecidableEq, Repr

/-- A loaded image (R343 to R353). -/
structure Image where
  handle : Nat
  gridW : Nat := 1
  gridH : Nat := 1
  profB : Bool := false
  delay : Bool := true
  compat : Bool := true
  secure : Bool := false
  writeMode : Bool := false
  programs : List Program := []
  micro : List (BitVec 64) := []
  entries : List (Nat × Nat) := []
  buffers : List PlanBuffer := []
  channels : List ChannelDecl := []
  barriers : List (Nat × Nat) := []
  scopes : List (Nat × Nat × Nat) := []
  deriving DecidableEq, Repr

/-- The states of a kernel from its dispatch on (Table 14-7). -/
inductive KState where
  | running | ending | complete
  deriving DecidableEq, Repr

/-- The states of a kernel's group (Table 15-4). -/
inductive GroupState where
  | bound | gangWait | gangStarting | gangRunning | abandoned | ended
  deriving DecidableEq, Repr

/-- A dispatched kernel (R322, R357, R370, R375): its number, queue, image and record, its fault report and its gang slice.
widths and heights are those of GRP1 to GRP4 after the record and the image (R370), zero for an undeclared level; late says that an abandon
notice has come, gangChecked that its deadline cycle has ended (R377). -/
structure Kernel where
  seq : Nat
  queue : Nat := 0
  image : Nat := 0
  record : BitVec 512 := 0
  asid : Nat := 0
  secure : Bool := false
  st : KState := .running
  status : BitVec 4 := 0
  order : Nat := 0
  widths : Vector Nat 4 := Vector.replicate 4 0
  heights : Vector Nat 4 := Vector.replicate 4 0
  faults : Nat := 0
  disc : Nat := 0
  first : Option (BitVec 8 × TileId × Tag × BitVec 14 × Bool) := none
  killAt : Option Nat := none
  group : GroupState := .bound
  gangGrace : BitVec 32 := 0
  late : Bool := false
  gangChecked : Bool := false
  endCycle : BitVec 64 := 0
  deriving DecidableEq, Repr

/-! ### Launch queues (chapter 13) -/

/-- A launch record in a queue, with the kernel that issued its LAUNCH, if one did (R342). -/
structure Queued where
  seq : Nat
  record : BitVec 512
  byKernel : Option Nat := none
  hostBad : Bool := false
  idx : BitVec 8 := 0
  deriving DecidableEq, Repr

/-- The states of a launch queue (Table 13-4). -/
inductive QState where
  | disabled | opened | stopped | flushing
  deriving DecidableEq, Repr

/-- A completion entry to write, in dispatch order (R325): the entry once the record has completed, and the increment of its SIG that is
still to be made (R323). -/
structure Completion where
  seq : Nat
  entry : Option (BitVec 256) := none
  readyAt : Nat := 0
  sig : Option (BitVec 6) := none
  deriving DecidableEq, Repr

/-- The condition read of a DISPATCHING record (R321): when it is performed, the walk it waits for, its physical address where
that is external, with the virtual one and the log2 of its page's size, and whether it fails. -/
structure CondRead where
  due : Nat
  walk : Option Nat := none
  pa : Option Nat := none
  va : Nat := 0
  shift : Nat := 16
  failed : Bool := false
  deriving DecidableEq, Repr

/-- A launch queue (R316, R329, R330). ring holds the host's record slots, cring the completion ring; each record has the slot
that it took. dispatchedAt is the cycle of the last dispatch; was is LQSTAT as it stood at the start of a cycle that changed it. -/
structure LaunchQueue where
  st : QState := .disabled
  devApp : Bool := false
  sec : Bool := false
  asid : Nat := 0
  tail : BitVec 8 := 0
  chead : BitVec 8 := 0
  ctail : BitVec 8 := 0
  recs : List Queued := []
  cond : Option CondRead := none
  due : List Completion := []
  ring : List (Nat × BitVec 512) := []
  ringBad : List Nat := []
  cring : List (Nat × BitVec 256) := []
  lastDone : Nat := 0
  dispatchedAt : Option Nat := none
  was : Option (Nat × BitVec 32) := none
  deriving DecidableEq, Repr

/-- The host registers of the launch window that have no other home (Tables 13-5, 14-4, 15 R379, 18-4, 19-5). tlbBusy, tlbNet and tlbCond are
the accesses that TLBSTAT.BUSY waits for (R426): operations of tiles, messages of other wafers, condition reads. loadUntil is the cycle up to which
a load is BUSY (R346), regBad the offsets at which the host's next write carries an uncorrectable error (R331), killed the kills that the host
began and that have been reported to it (R296). -/
structure HostRegs where
  ewdog : BitVec 32 := 0
  abortLo : BitVec 32 := 0
  abortGrace : BitVec 32 := 0x100000
  gangGrace : BitVec 32 := 0x3D090
  hstatCount : Nat := 0
  hstatLsovf : Bool := false
  hstatLast : BitVec 8 := 0
  ldsrc : BitVec 64 := 0
  ldsize : BitVec 32 := 0
  ldstat : BitVec 32 := 0
  loadUntil : Option Nat := none
  regBad : List Nat := []
  killed : List (TileId × Tag) := []
  astBase : BitVec 48 := 0
  tlbVa : BitVec 64 := 0
  tlbBusy : List Nat := []
  tlbNet : List Nat := []
  tlbCond : List (Nat × Nat) := []
  tlbBusyOn : Bool := false
  pgfRing : BitVec 48 := 0
  pgfHead : BitVec 8 := 0
  pgfTail : BitVec 8 := 0
  htBase : BitVec 48 := 0
  tsel : BitVec 16 := 0
  ceThresh : BitVec 32 := 0
  qTimeout : BitVec 32 := 0x10000
  migLast : BitVec 8 := 0
  readOut : BitVec 64 := 0
  deriving DecidableEq, Repr

/-! ### Barriers and channels on a tile (chapters 16, 17) -/

/-- The states of a barrier's home entry or mirror (R388). -/
inductive BarState where
  | uninit | opened | closed
  deriving DecidableEq, Repr

/-- A home entry (R388), with the serial number of its last notice (R391). -/
structure HomeEntry where
  kernel : Nat
  n : Nat
  level : Nat
  st : BarState := .uninit
  phase : BitVec 16 := 0
  expected : Nat := 0
  arrived : Nat := 0
  drops : Nat := 0
  notices : BitVec 16 := 0
  deriving DecidableEq, Repr

/-- A tile's mirror of a barrier (R388, R391). -/
structure Mirror where
  kernel : Nat
  n : Nat
  st : BarState := .uninit
  level : Nat := 0
  phase : BitVec 16 := 0
  notices : BitVec 16 := 0
  deriving DecidableEq, Repr

/-- A tag's view of a barrier (R387); owed says that it has arrived since its last BARWAIT issued (R398). -/
structure View where
  kernel : Nat
  tag : Tag
  n : Nat
  v : BitVec 16 := 0
  dropped : Bool := false
  owed : Bool := false
  deriving DecidableEq, Repr

/-- A barrier request at its home (R389, R393): fn 0 init, 1 arrival, 2 drop; src and serial name the request. -/
structure BarRequest where
  kernel : Nat
  n : Nat
  fn : BitVec 2
  level : Nat
  count : Nat
  view : BitVec 16
  src : TileId
  tag : Tag
  serial : Nat
  at' : Nat
  deriving DecidableEq, Repr

/-- The barrier store of a tile (R387): for the kernels it holds, home entries, mirrors, views; requests waiting at
home, and the cycle in which it last applied one (R390). -/
structure BarStore where
  kernels : List Nat := []
  homes : List HomeEntry := []
  mirrors : List Mirror := []
  views : List View := []
  requests : List BarRequest := []
  applied : Option Nat := none
  deriving DecidableEq, Repr

/-- The states of a channel end (Table 17-2). -/
inductive EndState where
  | closed | opened | revoked | peerClosed | lost
  deriving DecidableEq, Repr

/-- A message held at a receive end (R404). -/
structure ChanMsg where
  data : Vec
  poison : Bool
  deriving DecidableEq, Repr

/-- A channel end on a tile (R404). Of a peer on another wafer: farOpen says that the peer's end is open, farTaken counts the messages that it has taken
and not given credit for, farKernel is the peer kernel that the end is bound to (R407). -/
structure ChanEnd where
  kernel : Nat
  n : Nat
  send : Bool
  win : Nat
  peer : TileId
  peerWafer : Nat
  st : EndState := .closed
  tag : Option Tag := none
  credit : Nat := 0
  held : List ChanMsg := []
  drops : BitVec 16 := 0
  farOpen : Bool := false
  farTaken : Nat := 0
  farKernel : Option Nat := none
  deriving DecidableEq, Repr

/-! ### Pages (chapter 18) -/

/-- A TLB entry (R423): a MAPPED or PINNED leaf of 2^shift bytes. -/
structure TlbEntry where
  asid : Nat
  secWorld : Bool
  vpn : Nat
  shift : Nat
  pa : Nat
  pinned : Bool
  w : Bool
  sec : Bool
  bad : Bool := false
  deriving DecidableEq, Repr

/-- Who asked for a page walk (R423, R429): a remote operation of a tile, a page instruction of a tag, or a condition read. -/
inductive Walker where
  | op (src : TileId) (serial : Nat)
  | probe (src : TileId) (tag : Tag) (touch write : Bool)
  | cond (q : QueueId)
  deriving DecidableEq, Repr

/-- A page walk on its way. -/
structure Walk where
  serial : Nat
  due : Nat
  who : Walker
  va : BitVec 80
  asid : Nat
  secWorld : Bool
  write : Bool
  src : TileId
  deriving DecidableEq, Repr

/-! ### The network -/

/-- What a message carries. Operations and their answers name the tag and the serial number of the operation at its
source (R164); channel items name kernel and channel (R405); farTurn is the next act, free in kind
and time, of an end's peer on another wafer; hold and resume notices name the coordinate (R440). -/
inductive MsgBody where
  | op (o : RemoteOp)
  | unit (tag : Tag) (serial : Nat) (entry : RqEntry) (last : Bool)
  | done (tag : Tag) (serial : Nat) (fail : Option RqEntry)
  | chanMsg (o : RemoteOp)
  | grant (kernel : Nat) (ch : Nat) (flits : Nat)
  | credit (kernel : Nat) (ch : Nat)
  | openNotice (kernel : Nat) (ch : Nat)
  | closeNotice (kernel : Nat) (ch : Nat)
  | revoke (kernel : Nat) (ch : Nat)
  | farTurn (kernel : Nat) (ch : Nat) (send : Bool)
  | hmsg (o : RemoteOp)
  | barRequest (r : BarRequest)
  | verdict (tag : Tag) (serial : Nat) (v : Verdict)
  | barNotice (kernel n level : Nat) (st : BarState) (phase count : BitVec 16)
  | hold (c : TileId) (serial : Nat)
  | resume (c : TileId)
  deriving DecidableEq, Repr

/-- A message in the network (R26): it arrives when due. held says that a migrating coordinate has refused it (R440), returned
counts how often a channel item came back (R407), far that it came from another wafer. -/
structure Msg where
  serial : Nat
  due : Nat
  src : TileId
  dst : TileId
  body : MsgBody
  poison : Bool := false
  held : Bool := false
  returned : Nat := 0
  far : Bool := false
  deriving DecidableEq, Repr

/-! ### Tiles (chapter 19) -/

/-- The states of a tile (Table 19-1). -/
inductive TileSt where
  | spare | live | quiesced | migrating | retired
  deriving DecidableEq, Repr

/-- A pass of the scrubber (R443). -/
structure ScrubPass where
  beat : Nat := 0
  began : Nat := 0
  late : Bool := false
  overdue : Bool := false
  deriving DecidableEq, Repr

/-- The life of a tile: state, physical place, worlds and waiting changes, corrected errors (in all, in this grain and in the last) and whether those
of this grain have asked for a migration, the
scrub passes, the PRIO 0 cycles counted while one is late, uncorrectable beats found, causes recorded (R434, R443 to R447). -/
structure TileLife where
  st : TileSt := .retired
  px : Nat := 0
  py : Nat := 0
  secure : Bool := false
  wssec : BitVec 32 := 0
  wantSecure : Option Bool := none
  wantWssec : Option (BitVec 32) := none
  ceCount : BitVec 32 := 0
  ceGrain : Nat := 0
  ceLast : Nat := 0
  ceTold : Bool := false
  scrubTurn : Nat := 0
  sram : ScrubPass := {}
  wst : ScrubPass := {}
  uncorrected : Nat := 0
  causes : List (BitVec 8) := []
  deriving DecidableEq, Repr

/-- What a tile holds of barriers, channels, handler messages and translations. -/
structure TileStores where
  bars : BarStore := {}
  chans : List ChanEnd := []
  handlers : List HandlerEntry := []
  tlb : List TlbEntry := []
  deriving DecidableEq, Repr

/-- The phases of a migration (Table 19-3). -/
inductive MigPhase where
  | settle | copy | check | rewrite | resume
  deriving DecidableEq, Repr

/-- The migration that runs (R438 to R442): coordinate, the spare's physical place, phase and the cycle it began in, the cycle in which
it may go on, whether its CRC has failed once, the spares that have failed, the region quiesced, whether its drain has been told
late, the cycle in which the account store is read and what was read with the account that R303 named then and the range of its PC, whether a copy has been
made before, and whether it only takes the paths round a retired tile (R435). -/
structure Migration where
  c : TileId
  px : Nat
  py : Nat
  phase : MigPhase := .settle
  since : Nat := 0
  due : Nat := 0
  retried : Bool := false
  failed : List (Nat × Nat) := []
  region : List TileId := []
  timedOut : Bool := false
  acctAt : Nat := 0
  acct : Option (Accounts × Nat × Nat) := none
  copied : Bool := false
  retireOnly : Bool := false
  deriving DecidableEq, Repr

/-- A neighbour path that a rewrite has written (R431, R435): it leads from the router of a coordinate to that of another over links physical links,
by places where these are known; span is the logical hops that it stands for, two where it goes round a retired tile. The paths that the
cruise wrote are not listed. -/
structure NeighbourPath where
  at' : TileId
  far : TileId
  links : Nat
  span : Nat := 1
  places : List (Nat × Nat) := []
  deriving DecidableEq, Repr

/-- A spare (R19, R443): its place, its memories and its scrub passes. -/
structure SpareTile where
  px : Nat
  py : Nat
  mem : TileMem := {}
  sram : ScrubPass := {}
  wst : ScrubPass := {}
  deriving DecidableEq, Repr

/-- The wafer. -/
structure Wafer where
  cycle : BitVec 64 := 0
  gradeB : Bool := false
  gridH : Nat := 0
  queues : Vector LaunchQueue 16 := Vector.replicate 16 {}
  ls : Vector (BitVec 16) 64 := Vector.replicate 64 0
  lsInc : Vector Nat 64 := Vector.replicate 64 0
  nextSeq : Nat := 1
  nextOrder : Nat := 0
  images : List Image := []
  kernels : List Kernel := []
  host : HostRegs := {}
  ext : Store := {}
  net : List Msg := []
  walks : List Walk := []
  nextMsg : Nat := 0
  map : List (TileId × Nat × Nat) := []
  spares : List (Nat × Nat) := []
  retired : List (Nat × Nat) := []
  paths : List NeighbourPath := []
  spareMem : List SpareTile := []
  migration : Option Migration := none
  migWaiting : List (TileId × Bool) := []
  cruise : Cruise := {}
  links : Links := {}
  dbg : DebugRegs := {}
  time : Nat := 0
  deriving DecidableEq, Repr

end Sys2Proof.Machine
end

