-- ==== Sys2Proof/Machine/State.lean ====
section
/-! DEFINITION. The state of the modelled wafer, its faults and refusals, and the state after reset. -/

namespace Sys2Proof.Machine

/-- One logical tile (R20, R21, R250): its coordinates, life, memories, contexts by tag, core, engines, ports' queues,
accounts, kernels present and debug state. -/
structure Tile where
  at' : TileId := ⟨0, 0⟩
  life : TileLife := {}
  mem : TileMem := {}
  ctxs : Vector Context 8 := Vector.replicate 8 {}
  core : Core := {}
  mx : MatrixEngine := {}
  row : BlockEngine := {}
  cpy : BlockEngine := {}
  cut : List BlockRun := []
  pushes : List WaitingPush := []
  netq : List RemoteOp := []
  acct : Accounts := {}
  kernels : List TileKernel := []
  stores : TileStores := {}
  dbg : TileDebug := {}
  deriving DecidableEq, Repr

/-- The phases in which a slot's meaning is asked (Step says which): single runs the bundle that holds only it; gather
collects stalls and failing checks; commit has its effects; late has those that follow the other slots'. -/
inductive Phase where
  | single | gather | commit | late
  deriving DecidableEq, Repr

/-- The barrier request that a bundle makes (R393): fn 0 init, 1 arrival, 2 drop; the level of its home, the count of an init. -/
structure BarAsk where
  fn : BitVec 2
  n : BitVec 6
  level : Nat
  count : Nat
  deriving DecidableEq, Repr

/-- The bundle being attempted (R275): its header, what its slots collected, and what its issue will do. -/
structure Issue where
  phase : Phase := .single
  header : BitVec 32 := 0
  uses : Vector SlotUse 4 := Vector.replicate 4 .empty
  waits : List WaitCond := []
  fails : List (Nat × BitVec 8) := []
  transfer : Option (BitVec 32) := none
  loop : Option (Fin 4 × BitVec 32 × Nat) := none
  popped : List (Fin 8 × Vec × Bool) := []
  parks : Bool := false
  rett : Bool := false
  segchk : Bool := false
  blockBanks : List Nat := []
  memBanks : List Nat := []
  words : BitVec 128 := 0
  watch : List (Nat × Nat) := []
  reserved : BitVec 64 := 0
  tlbDrop : List TlbEntry := []
  unmark : Bool := false
  timed : Bool := false
  ask : Option BarAsk := none
  refused : Bool := false
  deriving DecidableEq, Repr

/-- What the machine does next: an event that comes from outside (a step of the table), a due step of its own, a tile's
seats put in order for a cycle, its issue attempt in a seat, its engine work, the network's arrivals of a cycle (those at accumulators, or
the others), or what the link ports do of themselves. -/
inductive Turn where
  | event (i : Instr)
  | auto (a : Auto)
  | seats (c : TileId)
  | attempt (c : TileId) (seat : Fin 2)
  | engines (c : TileId)
  | arrivals (acc : Bool)
  | ports
  deriving DecidableEq, Repr

/-- The whole modelled machine. tile is the tile in focus, others every other tile that anything has touched (an untouched
tile is Tile.fresh); tag is the context in focus on it. now counts tile clock cycles since power-on and orders what is due;
CYCLE itself is in wafer. fresh numbers the free values used so far (Config.freeValue). -/
structure State where
  tile : Tile := {}
  others : List Tile := []
  tag : Tag := 0
  issue : Issue := {}
  wafer : Wafer := {}
  now : Nat := 0
  agenda : List Turn := []
  timers : List (Nat × Auto) := []
  fresh : Nat := 0
  deriving DecidableEq, Repr

/-- Why the model stops with a fault. -/
inductive Fault where
  /-- an access to external physical memory beyond the 1.5 TiB that the edge holds (R515), raised by an event that carries
  such an address; safe: the spec gives no such location -/
  | noSuchAddress (a : Nat)
  deriving DecidableEq, Repr

/-- Why the model refuses a step. -/
inductive Refusal where
  /-- the instruction has no meaning in this model yet; safe -/
  | notModelled (mnemonic : String)
  deriving DecidableEq, Repr

/-- The machine right after power-on (R448, R449): every field at its reset value. -/
def State.reset : State := {}

end Sys2Proof.Machine
end

