-- ==== Sys2Proof/Machine/Access.lean ====
section
/-! DEFINITION. The accessors of State: the tile and context in focus, registers with their hard-wired members (R80, R251),
pending writes and their landing (R82 to R84), the kernel, image and program of a context, free values. -/

namespace Sys2Proof.Machine

/-! ### Registers -/

/-- A g register; g0 reads zero and never holds poison (R80). -/
def Regs.getG (r : Regs) (i : BitVec 5) : Reg 32 := if i = 0 then {} else r.g[i.toNat]'(show i.toNat < 32 from i.isLt)
/-- A p register; p0 is true and never holds poison (R80, R251). -/
def Regs.getP (r : Regs) (i : BitVec 3) : Reg 1 := if i = 0 then { val := 1 } else r.p[i.toNat]'(show i.toNat < 8 from i.isLt)
def Regs.getV (r : Regs) (i : BitVec 4) : Reg 4096 := r.v[i.toNat]'(show i.toNat < 16 from i.isLt)
/-- An m register; m0 is all ones and never holds poison (R80, R251). -/
def Regs.getM (r : Regs) (i : BitVec 3) : Reg 128 := if i = 0 then { val := fullMask } else r.m[i.toNat]'(show i.toNat < 8 from i.isLt)
def Regs.getX (r : Regs) (i : BitVec 3) : Reg 64 := r.x[i.toNat]'(show i.toNat < 8 from i.isLt)
def Regs.getH (r : Regs) (i : BitVec 3) : Reg 96 := r.h[i.toNat]'(show i.toNat < 8 from i.isLt)
def Regs.getD (r : Regs) (i : BitVec 3) : BitVec 32 := r.d[i.toNat]'(show i.toNat < 8 from i.isLt)

/-- The poison bit of a register. -/
def Regs.poisoned (r : Regs) : RegRef → Bool
  | .g i => (r.getG i).poison
  | .p i => (r.getP i).poison
  | .v i => (r.getV i).poison
  | .m i => (r.getM i).poison
  | .x i => (r.getX i).poison
  | .h i => (r.getH i).poison

/-- A result written to its register: a write to g0, p0 or m0 is discarded (R83); a masked vector write touches only the
enabled lanes, and sets or leaves the poison bit as R119 gives. -/
def Regs.write (r : Regs) (w : RegWrite) (poison : Bool) : Regs :=
  match w with
  | .g i v => if i = 0 then r else { r with g := r.g.set i.toNat { val := v, poison := poison } (show i.toNat < 32 from i.isLt) }
  | .p i v => if i = 0 then r else { r with p := r.p.set i.toNat { val := boolBit v, poison := poison } (show i.toNat < 8 from i.isLt) }
  | .v i v mask whole =>
    let old := r.getV i
    let new : Reg 4096 :=
      { val := if mask = fullMask then v else mergeLanes mask old.val v,
        poison := if whole then poison else poison || old.poison }
    { r with v := r.v.set i.toNat new (show i.toNat < 16 from i.isLt) }
  | .m i v => if i = 0 then r else { r with m := r.m.set i.toNat { val := v, poison := poison } (show i.toNat < 8 from i.isLt) }
  | .x i v => { r with x := r.x.set i.toNat { val := v, poison := poison } (show i.toNat < 8 from i.isLt) }
  | .h i v => { r with h := r.h.set i.toNat { val := v, poison := poison } (show i.toNat < 8 from i.isLt) }

/-! ### Pending writes (R82 to R84) -/

/-- Whether pending write a resolves no later than b: producing bundle first, then slot (R83). -/
def Pending.le (a b : Pending) : Bool := decide (a.serial < b.serial) || (a.serial == b.serial && decide (a.slot ≤ b.slot))

/-- A pending write put in its place in resolution order. -/
def insertPending (p : Pending) : List Pending → List Pending
  | [] => [p]
  | q :: r => if q.le p then q :: insertPending p r else p :: q :: r

/-- Every write of a list landed in order (R83). -/
def landAll (r : Regs) : List Pending → Regs
  | [] => r
  | p :: ps => landAll (r.write p.write p.poison) ps

/-- The writes that land at the start of the bundle about to issue (R82): those with one issued bundle still to pass. -/
def dueNow (ps : List Pending) : List Pending := ps.filter (fun p => decide (p.remain ≤ 1))

/-- The context as the bundle about to issue reads it: due writes landed, the others one bundle nearer. -/
def Context.landed (c : Context) : Context :=
  { c with regs := landAll c.regs (dueNow c.pending),
           pending := (c.pending.filter (fun p => decide (1 < p.remain))).map (fun p => { p with remain := p.remain - 1 }) }

/-- The context with every pending write landed at once (R84 at trap entry, R270). -/
def Context.landedAll (c : Context) : Context := { c with regs := landAll c.regs c.pending, pending := [] }

/-- The last cycle in which a pending write's value comes from its unit. -/
def lastArrival : List Pending → Nat
  | [] => 0
  | p :: ps => max p.arrive (lastArrival ps)

/-! ### Focus -/

/-- The context in focus. -/
def State.ctx (s : State) : Context := s.tile.ctxs[s.tag.val]'s.tag.isLt

/-- The context in focus replaced. -/
def State.setCtx (s : State) (c : Context) : State :=
  { s with tile := { s.tile with ctxs := s.tile.ctxs.set s.tag.val c s.tag.isLt } }

/-- The context in focus changed by f. -/
def State.modCtx (s : State) (f : Context → Context) : State := s.setCtx (f s.ctx)

/-- The tile in focus changed by f. -/
def State.modTile (s : State) (f : Tile → Tile) : State := { s with tile := f s.tile }

/-- The core of the tile in focus changed by f. -/
def State.modCore (s : State) (f : Core → Core) : State := s.modTile (fun t => { t with core := f t.core })

/-- The wafer changed by f. -/
def State.modWafer (s : State) (f : Wafer → Wafer) : State := { s with wafer := f s.wafer }

/-- The context of a tag of a tile. -/
def Tile.ctx (t : Tile) (k : Tag) : Context := t.ctxs[k.val]'k.isLt

/-- The context of a tag of a tile changed by f. -/
def Tile.modCtx (t : Tile) (k : Tag) (f : Context → Context) : Tile :=
  { t with ctxs := t.ctxs.set k.val (f (t.ctx k)) k.isLt }

/-- The tile at c among those not in focus. -/
def findTile (c : TileId) : List Tile → Option Tile
  | [] => none
  | t :: r => if t.at' = c then some t else findTile c r

/-- The reticle of a physical place (R15, R16): 12 x field row + field column. -/
def reticleOf (px py : Nat) : ReticleId := Fin.ofNat 96 (12 * (py / 21) + px / 16)

/-- A scrub pass of so many beats that has kept its pace (R443): n cycles are its deadline. -/
def onTimePass (beats n now : Nat) : ScrubPass := { beat := now % n * beats / n, began := now - now % n }

/-- The accounts of a tile of which no context has run since its reticle was READY: four charges in each cycle to the tile account, THROTTLE
where issue was withheld, else IDLE (R303, R304). -/
def freshAccounts (k : RetClock) : Accounts :=
  let put (c : Counts) (cause n : Nat) : Counts := if n = 0 then c else c.put (8 * 2048 + 63 * 32 + cause) n
  { t0 := k.liveAt, counts := put (put [] 21 (4 * k.throttled)) 23 (4 * (k.ran - k.throttled)) }

/-- A tile that nothing has touched: LIVE where the map places it (Table 19-1), with its accounts counted from there and its scrub
passes on time. -/
def State.freshTile (s : State) (c : TileId) : Tile :=
  match s.wafer.map.find? (fun e => e.1 == c) with
  | some (_, px, py) =>
    let k := (s.wafer.cruise.reticles[reticleOf px py]).clock
    { at' := c, acct := freshAccounts k,
      life := { st := .live, px := px, py := py, sram := onTimePass 41216 80000000 s.now,
                wst := onTimePass 262144 1250000000 s.now } }
  | none => { at' := c }

/-- Focus moved to the tile at c. -/
def State.focus (s : State) (c : TileId) : State :=
  if s.tile.at' = c then s
  else
    let t := (findTile c s.others).getD (s.freshTile c)
    { s with tile := t, others := s.tile :: s.others.filter (fun u => u.at' ≠ c) }

/-- Focus moved to a tag of the tile in focus. -/
def State.focusTag (s : State) (k : Tag) : State := { s with tag := k }

/-- The tile at c, in focus or not. -/
def State.tileAt (s : State) (c : TileId) : Tile :=
  if s.tile.at' = c then s.tile else (findTile c s.others).getD (s.freshTile c)

/-- The tile at c changed by f, the focus kept. -/
def State.modTileAt (s : State) (c : TileId) (f : Tile → Tile) : State :=
  if s.tile.at' = c then s.modTile f
  else { s with others := f ((findTile c s.others).getD (s.freshTile c)) :: s.others.filter (fun u => u.at' ≠ c) }

/-- Every tile that anything has touched. -/
def State.tiles (s : State) : List Tile := s.tile :: s.others

/-- Every touched tile changed by f. -/
def State.mapTiles (s : State) (f : Tile → Tile) : State := { s with tile := f s.tile, others := s.others.map f }

/-! ### Kernels, images, programs -/

/-- A dispatched kernel by its sequence number. -/
def Wafer.kernel? (w : Wafer) (seq : Nat) : Option Kernel := w.kernels.find? (fun k => k.seq == seq)

/-- A loaded image by its handle. -/
def Wafer.image? (w : Wafer) (h : Nat) : Option Image := w.images.find? (fun i => i.handle == h)

/-- A kernel of the wafer changed by f. -/
def Wafer.modKernel (w : Wafer) (seq : Nat) (f : Kernel → Kernel) : Wafer :=
  { w with kernels := w.kernels.map (fun k => if k.seq = seq then f k else k) }

/-- The image of a kernel. -/
def Wafer.imageOf (w : Wafer) (seq : Nat) : Option Image := (w.kernel? seq).bind (fun k => w.image? k.image)

/-- The tile program of an image at a logical tile (R348). -/
def Image.programAt (i : Image) (c : TileId) : Option Program :=
  i.programs.find? (fun p => decide (p.xa ≤ c.x) && decide (c.x ≤ p.xb) && decide (p.ya ≤ c.y) && decide (c.y ≤ p.yb))

/-- A program whose window a world change has zeroed (R446): NOP bundles, as many as before. -/
def Program.zeroed (p : Program) : Program := { p with bundles := p.bundles.map (fun _ => 0) }

/-- The program of a context of kernel seq at a tile (R348, R446). -/
def State.programOf (s : State) (seq : Nat) : Option Program :=
  (s.wafer.imageOf seq).bind (fun i =>
    (i.programAt s.tile.at').map (fun p => if s.tile.mem.wiped.contains i.handle then p.zeroed else p))

/-- The program of the context in focus. -/
def State.program (s : State) : Option Program := s.programOf s.ctx.life.kernel

/-- The window length L of the context in focus, in bundles (R62, R349). -/
def State.windowLen (s : State) : Nat := (s.program.map (fun p => p.bundles.length)).getD 0

/-- Whether the context's image declares profile B (R85). -/
def State.declaredB (s : State) : Bool := ((s.wafer.imageOf s.ctx.life.kernel).map (fun i => i.profB)).getD false

/-- The rows of Table 3-11 whose latency differs between the profiles, and the others. -/
inductive Lat where
  | n (k : Nat) | spad | acc | wst
  deriving DecidableEq, Repr

/-- A latency in issued bundles (Table 3-11). -/
def Lat.cycles (l : Lat) (profB : Bool) : Nat :=
  match l with
  | .n k => k
  | .spad => if profB then 6 else 4
  | .acc => if profB then 8 else 6
  | .wst => if profB then 14 else 12

/-- A result of the bundle that issues, to land after its latency (R82, R85). -/
def State.pend (s : State) (slot : Nat) (l : Lat) (w : RegWrite) (poison : Bool) : State :=
  let p : Pending :=
    { write := w, poison := poison, remain := l.cycles s.declaredB, arrive := s.now + l.cycles s.wafer.gradeB,
      serial := s.ctx.serial, slot := slot }
  s.modCtx (fun c => { c with pending := insertPending p c.pending })

/-! ### CYCLE -/

/-- The epoch start of every LIVE tile of the reticles that p selects moved by d counts, with a correction that adds to or takes from their
CYCLE: the identity of R307 counts cycles that have run: DEDUCED, unsafe, log 171. -/
def State.moveEpochs (s : State) (p : ReticleId → Bool) (d : Int) : State :=
  let e : BitVec 64 := BitVec.ofInt 64 d
  let on (t : Tile) : Bool := p (reticleOf t.life.px t.life.py)
  let copied (g : Migration) : Migration :=
    if on (s.tileAt g.c) then { g with acct := g.acct.map (fun x => ({ x.1 with t0 := x.1.t0 + e }, x.2)) } else g
  let s := s.modWafer (fun w => { w with migration := w.migration.map copied, cruise := { w.cruise with
    reticles := Vector.ofFn (fun q =>
      let x := w.cruise.reticles[q]
      if p q then { x with clock := { x.clock with liveAt := x.clock.liveAt + e } } else x) } })
  s.mapTiles (fun t => if on t then { t with acct := { t.acct with t0 := t.acct.t0 + e } } else t)

/-- CYCLE as the tile in focus reads it (R34): the wafer's count and the departure of its reticle (R461). -/
def State.cycle (s : State) : BitVec 64 :=
  s.wafer.cycle + BitVec.ofInt 64 (s.wafer.cruise.reticles[reticleOf s.tile.life.px s.tile.life.py]).clock.skew

/-! ### Free values -/

/-- The next free value, as a w-bit number, and the state that has used it. -/
def State.freeVal (s : State) (w : Nat) : BitVec w × State :=
  (BitVec.ofNat w (Config.freeValue s.fresh), { s with fresh := s.fresh + 1 })

/-- The next free delay, at least one cycle. -/
def State.freeDelay (s : State) : Nat × State := (Config.delay s.fresh + 1, { s with fresh := s.fresh + 1 })

/-- A step of the machine put on the timer list. -/
def State.timer (s : State) (due : Nat) (a : Auto) : State := { s with timers := s.timers ++ [(due, a)] }

end Sys2Proof.Machine
end

