-- ==== Sys2Proof/Machine/Waits.lean ====
section
/-! DEFINITION. The conditions that keep a bundle from issuing (Table 10-2): engine locks, bank use, refresh, units of the
scratchpad plan, queues, ordering waits; when each holds, the cause it charges, whether it ends the block. -/

namespace Sys2Proof.Machine

/-! ### Locks (R143, R217) -/

/-- Word k of a 32-byte command or parameter block. -/
def blkWord (b : BitVec 256) (k : Nat) : BitVec 32 := b.extractLsb' (32 * k) 32

/-- The local memory of a space code of Tables 8-3 and 8-7; none for external and reserved codes. -/
def spaceOf (code : Nat) : Option Space :=
  match code with
  | 0 => some .spad | 1 => some .acc | 2 => some .wst | _ => none

/-- The source and destination locks of a row or copy command, from its block (Tables 8-3, 8-7). -/
def BlockCmd.locks (c : BlockCmd) : List Lock :=
  let e : Engine := match c.form with | .smax => .row | .norm => .row | _ => .copy
  let b := c.block
  let src := (blkWord b 0).toNat
  let dst := (blkWord b 1).toNat
  let mk (code base : Nat) (stride : BitVec 32) (rows len : Nat) (dest : Bool) : List Lock :=
    match spaceOf code with
    | some sp => [{ engine := e, order := c.order, sp := sp, base := base, stride := stride.toInt, rows := rows, len := len, dest := dest }]
    | none => []
  match c.form with
  | .smax | .norm =>
    let n := fieldNat (blkWord b 2) 13 0
    let rows := fieldNat (blkWord b 2) 31 16
    let ctl := (blkWord b 7).toNat
    mk (src / 2 ^ 29) (src % 2 ^ 24) (blkWord b 3) rows (n * if ctl.testBit 30 then 2 else 4) false
      ++ mk (dst / 2 ^ 29) (dst % 2 ^ 24) (blkWord b 4) rows (n * if ctl.testBit 29 then 2 else 4) true
  | .cpy | .cpyx | .cpyf =>
    let len := fieldNat (blkWord b 2) 24 0
    let rows := fieldNat (blkWord b 3) 15 0
    (if c.form = .cpyf then [] else mk (src / 2 ^ 29) (src % 2 ^ 24) (blkWord b 4) rows len false)
      ++ mk (dst / 2 ^ 29) (dst % 2 ^ 24) (blkWord b 5) rows len true

/-- Whether a lock covers a byte of the n bytes at a. -/
def Lock.covers (l : Lock) (a n : Nat) : Bool :=
  (List.range l.rows).any (fun i =>
    decide (l.base + l.stride * i < a + n) && decide ((a : Int) < l.base + l.stride * i + l.len))

/-- The lock of rows of bytes of a matrix command. -/
def matrixLock (order : Nat) (sp : Space) (base : Int) (stride : Int) (rows len : Nat) (dest : Bool) : Lock :=
  { engine := .matrix, order := order, sp := sp, base := base, stride := stride, rows := rows, len := len, dest := dest }

/-- The width in bits of a lay code (Table 3-4): VP2 to VP16, BQ2 to BQ16. -/
def layBits (l : BitVec 5) : Nat := if l.toNat ≤ 14 then l.toNat + 2 else 2 ^ (l.toNat - 15)
/-- Whether a lay code is block-quantised. -/
def layBq (l : BitVec 5) : Bool := decide (16 ≤ l.toNat)

/-- CSZ, the bytes of a weight column's image (R175). -/
def LoadSource.csz (x : LoadSource) : Nat := 64 * layBits x.wl + (if layBq x.wl then 64 else 0) + (if x.sp = 0 then 0 else 192)

/-- The bytes that a LOADW locks against stores. -/
def LoadSource.lock (x : LoadSource) (order : Nat) : Lock :=
  matrixLock order (if x.memsel then .wst else .spad) x.base.toNat 0 1 (x.csz * (x.nc.toNat + 1)) false

/-- The bytes of an operand row's planes (Table 7-2). -/
def planeBytes (df : BitVec 2) (ol : BitVec 5) : Nat := if df = 1 then 64 * ((layBits ol + 7) / 8) else 64 * layBits ol

/-- The ranges of row i of a STREAM's operand: its planes by sub-row (subs of them), its exponent beat. -/
def StreamRun.rowReads (x : StreamRun) (subs i : Nat) : List (Int × Nat) :=
  let row : Int := x.base + x.stride * i
  let p := planeBytes x.df x.ol
  (List.range subs).map (fun (k : Nat) => ((row + ((k * x.sb * 0x20000 : Nat) : Int), p) : Int × Nat))
    ++ (if layBq x.ol then [(row + (if x.xo = 0 then (p : Int) else x.xo * 64), 64)] else [])

/-- The ranges that row i of a STREAM reads: its operand's, then its G row. -/
def StreamRun.reads (x : StreamRun) (subs i : Nat) : List (Int × Nat) :=
  x.rowReads subs i ++ (if x.df = 2 then [(((x.out + 64 * i : Nat) : Int), 64)] else [])

/-- Words written for each operand row (Table 7-3). -/
def rowWords (df : BitVec 2) (w : WeightTile) : Nat :=
  if df = 1 then 512 else if w.dw then 128 else if layBits w.wl = 16 then 32 else 64

/-- Sub-rows of an operand row under sparsity (R174): 8 / N. -/
def subRows (sp : BitVec 2) : Nat := 2 ^ sp.toNat

/-- The bytes that a STREAM locks: sources against stores, outputs against reads and stores. -/
def StreamRun.locks (x : StreamRun) (w : WeightTile) (order : Nat) : List Lock :=
  (x.rowReads (if x.df = 0 then subRows w.sp else 1) 0).map (fun r => matrixLock order .spad r.1 x.stride x.rows r.2 false)
    ++ [if x.df = 2 then matrixLock order .spad x.out 64 x.rows 64 false
        else matrixLock order .acc x.out 0 1 (x.rows * 4 * rowWords x.df w) true]

/-- Whether a lock of an ended microinstruction is still held. -/
def MatrixRun.keeps (r : MatrixRun) (now : Nat) (l : MicroLock) : Bool :=
  if l.lock.dest then r.outs.any (fun o => o.mi == l.mi) else decide (now ≤ l.until')

/-- Whether q0, q1 or q2 of a tag can take an entry now, behind those that wait for it. -/
def Tile.rqRoom (t : Tile) (k : Tag) (q : Fin 4) : Bool :=
  decide (((t.ctx k).rq[q]).length < 8) && t.pushes.all (fun p => !(p.tag == k && p.q == q))

/-- Whether the entry that an engine waits with can enter its queue now, behind those that came before it (R337). -/
def Tile.markGoes (t : Tile) (e : Engine) : Bool :=
  match t.pushes.find? (fun p => p.engine == some e) with
  | none => true
  | some m =>
    decide (((t.ctx m.tag).rq[m.q]).length
      + ((t.pushes.takeWhile (fun p => p.engine != some e)).filter (fun p => p.tag == m.tag && p.q == m.q)).length < 8)

/-- Whether a running row or copy command completes in this cycle, in which its locks are released (R214): its last write has been made, and
its mark, if it has one, can enter its result queue. -/
def Tile.completes (t : Tile) (now : Nat) (e : Engine) (r : BlockRun) : Bool :=
  let q : Fin 4 := if e = .copy then 2 else 1
  r.fault.isNone && (match r.doneAt with | some d => decide (d ≤ now) | none => false)
    && (if !(blkWord r.cmd.block 7).toNat.testBit 31 then true else if r.marked then t.markGoes e else t.rqRoom r.cmd.tag q)

/-- Every lock held on the tile (R143): row and copy commands from issue to end, matrix locks until their last access. -/
def Tile.locks (t : Tile) (now : Nat) : List Lock :=
  let blk (e : Engine) (b : BlockEngine) : List Lock :=
    (match b.run with | some r => if t.completes now e r then [] else r.cmd.locks | none => []) ++ b.queue.flatMap BlockCmd.locks
  let mx := match t.mx.run with
    | some r => (r.locks.filter (r.keeps now)).map (·.lock)
        ++ (match r.load with | some l => [l.src.lock r.cmd.order] | none => [])
        ++ (match r.stream with | some x => x.locks t.mx.active r.cmd.order | none => [])
    | none => match t.mx.preload with | some l => [l.src.lock 0] | none => []
  mx ++ blk .row t.row ++ blk .copy t.cpy

/-- Whether n bytes at a touch source bytes that an HMSG has not read yet (R416): its source stands in b0, its beats in units. -/
def RemoteOp.unread (o : RemoteOp) (a n : Nat) : Bool :=
  o.kind == .hmsg && decide (o.b0.toNat + 64 * o.bytes.length < a + n) && decide (a < o.b0.toNat + 64 * o.units)

/-- Whether a core access of n bytes at a is free of locks: a load conflicts with destination bytes, a store with any. -/
def Tile.lockFree (t : Tile) (now : Nat) (sp : Space) (a n : Nat) (write : Bool) : Bool :=
  (t.locks now).all (fun l => !(l.sp == sp && (write || l.dest) && l.covers a n))
  && (!write || sp != .spad || t.netq.all (fun o => !o.unread a n))

/-! ### Units of the plan (R352, R359, R362) -/

/-- The units that n bytes at a of a space touch: banks 0 to 15, regions 16 to 79. The weight store has none. -/
def unitsOf (sp : Space) (a n : Nat) : List Nat :=
  match sp with
  | .spad => (List.range 16).filter (fun b => decide (b * 0x20000 < a + n) && decide (a < (b + 1) * 0x20000))
  | .acc => ((List.range 64).filter (fun r => decide (r * 4096 < a + n) && decide (a < (r + 1) * 4096))).map (· + 16)
  | .wst => []

/-- The state of a unit for a kernel on a tile; none is UNPLANNED. -/
def Tile.unitState (t : Tile) (kernel u : Nat) : Option UnitState :=
  (t.kernels.find? (fun k => k.kernel == kernel)).bind (fun k => assocGet k.units u)

/-- Whether a unit is PENDING for a kernel (a unit being zeroed for it is not HELD yet, R361). -/
def Tile.unitPending (t : Tile) (kernel u : Nat) : Bool :=
  match t.unitState kernel u with
  | some .pending => true | some (.zeroing _) => true | _ => false

/-- Whether a unit is RELEASED or UNPLANNED for a kernel. -/
def Tile.unitForeign (t : Tile) (kernel u : Nat) : Bool :=
  match t.unitState kernel u with
  | none => true | some .released => true | _ => false

/-! ### Banks (R142, R144) -/

/-- The bank of an accumulator offset: offset[8:6] (Table 1-1). -/
def accBank (a : Nat) : Nat := a / 64 % 8

/-- The banks that n bytes at a touch (Table 1-1): 128 KiB scratchpad and 512 KiB weight-store banks, accumulator banks interleaved by 64
bytes. -/
def banksOf (sp : Space) (a n : Nat) : List Nat :=
  match sp with
  | .spad => (List.range 16).filter (fun b => decide (b * 0x20000 < a + n) && decide (a < (b + 1) * 0x20000))
  | .wst => (List.range 32).filter (fun b => decide (b * 0x80000 < a + n) && decide (a < (b + 1) * 0x80000))
  | .acc => (List.range 8).filter (fun b => (List.range (min 8 ((a % 64 + n + 63) / 64))).any (fun i => accBank (a + 64 * i) == b))

/-- Whether no bank of the access is occupied by a core access of an earlier cycle (R142). -/
def Tile.banksFree (t : Tile) (now : Nat) (sp : Space) (a n : Nat) : Bool :=
  (banksOf sp a n).all (fun b => t.core.banks.all (fun u =>
    !(u.sp == sp && u.bank == b && decide (u.start < now) && decide (now < u.free))))

/-- Whether weight-store bank b is in its refresh window at a CYCLE value (R144). -/
def inRefresh (cycle : BitVec 64) (b : Nat) : Bool := decide ((cycle.toNat + 2 ^ 64 - 1024 * b) % 32768 < 96)

/-- Whether the banks of a beat are free in this cycle (R142, R193, R217): the core leaves them free, no requester before has taken their beat,
and none is in refresh. -/
def Tile.bankIdle (t : Tile) (now : Nat) (cycle : BitVec 64) (sp : Space) (a n : Nat) : Bool :=
  (banksOf sp a n).all (fun b =>
    t.core.banks.all (fun u => !(u.sp == sp && u.bank == b && decide (u.start ≤ now) && decide (now < u.free)))
    && !t.core.log.beats.contains (sp, b) && !(sp == .wst && inRefresh cycle b))

/-- Whether the banks of a beat serve a requester other than the core in this cycle; the accumulator's ports take every access (R147, R217). -/
def Tile.bankServes (t : Tile) (now : Nat) (cycle : BitVec 64) (sp : Space) (a n : Nat) : Bool := sp == .acc || t.bankIdle now cycle sp a n

/-- The beat taken. -/
def Tile.takeBeat (t : Tile) (sp : Space) (a n : Nat) : Tile :=
  { t with core := { t.core with log := { t.core.log with beats := t.core.log.beats ++ (banksOf sp a n).map (fun b => (sp, b)) } } }

/-! ### Ordering waits (R169, R234, R241, R245) -/

/-- The remote operations of a tag that are not yet performed (R164). -/
def Tile.opsOf (t : Tile) (k : Tag) : List RemoteOp := t.netq.filter (fun o => o.tag == k && o.kind != .barrier && !o.performed)

/-- The level of a scope code: `.ctx` and `.tile` order alike (R234). -/
def scopeLevel (sc : BitVec 3) : Nat := max 1 sc.toNat

/-- Whether every remote operation of the tag whose location lies in the scope is performed (R169, R234). -/
def Tile.performedAt (t : Tile) (k : Tag) (level : Nat) : Bool := (t.opsOf k).all (fun o => decide (level < o.lies))

/-- Whether every vector pushed to the tag's outlets has been written (R170). -/
def Context.outletsWritten (c : Context) : Bool := c.outlets.toList.all (fun o => o.buf.isEmpty)

/-- Whether a tag has no engine command queued, running or saved (R270). -/
def Tile.enginesQuiet (t : Tile) (p : Tag → Bool) : Bool :=
  t.mx.queue.all (fun c => !p c.tag) && t.mx.saved.all (fun c => !p c.cmd.tag)
  && (match t.mx.run with | some r => !p r.cmd.tag | none => true)
  && t.row.queue.all (fun c => !p c.tag) && (match t.row.run with | some r => !p r.cmd.tag | none => true)
  && t.cpy.queue.all (fun c => !p c.tag) && (match t.cpy.run with | some r => !p r.cmd.tag | none => true)

/-- The q3 entries that an operation still has reserved (R336, R416): an RGET its units, an RST, RADD, RAMO, CHSEND or HMSG one. -/
def RemoteOp.reserves (o : RemoteOp) : Nat :=
  match o.kind with
  | .barrier => 0
  | .rget => o.units - o.unitDone
  | _ => 1

/-- Free entries of q3 of a tag: 64 less those occupied, those its operations have reserved (R336) and those its bound
receive ends have reserved (R404). -/
def Tile.q3Free (t : Tile) (k : Tag) : Nat :=
  let c := t.ctx k
  let ops := (t.netq.filter (fun o => o.tag == k)).foldl (fun n o => n + o.reserves) 0
  let ends := t.stores.chans.foldl (fun n e => n + (if !e.send && e.tag == some k then e.win / 4 else 0)) 0
  64 - ((c.rq[3]).length + ops + ends)

/-- Entries of engine queue e: 0 matrix, 1 row, 2 copy, 3 network; in use and in all (Table 13-1). -/
def Tile.queueUse (t : Tile) (e : Nat) : Nat × Nat :=
  match e with
  | 0 => (t.mx.queue.length, 16)
  | 1 => (t.row.queue.length, 8)
  | 2 => (t.cpy.queue.length, 16)
  | _ => ((t.netq.filter (fun o => !o.performed)).length, 32)

/-- Whether something in flight can push to result queue q of a tag (R159): its engine's commands, or its operations. -/
def Tile.canFill (t : Tile) (k : Tag) (q : Fin 4) : Bool :=
  match q.val with
  | 0 => t.mx.queue.any (·.tag == k) || t.mx.saved.any (·.cmd.tag == k) || (match t.mx.run with | some r => r.cmd.tag == k | none => false)
           || t.pushes.any (fun p => p.tag == k && p.q.val == 0)
  | 1 => t.row.queue.any (·.tag == k) || (match t.row.run with | some r => r.cmd.tag == k | none => false)
           || t.pushes.any (fun p => p.tag == k && p.q.val == 1)
  | 2 => t.cpy.queue.any (·.tag == k) || (match t.cpy.run with | some r => r.cmd.tag == k | none => false)
           || t.pushes.any (fun p => p.tag == k && p.q.val == 2)
  | _ => t.netq.any (fun o => o.tag == k && o.reserves != 0)

/-- The mirror of a barrier for a kernel on a tile (R387). -/
def Tile.mirror (t : Tile) (kernel n : Nat) : Option Mirror := t.stores.bars.mirrors.find? (fun m => m.kernel == kernel && m.n == n)

/-- The view of a barrier for a tag (R387). -/
def Tile.view (t : Tile) (kernel : Nat) (k : Tag) (n : Nat) : Option View :=
  t.stores.bars.views.find? (fun v => v.kernel == kernel && v.tag == k && v.n == n)

/-- Whether M has reached V (R388). -/
def reached (m v : BitVec 16) : Bool := v - m == 0 || decide (32768 ≤ (v - m).toNat)

/-- Whether a BARWAIT of barrier n would issue now (R397). -/
def Tile.barPasses (t : Tile) (kernel : Nat) (k : Tag) (n : Nat) : Bool :=
  match t.mirror kernel n, t.view kernel k n with
  | some m, some v => m.st != .uninit && reached m.phase v.v
  | _, _ => false

/-- The verdict that a context holds for a request (R394). -/
def Context.answered (c : Context) (fn : BitVec 2) (n : BitVec 6) : Option Verdict :=
  match c.asked.barReq, c.asked.verdict with
  | none, some v => if v.fn == fn && v.n == n then some v else none
  | _, _ => none

/-- The end of a channel for a kernel on a tile. -/
def Tile.chanEnd (t : Tile) (kernel n : Nat) (send : Bool) : Option ChanEnd :=
  t.stores.chans.find? (fun e => e.kernel == kernel && e.n == n && e.send == send)

/-- Whether a port of one of the tags is ACTIVE. -/
def Context.portsIdle (c : Context) : Bool := c.feeds.toList.all (fun f => !f.active) && c.outlets.toList.all (fun o => !o.active)

/-- The tags of a kernel's contexts on a tile. -/
def Tile.tagsOf (t : Tile) (kernel : Nat) : List Tag :=
  (List.finRange 8).filter (fun k => (t.ctx k).life.st != .empty && (t.ctx k).life.kernel == kernel)

/-- Whether a failed condition now holds for the context in focus (R257), on the values at the start of the cycle. An outlet's buffer holds
exactly two vectors, the least that R155 allows: DESIGN CHOICE, unsafe, log 156. -/
def State.holds (s : State) (w : WaitCond) : Bool :=
  let t := s.tile
  let c := s.ctx
  let k := c.life.kernel
  match w with
  | .sem n need => decide (need ≤ (c.sems.s[n.toNat]'(show n.toNat < 32 from n.isLt)).toNat)
  | .unlocked sp a n wr => t.lockFree s.now sp a n wr
  | .unitHeld sp a n => (unitsOf sp a n).all (fun u => !t.unitPending k u)
  | .bankFree sp a n => t.banksFree s.now sp a n
  | .refreshed a n => (banksOf .wst a n).all (fun b => !inRefresh s.cycle b)
  | .feedReady f => match c.feeds[f] with
      | p => !p.active || (match p.held with | v :: _ => decide (v.due ≤ s.now) | [] => false)
  | .outletRoom o => !(c.outlets[o]).active || decide ((c.outlets[o]).buf.length < 2)
  | .outletDrained o => (c.outlets[o]).buf.isEmpty
  | .engineRoom e => decide ((t.queueUse e).1 < (t.queueUse e).2)
  | .netRoom => decide ((t.queueUse 3).1 < 32)
  | .injectable => t.life.st != .quiesced
  | .q3Room n => decide (n ≤ t.q3Free s.tag)
  | .rqReady q => !(c.rq[q]).isEmpty || !t.canFill s.tag q
  | .performed sc fence => t.performedAt s.tag (scopeLevel sc) && (!fence || c.outletsWritten)
  | .acquired => c.remote.acquire.isNone
  | .ramoDone => (t.opsOf s.tag).all (fun o => !(o.kind == .ramo && o.ord != 0))
  | .parkReady => t.enginesQuiet (· == s.tag) && (t.opsOf s.tag).isEmpty && c.outletsWritten
  | .kernelQuiet => t.enginesQuiet (fun g => (t.ctx g).life.kernel == k)
      && (t.tagsOf k).all (fun g => (t.ctx g).portsIdle)
  | .arrived => decide (lastArrival (dueNow c.pending) ≤ s.now)
  | .segSpaced => match c.life.lastIssue with | some l => decide (l + 2 ≤ s.now) | none => true
  | .window ch flits => match t.chanEnd k ch.toNat true with | some e => e.st != .opened || decide (flits ≤ e.credit) | none => true
  | .chanSent ch => t.netq.all (fun o => !(o.kind == .chsend && o.tag == s.tag && o.channel == ch && !o.failing))
  | .message ch => match t.chanEnd k ch.toNat false with | some e => e.st != .opened || !e.held.isEmpty | none => true
  | .barrier n what => if what = 3 then t.barPasses k s.tag n.toNat else (c.answered what n).isSome
  | .gang v => decide (v.toNat ≤ s.cycle.toNat)
  | .pageAnswer va sec touch write => c.asked.pageAns.any (fun a => a.va == va && a.sec == sec && a.touch == touch && a.write == write)

/-- Whether a recorded condition lets the blocked context in focus become READY: GSLICE.wait does two cycles early (R384). -/
def State.clears (s : State) (w : WaitCond) : Bool :=
  match w with | .gang v => decide (v.toNat ≤ s.cycle.toNat + 2) | w => s.holds w

/-- The cause a failed condition charges, as a code of Table 12-1 (Table 10-2). -/
def WaitCond.cause : WaitCond → Nat
  | .sem .. => 6
  | .unlocked .. => 10 | .unitHeld .. => 10 | .bankFree .. => 10
  | .refreshed .. => 11
  | .feedReady _ => 7 | .outletRoom _ => 7 | .outletDrained _ => 7
  | .injectable => 19
  | .engineRoom _ => 8 | .netRoom => 8 | .q3Room _ => 8 | .rqReady _ => 8 | .message _ => 8
  | .chanSent _ => 15 | .performed .. => 15 | .acquired => 15 | .ramoDone => 15 | .parkReady => 15 | .kernelQuiet => 15 | .pageAnswer .. => 15
  | .arrived => 12
  | .segSpaced => 24
  | .window .. => 9
  | .barrier .. => 16
  | .gang _ => 6

/-- Whether a failed condition ends the context's block (Table 10-2); the others keep the seat. -/
def WaitCond.endsBlock : WaitCond → Bool
  | .sem .. => true
  | .unlocked .. => true | .unitHeld .. => true
  | .bankFree .. => false | .refreshed .. => false
  | .feedReady _ => false | .outletRoom _ => false | .outletDrained _ => false
  | .injectable => false
  | .engineRoom _ => false | .netRoom => false | .q3Room _ => false
  | .rqReady _ => true | .message _ => true
  | .chanSent _ => true | .performed .. => true | .acquired => true | .ramoDone => true | .parkReady => true | .kernelQuiet => true | .pageAnswer .. => true
  | .arrived => false | .segSpaced => false
  | .window .. => true | .barrier .. => true | .gang _ => true

/-- The place of a cause in the row order of Table 10-2, for the choice of the charged one (R256). -/
def causeRank (c : Nat) : Nat :=
  match c with
  | 6 => 0 | 13 => 1 | 10 => 2 | 11 => 3 | 7 => 4 | 8 => 5 | 15 => 6 | 12 => 7 | 9 => 8 | 16 => 9 | 14 => 10 | _ => 11

/-- The charged cause of failed conditions of the kind that decides (R256). -/
def chargedCause (ws : List WaitCond) : Nat :=
  let deciding := if ws.any WaitCond.endsBlock then ws.filter WaitCond.endsBlock else ws
  deciding.foldl (fun b w => if causeRank w.cause < causeRank b then w.cause else b) 24

end Sys2Proof.Machine
end

