-- ==== Sys2Proof/Machine/Ops.lean ====
section
/-! DEFINITION. The operations every slot instruction shares: how a slot takes part in its bundle's issue attempt (R275), the
advance of the program counters (R107), taking a trap and returning from one (R278 to R284), deferred causes, fault reports,
containment recovery (R290), semaphore increments (R111), stalls (R256) and the issue of a bundle. -/

namespace Sys2Proof.Machine

/-! ### Semaphores (R109 to R112, R264) -/

/-- The value of a semaphore at the start of the cycle, less what earlier consumers of the cycle have taken (R111, R516). -/
def Sems.val (q : Sems) (n : BitVec 5) : Nat := (q.s[n.toNat]'(show n.toNat < 32 from n.isLt)).toNat

/-- A consumer's decrement (R66, R110, R198). -/
def Sems.take (q : Sems) (n : BitVec 5) (k : Nat) : Sems :=
  { q with s := q.s.set n.toNat (BitVec.ofNat 16 (q.val n - k)) (show n.toNat < 32 from n.isLt) }

/-- An increment that arrives in this cycle: it is seen from the next one (R111). -/
def Sems.arrive (q : Sems) (n : BitVec 5) (k : Nat) : Sems :=
  { q with inc := q.inc.set n.toNat (q.inc[n.toNat]'(show n.toNat < 32 from n.isLt) + k) (show n.toNat < 32 from n.isLt) }

/-- An increment to a tag that is not resident: its latch counter, which stops at 65,535 and records the overflow (R264). -/
def Sems.latchAdd (q : Sems) (n : BitVec 5) (k : Nat) : Sems :=
  let v := (q.latch[n.toNat]'(show n.toNat < 32 from n.isLt)).toNat + k
  { q with latch := q.latch.set n.toNat (BitVec.ofNat 16 (min v 65535)) (show n.toNat < 32 from n.isLt),
           latchOver := q.latchOver || decide (65535 < v) }

/-- Whether a context's semaphores stand in its image, so that increments go to the latch (R264). -/
def CtxState.latched : CtxState → Bool
  | .staged => true | .spilling => true | .saved => true | _ => false

/-- An increment of semaphore n of a context by a source other than its own bundle (R111, R264, R265). -/
def Context.semAdd (c : Context) (n : BitVec 5) (k : Nat) : Context :=
  if c.life.st = .empty ∨ c.life.st = .killing then c
  else if c.life.st.latched then { c with sems := c.sems.latchAdd n k } else { c with sems := c.sems.arrive n k }

/-! ### Fault reports and deferred causes (R277, R326) -/

/-- An S-delivered cause counted in a kernel's fault report; the first report fills its fields; under FPOL 1 it begins the
kill of the kernel (R326). -/
def Wafer.report (w : Wafer) (seq : Nat) (code : BitVec 8) (c : TileId) (tag : Tag) (pc : BitVec 14) (double : Bool)
    (now : Nat) : Wafer :=
  w.modKernel seq (fun k =>
    let k := { k with faults := min (k.faults + 1) 0xFFFF, first := if k.first.isNone then some (code, c, tag, pc, double) else k.first }
    if (fieldNat k.record 9 8 = 1) ∧ k.st = .running then { k with st := .ending, status := 3, killAt := some now } else k)

/-- A report by the context in focus. -/
def State.report (s : State) (code : BitVec 8) (pc : BitVec 14) (double : Bool) : State :=
  s.modWafer (fun w => w.report s.ctx.life.kernel code s.tile.at' s.tag pc double s.now)

/-- A deferred cause reaches a tag of the tile in focus: one is held, the lower code is kept, the other is discarded and
counted in the kernel's fault report (R277, R326); none reaches an EMPTY or KILLING tag (0x47 EXC_ORPHAN). -/
def State.defer (s : State) (k : Tag) (code : BitVec 8) : State :=
  let c := s.tile.ctx k
  if c.life.st = .empty ∨ c.life.st = .killing then
    if code = 0x48 ∨ code = 0x49 ∨ code = 0x4A then
      (s.modWafer (fun w => w.report c.life.kernel 0x47 s.tile.at' k 0 false s.now))
    else s
  else
    match c.life.deferred with
    | none => s.modTile (fun t => t.modCtx k (fun c => { c with life := { c.life with deferred := some code } }))
    | some old =>
      let keep := if code.toNat < old.toNat then code else old
      let gone := if code.toNat < old.toNat then old else code
      let s := s.modTile (fun t => t.modCtx k (fun c => { c with life := { c.life with deferred := some keep } }))
      let s := s.modWafer (fun w => w.modKernel c.life.kernel (fun kn => { kn with disc := min (kn.disc + 1) 0xFFFF }))
      s.modWafer (fun w => w.report c.life.kernel gone s.tile.at' k (c.flow.pc.extractLsb' 4 14) false s.now)

/-! ### The exception counters (R204 to R206) -/

/-- n events of counter e by a command of a tag: past its threshold the context takes 0x48 to 0x4A, at 0xFFFF_FFFF 0x4B to
0x4D. -/
def State.countExc (s : State) (e : Fin 3) (n : Nat) (k : Tag) : State :=
  if n = 0 then s
  else
    let m := s.tile.mx
    let old := (m.count[e]).toNat
    let new := min (old + n) 0xFFFFFFFF
    let th := (m.thresh[e]).toNat
    let s := s.modTile (fun t => { t with mx := { t.mx with count := t.mx.count.set e.val (BitVec.ofNat 32 new) e.isLt } })
    let s := if old < th ∧ th ≤ new then s.defer k (BitVec.ofNat 8 (0x48 + e.val)) else s
    if old < 0xFFFFFFFF ∧ new = 0xFFFFFFFF then s.defer k (BitVec.ofNat 8 (0x4B + e.val)) else s

/-! ### Trace (R508) -/

/-- Bits [17:4] of a byte address. -/
def pcIndex (pc : BitVec 32) : BitVec 14 := pc.extractLsb' 4 14

/-- A trace record of a tag (Table 22-4), when TCTL.EN and the tag's trace bit are set. In wrap mode the oldest record is
overwritten; in stop mode a full ring discards, and the first discard since the last TCTL write defers 0xBE (R508). -/
def State.trace (s : State) (k : Tag) (kind : Nat) (data : BitVec 32) (slot n : Nat) (pc : BitVec 14) : State :=
  let d := s.tile.dbg
  if !(d.tctl.toNat.testBit 31 && (s.tile.ctx k).dbg.tracing) then s
  else if d.tctl.toNat.testBit 30 ∧ 256 ≤ d.used then
    let first := d.discards = 0
    let s := s.modTile (fun t => { t with dbg := { t.dbg with discards := BitVec.ofNat 16 (min (t.dbg.discards.toNat + 1) 0xFFFF) } })
    if first then s.defer k 0xBE else s
  else
    let w0 : BitVec 32 := BitVec.ofNat 4 kind ++ BitVec.ofNat 3 k.val ++ BitVec.ofNat 2 slot ++ BitVec.ofNat 9 n ++ pc
    let r : BitVec 128 := s.cycle ++ data ++ w0
    s.modTile (fun t => { t with dbg := { t.dbg with ring := assocPut t.dbg.ring t.dbg.next.toNat r, next := t.dbg.next + 1,
                                                     used := min (t.dbg.used + 1) 256 } })

/-- A context is held (R500): reason 1 halt, 2 BRK, 3 watch, 4 step. -/
def State.hold (s : State) (k : Tag) (reason : Nat) (w : Nat) : State :=
  let s := s.modTile (fun t => t.modCtx k (fun c =>
    { c with dbg := { c.dbg with held := true, reason := BitVec.ofNat 3 reason, watch := BitVec.ofNat 4 w } }))
  s.trace k 5 (BitVec.ofNat 32 reason) 0 0 (pcIndex (s.tile.ctx k).flow.pc)

/-- The slots of the bundle at hand that an attempt skips (R502): DONEMASK, which in a handler is that of the trapped bundle and
bears on no bundle of the handler but one that steps have begun. -/
def Context.doneSlots (c : Context) : BitVec 4 := if c.sys.inHandler && !c.life.partLanded then 0 else c.sys.doneMask

/-- Whether DBGEN lets a context be held (R500). -/
def State.mayHold (s : State) (c : Context) : Bool := s.wafer.dbg.dbgen.toNat.testBit (if c.life.secure then 1 else 0)

/-! ### Seats (R255, R256) -/

/-- The seat that a tag holds. -/
def Core.seatOf (c : Core) (k : Tag) : Option (Fin 2) :=
  if (c.seats[0]).any (·.tag == k) then some 0 else if (c.seats[1]).any (·.tag == k) then some 1 else none

/-- A tag leaves its seat. -/
def Core.leave (c : Core) (k : Tag) : Core :=
  { c with seats := c.seats.map (fun o => match o with | some st => if st.tag = k then none else some st | none => none) }

/-- The context in focus leaves its seat and enters a state. -/
def State.leaveSeat (s : State) (st : CtxState) : State :=
  (s.modCore (fun c => c.leave s.tag)).modCtx (fun c => { c with life := { c.life with st := st } })

/-! ### POISONREC (R79) -/

/-- POISONREC of an origin (Table 3-10). -/
def poisonRecord (word : BitVec 32) (slot : Nat) (kind : BitVec 5) (pc : BitVec 32) : BitVec 64 :=
  word ++ (1#1) ++ (BitVec.ofNat 2 slot) ++ kind ++ (0#6) ++ pc.extractLsb' 4 14 ++ (0#4)

/-- The first origin of poison since the last clear is recorded (R79). -/
def Context.recordPoison (c : Context) (r : BitVec 64) : Context :=
  if c.sys.poisonRec.toNat.testBit 31 then c else { c with sys := { c.sys with poisonRec := r } }

/-! ### The advance (R107) -/

/-- The state of the loop scan of R107. -/
structure Scan where
  loops : Vector Loop 4
  npc : BitVec 32
  nnpc : BitVec 32
  redir : Bool := false
  deriving DecidableEq, Repr

/-- One level of the scan of R107: loops is the level state as before the bundle. -/
def scanLevel (pc : BitVec 32) (taken : Bool) (k : Fin 4) (x : Scan) : Scan :=
  let l := x.loops[k]
  if l.active && l.stop == pc && !x.redir then
    if 1 < l.cnt.toNat then
      { loops := x.loops.set k.val { l with cnt := l.cnt - 1 } k.isLt, npc := l.start,
        nnpc := if taken then x.nnpc else l.start + 16, redir := true }
    else { x with loops := x.loops.set k.val { l with active := false } k.isLt }
  else x

/-- The step of R107 for a bundle that issues at f.pc: transfer is the target of a taken transfer, loop the level, count and
length of a LOOP or LOOPI; suspended says that INHANDLER is 1 (R280). -/
def Flow.advance (f : Flow) (suspended : Bool) (transfer : Option (BitVec 32)) (loop : Option (Fin 4 × BitVec 32 × Nat)) : Flow :=
  let taken := transfer.isSome
  let x : Scan := { loops := f.loops, npc := f.npc, nnpc := transfer.getD (f.npc + 16) }
  let x := if f.indelay || suspended then x
           else scanLevel f.pc taken 0 (scanLevel f.pc taken 1 (scanLevel f.pc taken 2 (scanLevel f.pc taken 3 x)))
  let x := match loop with
    | none => x
    | some (l, cnt, len) =>
      let stop := f.pc + BitVec.ofNat 32 (16 * len)
      let old := x.loops[l]
      if cnt ≠ 0 then
        { x with loops := x.loops.set l.val { old with active := true, start := f.pc + 16, stop := stop, cnt := cnt } l.isLt }
      else
        let x := { x with loops := x.loops.set l.val { old with active := false, start := f.pc + 16, stop := stop } l.isLt }
        if f.indelay || x.redir then x else { x with npc := stop + 16, nnpc := stop + 32 }
  { pc := x.npc, npc := x.nnpc, indelay := taken, loops := x.loops }

/-! ### Cancellation (R207, R216, R290) -/

/-- Queued and saved commands of an engine that p selects leave at once (R207). -/
def Tile.dropQueued (t : Tile) (e : Engine) (p : Tag → Bool → Bool) : Tile :=
  match e with
  | .matrix => { t with mx := { t.mx with queue := t.mx.queue.filter (fun c => !p c.tag c.region),
                                          saved := t.mx.saved.filter (fun c => !p c.cmd.tag c.cmd.region) } }
  | .row => { t with row := { t.row with queue := t.row.queue.filter (fun c => !p c.tag c.region) } }
  | .copy => { t with cpy := { t.cpy with queue := t.cpy.queue.filter (fun c => !p c.tag c.region) } }

/-- The external writes of a CPYX that are in flight when its command ends are cut off from it (R226). -/
def Tile.cutOff (t : Tile) (r : BlockRun) : Tile :=
  if (blkWord r.cmd.block 1).toNat / 2 ^ 29 = 3 ∧ r.inFlight ≠ [] then { t with cut := t.cut ++ [r] } else t

/-- The running command of an engine, if p selects it, stops: what is not yet written never is (R207, R216). So does a routine whose save
has ended since. -/
def Tile.stopRunning (t : Tile) (e : Engine) (p : Tag → Bool → Bool) : Tile :=
  match e with
  | .matrix =>
    let t := { t with mx := { t.mx with saved := t.mx.saved.filter (fun c => !p c.cmd.tag c.cmd.region) } }
    match t.mx.run with
    | some r => if p r.cmd.tag r.cmd.region then
        { t with mx := { t.mx with run := none, pe := [] },
                 pushes := t.pushes.filter (fun x => x.engine ≠ some .matrix) } else t
    | none => t
  | .row => match t.row.run with
    | some r => if p r.cmd.tag r.cmd.region then
        { t with row := { t.row with run := none }, pushes := t.pushes.filter (fun x => x.engine ≠ some .row) } else t
    | none => t
  | .copy => match t.cpy.run with
    | some r => if p r.cmd.tag r.cmd.region then
        { (t.cutOff r) with cpy := { t.cpy with run := none }, pushes := t.pushes.filter (fun x => x.engine ≠ some .copy) } else t
    | none => t

/-- What leaves a command to stop at the end of the cycle. -/
def State.atEnd (s : State) (a : EndAct) : State := s.modCore (fun c => { c with atEnd := c.atEnd ++ [a] })

/-! ### Traps (R276 to R284) -/

/-- EPC for a bundle: its next PC, its PC and the fault mask (Table 11-1). -/
def epcWord (npc pc : BitVec 32) (mask : BitVec 4) : BitVec 32 := pcIndex npc ++ pcIndex pc ++ mask

/-- The trap log of the cycle, for charging. -/
def State.logTrap (s : State) : State :=
  s.modCore (fun c => { c with log := { c.log with trapped := c.log.trapped ++ [s.tag] } })

/-- A precise trap while INHANDLER is 1 (R280): FAULTED, CAUSE DOUBLE_FAULT, EPC kept, the second trap reported. -/
def State.doubleFault (s : State) (code : BitVec 8) (pc : BitVec 32) : State :=
  let s := s.report code (pcIndex pc) true
  let s := s.modCtx (fun c => { c with sys := { c.sys with cause := 0 }, life := { c.life with entering := false } })
  s.leaveSeat .faulted

/-- TAKING A TRAP (R278, R280): pc, npc and delay are those of the trapped bundle. EPC, CAUSE and the hidden fields are set,
pending writes of committed bundles land, and the context goes on at its program's trap vector, no earlier than cycle t + 4;
with no vector it is FAULTED and 0x05 NO_VECTOR is reported; inside a handler it is a double fault. -/
def State.takeTrap (s : State) (code : BitVec 8) (mask : BitVec 4) (pc npc : BitVec 32) (delay : Bool) : State :=
  let s := s.logTrap
  let s := s.modCtx (fun c => { c with life := { c.life with partLanded := false }, dbg := { c.dbg with popped := [] } })
  if s.ctx.sys.inHandler then s.doubleFault code pc
  else
    let low := if mask.toNat.testBit 0 then 0 else if mask.toNat.testBit 1 then 1 else if mask.toNat.testBit 2 then 2 else if mask.toNat.testBit 3 then 3 else 0
    let s := s.trace s.tag 2 (BitVec.ofNat 32 (mask.toNat * 256 + code.toNat)) low 0 (pcIndex pc)
    let last := lastArrival s.ctx.pending
    let s := s.modCtx (fun c => { c with
      sys := { c.sys with epc := epcWord npc pc mask, cause := code, epcDelay := delay, inHandler := true } })
    match s.program.bind (fun p => p.vector) with
    | none => (s.report 0x05 (pcIndex pc) false).leaveSeat .faulted
    | some v =>
      let h : BitVec 32 := BitVec.ofNat 32 (16 * v)
      s.modCtx (fun c =>
        let c := c.landedAll
        { c with flow := { c.flow with pc := h, npc := h + 16, indelay := false },
                 life := { c.life with resumeAt := max (s.now + 4) (last + 1), entering := true } })

/-- A trap at the bundle that the context is about to issue. -/
def State.trapHere (s : State) (code : BitVec 8) (mask : BitVec 4) : State :=
  s.takeTrap code mask s.ctx.flow.pc s.ctx.flow.npc s.ctx.flow.indelay

/-- The pending deferred cause is taken before the attempt, with mask 0 (R275 step 1, R278). -/
def State.takeDeferred (s : State) (code : BitVec 8) : State :=
  (s.modCtx (fun c => { c with life := { c.life with deferred := none } })).trapHere code 0

/-- CONTAINMENT RECOVERY (R289, R290): the region's commands are cancelled, pending writes to g and p discarded, g and p
take their checkpoint, OPEN falls and the context goes on at the checkpoint's handler after 4 cycles. -/
def State.recover (s : State) (code : BitVec 8) (mask : BitVec 4) : State :=
  let s := s.logTrap
  let mine : Tag → Bool → Bool := fun k r => k == s.tag && r
  let s := s.modTile (fun t => ((t.dropQueued .matrix mine).dropQueued .row mine).dropQueued .copy mine)
  let s := ((s.atEnd (.stop .matrix s.tag true)).atEnd (.stop .row s.tag true)).atEnd (.stop .copy s.tag true)
  s.modCtx (fun c =>
    { c with
      sys := { c.sys with epc := epcWord c.flow.npc c.flow.pc mask, cause := code },
      pending := c.pending.filter (fun p => match p.write with | .g .. => false | .p .. => false | _ => true),
      regs := { c.regs with g := c.ckpt.g, p := c.ckpt.p },
      ckpt := { c.ckpt with opened := false },
      flow := { c.flow with pc := c.ckpt.handler, npc := c.ckpt.handler + 16, indelay := false },
      life := { c.life with resumeAt := s.now + 4, recovery := false } })

/-- RETURN FROM A TRAP (R284): pc and npc from EPC, the delay bit from EPCDELAY, INHANDLER 0. -/
def Context.retFromTrap (c : Context) : Context :=
  { c with flow := { c.flow with pc := (0#14 ++ c.sys.epc.extractLsb' 4 14 ++ 0#4 : BitVec 32),
                                 npc := (0#14 ++ c.sys.epc.extractLsb' 18 14 ++ 0#4 : BitVec 32),
                                 indelay := c.sys.epcDelay },
           sys := { c.sys with inHandler := false } }

/-- The fault mask of the failing slots, and the code of the lowest-numbered one (R276). -/
def faultMask (fails : List (Nat × BitVec 8)) : BitVec 4 := fails.foldl (fun m f => m ||| BitVec.ofNat 4 (2 ^ f.1)) 0
def faultCode : List (Nat × BitVec 8) → Nat × BitVec 8
  | [] => (4, 0)
  | f :: fs => let g := faultCode fs; if f.1 ≤ g.1 then f else g

/-- TLB entries that a trapping bundle read with an uncorrectable error are invalidated (R423). -/
def State.dropTlb (s : State) (es : List TlbEntry) : State :=
  if es.isEmpty then s
  else s.modTile (fun t => { t with stores := { t.stores with tlb := t.stores.tlb.filter (fun e => !es.contains e) } })

/-- The trap of a DRAIN or FENCE clears the failed-operation mark (R169). -/
def State.unmark (s : State) (yes : Bool) : State :=
  if yes then s.modCtx (fun c => { c with remote := { c.remote with failed := [] } }) else s

/-- The trap of a refusal uses up the verdict (R394). -/
def State.useVerdict (s : State) (yes : Bool) : State :=
  if yes then s.modCtx (fun c => { c with asked := { c.asked with verdict := none } }) else s

/-- A command or a feed of the open region of a tag has failed: outside a handler, recovery comes before the tag's next bundle (R289). -/
def State.regionFault (s : State) (k : Tag) : State :=
  let c := s.tile.ctx k
  if c.ckpt.opened && !c.sys.inHandler then
    s.modTile (fun t => t.modCtx k (fun c => { c with life := { c.life with recovery := true } }))
  else s

/-- Whether a failure of a command or a feed of a tag is of its open region (R289). -/
def Tile.contains (t : Tile) (k : Tag) (region : Bool) : Bool :=
  region && (t.ctx k).ckpt.opened && !(t.ctx k).sys.inHandler

/-- Whether a poison use or a register-file error is contained (R289). -/
def Context.contained (c : Context) (code : BitVec 8) : Bool :=
  c.ckpt.opened && !c.sys.inHandler &&
  (code == 0xA5 || (code == 0x02 && c.sys.poisonRec.toNat.testBit 31
     && (fieldNat c.sys.poisonRec 28 24 == 6 || fieldNat c.sys.poisonRec 28 24 == 7)))

/-- A bundle that fails its checks traps, or recovers (R275 step 4, R276, R289); a walk's answer is used up (R429). rec is the POISONREC of a reserved encoding whose default destination is g0 (R78). -/
def State.failBundle (s : State) (fails : List (Nat × BitVec 8)) (rec : BitVec 64) : State :=
  let code := (faultCode fails).2
  let s := s.modCtx (fun c => { c with asked := { c.asked with pageAns := none } })
  let s := if code = 0x01 then s.modCtx (fun c => c.recordPoison rec) else s
  if s.ctx.contained code then s.recover 0xA0 (faultMask fails) else s.trapHere code (faultMask fails)

/-! ### Stalls (R256) -/

/-- The ASID of the context's kernel (R420). -/
def State.asid (s : State) : Nat := ((s.wafer.kernel? s.ctx.life.kernel).map (·.asid)).getD 0

/-- The walk of a page instruction begins, unless it is under way for the context; one under way for another address is forgotten (R429). -/
def State.askPage (s : State) (va : BitVec 80) (sec touch write : Bool) : State :=
  let same (w : Walk) : Bool :=
    s.ctx.asked.pageReq == some w.serial && w.va == va && w.secWorld == sec && w.write == write
      && w.who == .probe s.tile.at' s.tag touch write
  if s.wafer.walks.any same then s
  else
    match s.freeDelay with
    | (d, s) =>
      let n := s.wafer.nextMsg
      let w : Walk :=
        { serial := n, due := s.now + d, who := .probe s.tile.at' s.tag touch write, va := va, asid := s.asid,
          secWorld := sec, write := write, src := s.tile.at' }
      let s := s.modWafer (fun x => { x with walks := x.walks ++ [w], nextMsg := n + 1 })
      (s.modCtx (fun c => { c with asked := { c.asked with pageReq := some n, pageAns := none } })).timer (s.now + d) (.pageWalk n)

/-- What the failed conditions of a stall set going (R429). -/
def State.askFor (s : State) (ws : List WaitCond) : State :=
  ws.foldl (fun s w => match w with | .pageAnswer va sec touch write => s.askPage va sec touch write | _ => s) s

/-- Whether the context in focus has a request on its way for a barrier (R393). -/
def State.asksBarrier (s : State) (fn : BitVec 2) (n : BitVec 6) : Bool :=
  s.ctx.asked.barReq.any (fun x => s.tile.netq.any (fun o => o.serial == x && o.fn == fn.setWidth 4 && o.b0 == n.setWidth 32))

/-- A barrier request takes an entry of the network command queue, unless it is on its way (R393): an arrival or a drop is a release at its level, which waits for the
context's accesses and outlets (R398). The verdict held before is discarded (R394). -/
def State.askBarrier (s : State) (a : BarAsk) : State :=
  if s.asksBarrier a.fn a.n then s else
  let n := s.wafer.nextMsg
  let c := s.ctx
  let rel := a.fn != 0
  let view := ((s.tile.view c.life.kernel s.tag a.n.toNat).map (·.v)).getD 0
  let o : RemoteOp :=
    { serial := n, kind := .barrier, tag := s.tag, pc := pcIndex c.flow.pc, pcFull := c.flow.pc, fn := a.fn.setWidth 4,
      b0 := a.n.setWidth 32, b1 := BitVec.ofNat 32 a.count, tagLow := view, scope := a.level, kernel := c.life.kernel, enq := s.now,
      pr := c.sys.prio,
      covers := if rel then ((s.tile.opsOf s.tag).filter (fun x => decide (x.lies ≤ a.level))).map (·.serial) else [],
      waitOutlets := if rel then (List.finRange 4).filterMap (fun k =>
        let b := (c.outlets[k]).buf.length; if b = 0 then none else some (k, b)) else [] }
  let s := s.modWafer (fun w => { w with nextMsg := n + 1 })
  (s.modTile (fun t => { t with netq := t.netq ++ [o] })).modCtx (fun c =>
    { c with asked := { c.asked with barReq := some n, verdict := none } })

/-- Whether one of the conditions is a wait on the SIG of the tag's own matrix command that waits for its leave (R203). -/
def Tile.awaitsLeave (t : Tile) (k : Tag) (ws : List WaitCond) : Bool :=
  match t.mx.run with
  | some r =>
    (match r.leave with | .requested _ => true | _ => false) && r.cmd.tag == k && r.cmd.dep.toNat.testBit 31
      && ws.any (fun w => match w with | .sem n _ => n == r.cmd.dep.extractLsb' 26 5 | _ => false)
  | none => false

/-- The cause that a stall charges: WAIT_SEM gives way to LEAVE on a wait for a command that waits for its leave (R203, R256). -/
def Tile.stallCause (t : Tile) (k : Tag) (ws : List WaitCond) : Nat :=
  let c := chargedCause ws
  if c = 6 ∧ t.awaitsLeave k ws then 13 else c

/-- An attempt fails on stall conditions: one that ends the block takes the context from its seat to BLOCKED, with every
failed condition and the cause recorded, which it keeps until it takes a seat again (R256, R257, R304); the others keep the seat. -/
def State.stall (s : State) (ws : List WaitCond) : State :=
  let cause := s.tile.stallCause s.tag ws
  let logged := if ws.contains .segSpaced then 24 else cause
  let s := s.askFor ws
  let s := s.modCore (fun c => { c with log := { c.log with failed := c.log.failed ++ [(s.tag, logged)] } })
  if ws.any WaitCond.endsBlock then
    (s.modCtx (fun c => { c with life := { c.life with waits := ws, blockCause := cause, yieldUntil := none } })).leaveSeat .blocked
  else s

/-! ### Slots -/

/-- How one slot's instruction takes part in its bundle (R275): its governing predicate selector (R67), the registers it
reads, the feeds it pops (R72), whether it consumes poison (R81), whether an unperformed acquire holds it (R241), its
stall conditions, whether its first attempt differs from later ones (R384), its own checks in order (with what a failing one leaves to note), the access that watchpoints see (kinds lo to hi of R504, address, length), what it
settles before issue, its effect, and what follows the other slots' effects. -/
structure SlotOp where
  slot : Nat
  pred : BitVec 2
  reads : List RegRef := []
  pops : List (Fin 8) := []
  consumes : State → Bool := fun _ => false
  gated : Bool := false
  timed : Bool := false
  waits : State → List WaitCond := fun _ => []
  checks : State → Option (BitVec 8) := fun _ => none
  watch : State → Option (Nat × Nat × Nat × Nat) := fun _ => none
  note : State → State := id
  plan : State → State := id
  act : State → State := id
  late : State → State := id

/-- The register and inversion of the predicate that governs slot k (R67): none is always true. -/
def predRef (header : BitVec 32) (k : Nat) (sel : BitVec 2) : Option (BitVec 3) × Bool :=
  let hdr := header.toNat
  let on := decide (1 ≤ k) && decide (hdr ≠ 0)
  let remap := on && hdr.testBit (11 + k)
  let inv := on && hdr.testBit (8 + k)
  (if remap then some (1#1 ++ sel) else if sel = 0 then none else some (0#1 ++ sel), inv)

/-- Whether the predicate register that governs slot k reads as uncorrectable (R286). -/
def State.predicateBad (s : State) (k : Nat) (sel : BitVec 2) : Bool :=
  match predRef s.issue.header k sel with
  | (some i, _) => i != 0 && s.ctx.regBad.contains (.p i)
  | (none, _) => false

/-- The value and the poison of the predicate that governs slot k of the bundle (R67, R81). -/
def State.predicate (s : State) (k : Nat) (sel : BitVec 2) : Bool × Bool :=
  match predRef s.issue.header k sel with
  | (none, inv) => (!inv, false)
  | (some i, inv) => let r := s.ctx.regs.getP i; ((r.val == 1) != inv, r.poison)

/-- The use of a slot position recorded (Table 12-2). -/
def State.use (s : State) (k : Nat) (u : SlotUse) : State :=
  { s with issue := { s.issue with uses := s.issue.uses.setIfInBounds k u } }

/-- A failing check recorded. -/
def State.fail (s : State) (k : Nat) (code : BitVec 8) : State :=
  { s with issue := { s.issue with fails := s.issue.fails ++ [(k, code)] } }

/-- Stall conditions that do not hold, recorded. -/
def State.wait (s : State) (ws : List WaitCond) : State :=
  { s with issue := { s.issue with waits := s.issue.waits ++ ws.filter (fun w => !s.holds w) } }

/-- Whether watchpoint w of the tile sees the context in focus (R504): EN, its tag, and its host's world. -/
def State.watchOn (s : State) (w : Fin 16) : Bool :=
  let ctl := (s.tile.dbg.wpCtl[w]).toNat
  ctl.testBit 31 && ctl.testBit (16 + s.tag.val) && (s.tile.dbg.wpHost.toNat.testBit w.val || !s.ctx.life.secure)

/-- The watchpoints of the listed kinds whose range the n bytes at a touch (R504). -/
def State.watchHits (s : State) (kinds : List Nat) (a n : Nat) : List Nat :=
  ((List.finRange 16).filter (fun w =>
    let ctl := s.tile.dbg.wpCtl[w]
    let base := (s.tile.dbg.wpAddr[w]).toNat
    s.watchOn w && kinds.contains (fieldNat ctl 30 28)
      && decide (base < a + n) && decide (a < base + 2 ^ fieldNat ctl 27 24))).map (·.val)

/-- The matches of a slot's access recorded. -/
def State.watchAccess (s : State) (k : Nat) (kinds : List Nat) (a n : Nat) : State :=
  { s with issue := { s.issue with watch := s.issue.watch ++ (s.watchHits kinds a n).map (fun w => (k, w)) } }

/-- The lowest-numbered matching watchpoint with its slot (R504). -/
def firstWatch : List (Nat × Nat) → Option (Nat × Nat)
  | [] => none
  | x :: xs => match firstWatch xs with | some y => if y.2 < x.2 then some y else some x | none => some x

/-- The first failing check of a slot: poison consumption, a register-file error, an exhausted feed, then its own list. -/
def SlotOp.firstFail (o : SlotOp) (s : State) : Option (BitVec 8) :=
  if o.consumes s then some 0x02
  else if o.reads.any (fun r => s.ctx.regBad.contains r) then some 0xA5
  else if o.pops.any (fun f => !(s.ctx.feeds[f]).active) then some 0x61
  else o.checks s

/-- Every stall condition of a slot that is on: an unperformed acquire (R241), its feeds (R72), its own. -/
def SlotOp.allWaits (o : SlotOp) (s : State) : List WaitCond :=
  (if o.gated then [.acquired] else []) ++ o.pops.map WaitCond.feedReady ++ o.waits s

/-- The slot's access seen by the watchpoints (R504). -/
def SlotOp.seen (o : SlotOp) (s : State) : State :=
  match o.watch s with
  | some (k1, k2, a, n) => s.watchAccess o.slot [k1, k2, if k1 ≤ 2 then 3 else k1] a n
  | none => s

/-- A slot whose first attempt differs from later ones has been attempted (R384). -/
def State.setTimed (s : State) (yes : Bool) : State := if yes then { s with issue := { s.issue with timed := true } } else s

/-- The gather phase of a slot: its use, its stalls and its first failing check (R275 steps 3 and 4). -/
def SlotOp.gather (o : SlotOp) (s : State) : State :=
  match s.predicate o.slot o.pred with
  | (val, poison) =>
    if poison then (s.use o.slot .on).fail o.slot 0x02
    else if s.predicateBad o.slot o.pred then (s.use o.slot .on).fail o.slot 0xA5
    else if !val then s.use o.slot .off
    else
      let s := s.use o.slot .on
      let s := s.setTimed o.timed
      let s := s.wait (o.allWaits s)
      match o.firstFail s with
      | some c => (o.note s).fail o.slot c
      | none =>
        o.plan (o.seen s)

/-- The feed's oldest vector leaves it, once in a bundle (R72), for the slot that names it; past the walk's last vector the feed is IDLE. One
that met an uncorrectable error is popped poisoned, and 0x5B is deferred (R286), or starts the recovery of the region that holds the feed
(R289). The NaN lanes of a rebuilt vector count (R229). -/
def State.popFeed (slot : Nat) (s : State) (f : Fin 8) : State :=
  if s.issue.popped.any (fun p => p.1 == f) then s
  else
    match (s.ctx.feeds[f]).held with
    | [] => s
    | v :: rest =>
      let s := s.modCtx (fun c =>
        let p := c.feeds[f]
        let n := p.popped + 1
        let total := if p.rebuild then fieldNat (blkWord p.block 3) 31 16 * fieldNat (blkWord p.block 3) 15 0
          else
            let loops := fieldNat (blkWord p.block 7) 1 0
            let cnt (k : Nat) : Nat := if loops < k then 1 else fieldNat (blkWord p.block (1 + k / 2)) (16 * (k % 2) + 15) (16 * (k % 2))
            cnt 0 * cnt 1 * cnt 2 * cnt 3
        let ctl := (blkWord p.block 7).toNat
        let c := { c with feeds := c.feeds.set f.val { p with held := rest, popped := n, active := decide (n < total) } f.isLt }
        let c := if n = total ∧ ctl.testBit 31 then c.semAdd (BitVec.ofNat 5 (ctl >>> 24)) 1 else c
        if v.poison then c.recordPoison (poisonRecord 0 slot 6 c.flow.pc) else c)
      let s := s.countExc 1 v.nans s.tag
      let s := if !v.poison then s
        else if s.tile.contains s.tag (s.ctx.feeds[f]).region then s.regionFault s.tag else s.defer s.tag 0x5B
      { s with issue := { s.issue with popped := s.issue.popped ++ [(f, v.val, v.poison)] } }

/-- The commit phase of a slot that is not predicated off: its feeds pop, then its effect. -/
def SlotOp.commit (o : SlotOp) (s : State) : State :=
  if (s.predicate o.slot o.pred).1 then o.act (o.pops.foldl (State.popFeed o.slot) s) else s

/-- What follows the other slots' effects. -/
def SlotOp.lateAct (o : SlotOp) (s : State) : State :=
  if (s.issue.uses.toList.getD o.slot .empty) = .on then o.late s else s

/-! ### The attempt (R275) -/

/-- The three passes of a bundle over its slots: gather, commit, late. -/
structure Passes where
  gather : State → State
  commit : State → State
  late : State → State

/-- CRC-32C of one byte into register C (R292). -/
def crcByte : Nat → BitVec 32 → BitVec 32
  | 0, c => c
  | n + 1, c => crcByte n (if c.toNat.testBit 0 then (c >>> 1) ^^^ 0x82F63B78#32 else c >>> 1)

/-- CRC-32C of n bytes of x from byte k on. -/
def crcBytes {w : Nat} (x : BitVec w) : Nat → Nat → BitVec 32 → BitVec 32
  | 0, _, c => c
  | n + 1, k, c => crcBytes x n (k + 1) (crcByte 8 (c ^^^ (byteOf x k).setWidth 32))

/-- The observation of an issued bundle (R292). -/
def Context.observe (c : Context) (starts : List Nat) (words : BitVec 128) (segchk : Bool) : Context :=
  if c.sys.inHandler then c
  else
    let c := if starts.contains (pcIndex c.flow.pc).toNat then { c with segN := 0, segC := 0xFFFFFFFF } else c
    if segchk then { c with segN := 0, segC := 0xFFFFFFFF }
    else { c with segN := c.segN + 1, segC := crcBytes words 16 0 c.segC }

/-- One slot position counted in a loop level of a tag: executed, or predicated off or empty (R309); true when a counter reaches its top. -/
def countUse (tag : Tag) (uses : Vector SlotUse 4) (k : Fin 4) (acc : Counts × Bool) (sl : Fin 4) : Counts × Bool :=
  let key := tag.val * 32 + k.val * 8 + sl.val * 2 + (if uses[sl] = .on ∨ uses[sl] = .reserved then 0 else 1)
  let v := acc.1.at key
  if v = 0xFFFFFFFF then acc else (acc.1.put key (v + 1), acc.2 || decide (v + 1 = 0xFFFFFFFF))

/-- The slot positions counted in a level, if it is active and its body holds the bundle (R309). -/
def countLevel (c : Context) (tag : Tag) (uses : Vector SlotUse 4) (acc : Counts × Bool) (k : Fin 4) : Counts × Bool :=
  let l := c.flow.loops[k]
  if l.active && decide (l.start.toNat ≤ c.flow.pc.toNat) && decide (c.flow.pc.toNat ≤ l.stop.toNat) then
    (List.finRange 4).foldl (countUse tag uses k) acc
  else acc

/-- The loop counters after a bundle (R309): every active level whose body holds the bundle counts every slot. -/
def loopCounts (c : Context) (tag : Tag) (uses : Vector SlotUse 4) (m : Counts) : Counts × Bool :=
  if c.sys.inHandler then (m, false) else (List.finRange 4).foldl (countLevel c tag uses) (m, false)

/-- The loop counters of the context in focus after the bundle; one that reaches its top defers 0x7F (R309). -/
def State.countLoops (s : State) : State :=
  let lc := loopCounts s.ctx s.tag s.issue.uses s.tile.acct.loops
  let t := s.modTile (fun t => { t with acct := { t.acct with loops := lc.1 } })
  if lc.2 then t.defer s.tag 0x7F else t

/-- The cycle's log names the bundle. -/
def State.logIssued (s : State) : State :=
  let i := s.issue
  let log : Issued := { tag := s.tag, pc := pcIndex s.ctx.flow.pc, seat := ((s.tile.core.seatOf s.tag).getD 0).val, uses := i.uses,
                        blockBanks := i.blockBanks, memBanks := i.memBanks }
  s.modCore (fun k => { k with log := { k.log with issued := k.log.issued ++ [log] } })

/-- A context after its bundle: the observation is kept (R292), the PC goes on (R107). -/
def Context.issued (c : Context) (starts : List Nat) (i : Issue) (now : Nat) : Context :=
  let c := c.observe starts i.words i.segchk
  { c with flow := c.flow.advance c.sys.inHandler i.transfer i.loop, serial := c.serial + 1,
           sys := { c.sys with doneMask := if c.sys.inHandler && !c.life.partLanded then c.sys.doneMask else 0 },
           asked := if c.sys.inHandler then { c.asked with gsliceIn := none } else { c.asked with gslicePast := none, gsliceIn := none }, dbg := { c.dbg with popped := [] },
           life := { c.life with lastIssue := some now, yielded := false, partLanded := false, entering := false } }

/-- The bundle has issued: the counters advance, the observation and the loop counters are kept, the cycle's log names it. -/
def State.issued (s : State) : State :=
  let starts := (s.program.map (fun p => p.segments.map (·.1))).getD []
  (s.countLoops.logIssued).modCtx (fun c => c.issued starts s.issue s.now)

/-- A step attempt that does not complete its bundle (R503): DONEMASK takes the bits of the slots done, and the feed vectors
that the bundle has popped stay with it. -/
def State.stepped (done : BitVec 4) (s : State) : State :=
  s.modCtx (fun c => { c with sys := { c.sys with doneMask := c.doneSlots ||| done },
                              dbg := { c.dbg with popped := s.issue.popped }, life := { c.life with partLanded := true, entering := false } })

/-- The next PC of the bundle under R107; that of a RETT is EPC.PC (R284). -/
def State.nextPc (s : State) : BitVec 32 :=
  if s.issue.rett then s.ctx.retFromTrap.flow.pc else (s.ctx.flow.advance s.ctx.sys.inHandler s.issue.transfer s.issue.loop).pc

/-- Whether the window-end trap of R62 applies: not for a PARK or a CKILL of its own context. -/
def State.pastWindow (s : State) : Bool := !s.issue.parks && decide (16 * s.windowLen ≤ s.nextPc.toNat)

/-- Whether the bundle cannot merge with one already issued in this cycle (R64, R259): a slot occupied in both, or a
command or parameter block in a bank that the other's M-slot access occupies. A slot that DONEMASK skips counts as unoccupied:
DESIGN CHOICE, unsafe, log 153. -/
def State.collides (s : State) : Bool :=
  s.tile.core.log.issued.any (fun b =>
    (List.finRange 4).any (fun k => b.uses[k] != .empty && s.issue.uses[k] != .empty)
    || s.issue.blockBanks.any (fun x => b.memBanks.contains x) || s.issue.memBanks.any (fun x => b.blockBanks.contains x))

/-- The issue scratch cleared. -/
def State.clearIssue (s : State) : State := { s with issue := {} }

/-- An attempt of the bundle with GSLICE.wait has been made (R384). -/
def State.past (s : State) (yes : Bool) : State :=
  if yes then s.modCtx (fun c => { c with asked :=
    if c.sys.inHandler then { c.asked with gsliceIn := some c.flow.pc } else { c.asked with gslicePast := some c.flow.pc } }) else s

/-- Whether the bundle with GSLICE.wait at the PC has been attempted before (R384). -/
def Context.attempted (c : Context) : Bool := (if c.sys.inHandler then c.asked.gsliceIn else c.asked.gslicePast) == some c.flow.pc

/-- The phase of the slots' passes. -/
def State.inPhase (s : State) (p : Phase) : State := { s with issue := { s.issue with phase := p } }

/-- Whether a value due at the boundary has not arrived: a compatibility stall (R85). -/
def State.compatStall (s : State) : Bool := !s.ctx.life.partLanded && !s.holds .arrived

/-- The state in which the slots of a bundle are looked at: due writes have landed (R82), and the feed vectors that a partial bundle has
popped are at hand (R503). -/
def State.beginAttempt (s0 : State) : State :=
  let s := if s0.ctx.life.partLanded then s0 else s0.modCtx Context.landed
  let s := s.inPhase .gather
  { s with issue := { s.issue with popped := s.ctx.dbg.popped } }

/-- The bundle's PC seen by the watchpoints, unless slot 0 fails or is done (R504). -/
def State.watchPc (s : State) : State :=
  if s.issue.fails.any (·.1 == 0) ∨ s.ctx.doneSlots.toNat.testBit 0 then s
  else s.watchAccess 0 [0] (pcIndex s.ctx.flow.pc).toNat 1

/-- Whether the first match holds the context (R504). -/
def State.watchHolds (s : State) : Bool :=
  match firstWatch s.issue.watch with
  | some (_, w) => (s.tile.dbg.wpCtl.toList.getD w 0).toNat.testBit 0 && s.mayHold s.ctx
  | none => false

/-- The watch check: a match that does not hold the context fails its slot with 0x30 + w (R504). -/
def State.watchCheck (s : State) : State :=
  match firstWatch s.issue.watch with
  | some (k, w) => if s.watchHolds then s else s.fail k (BitVec.ofNat 8 (0x30 + w))
  | none => s

/-- The bundle commits and finish ends it; then what follows the other slots' effects. -/
def State.commitBundle (p : Passes) (finish : State → State) (s : State) : State :=
  (p.late ((finish (p.commit (s.inPhase .commit))).inPhase .late)).clearIssue

/-- A bundle that another bundle of the cycle keeps back (R259). -/
def State.keptBack (s : State) : State :=
  (s.modCore (fun c => { c with log := { c.log with readyLost := some (s.tag, pcIndex s.ctx.flow.pc) } })).clearIssue

/-- What a bundle's failing checks lead to; s0 is the state before the attempt, s the one after its checks (R275 step 4). -/
def State.failAttempt (s0 s : State) : State :=
  ((((s0.dropTlb s.issue.tlbDrop).unmark (s.issue.unmark && (faultCode s.issue.fails).2 == 0x27)).useVerdict s.issue.refused).failBundle
    s.issue.fails s.issue.reserved).clearIssue

/-- The end of an issue attempt (R275), s0 being the state before it: stalls; then failing checks; then a watchpoint's hold; then the window-end
trap; then a barrier request that has no verdict yet (R393); then a collision with the other seat's bundle; else the commit. That a
GSLICE.wait has been attempted is noted whatever the end (R384). -/
def State.endAttempt (p : Passes) (complete : Bool) (finish : State → State) (s00 s : State) : State :=
  let s0 := s00.past s.issue.timed
  if s.issue.waits ≠ [] then (s0.stall s.issue.waits).clearIssue
  else if s.issue.fails ≠ [] then s0.failAttempt s
  else if s.watchHolds then (s0.hold s0.tag 3 (((firstWatch s.issue.watch).map (·.2)).getD 0)).clearIssue
  else if complete && s.pastWindow then (s0.takeTrap 0x20 0 s.ctx.flow.pc s.nextPc s.ctx.flow.indelay).clearIssue
  else match s.issue.ask with
    | some a => ((s0.askBarrier a).stall [.barrier a.n a.fn]).clearIssue
    | none => if s.collides then s0.keptBack else State.commitBundle p finish s

/-- The body of an issue attempt (R275): in a compatibility stall nothing of the bundle is looked at (R85). complete says that the attempt
completes its bundle, so that it leaves by its next PC. -/
def State.tryBundle (p : Passes) (complete : Bool) (finish : State → State) (s0 : State) : State :=
  if s0.compatStall then (s0.stall [.arrived]).clearIssue
  else s0.endAttempt p complete finish (p.gather s0.beginAttempt).watchPc.watchCheck

/-- One issue attempt of the context in focus (R275): a deferred cause first, or a recovery that waits, or the trap 0xBC of a
step with TRAPREQ (R503); then its bundle. -/
def State.attempt (p : Passes) (s0 : State) : State :=
  match s0.ctx.life.deferred, s0.ctx.sys.inHandler, s0.ctx.life.recovery with
  | some code, false, _ => (s0.takeDeferred code).clearIssue
  | _, false, true => (s0.recover 0xA1 0).clearIssue
  | _, _, _ =>
    if s0.ctx.dbg.stepTrap then
      ((s0.modCtx (fun c => { c with dbg := { c.dbg with stepTrap := false } })).trapHere 0xBC 0).clearIssue
    else s0.tryBundle p true State.issued

/-- What a slot instruction's meaning does in the phase that is asked. In phase single the bundle holds only it. -/
def SlotOp.run (o : SlotOp) (s : State) : State :=
  match s.issue.phase with
  | .single => s.attempt { gather := o.gather, commit := o.commit, late := o.lateAct }
  | .gather => o.gather s
  | .commit => o.commit s
  | .late => o.lateAct s

/-! ### Results -/

/-- Whether any of the registers that a slot reads is poisoned (R80). -/
def State.anyPoison (s : State) (rs : List RegRef) : Bool := rs.any s.ctx.regs.poisoned

/-- g, p, m, x and h registers read at issue. -/
def State.g (s : State) (i : BitVec 5) : Word := (s.ctx.regs.getG i).val
def State.p (s : State) (i : BitVec 3) : Bool := (s.ctx.regs.getP i).val == 1
def State.m (s : State) (i : BitVec 3) : Mask := (s.ctx.regs.getM i).val

/-- An S-slot result in a g register (R80, R82). -/
def State.resultG (s : State) (slot : Nat) (l : Lat) (d : BitVec 5) (val : Word) (poison : Bool) : State :=
  s.pend slot l (.g d val) poison

end Sys2Proof.Machine
end

