-- ==== Sys2Proof/Machine/Operands.lean ====
section
/-! DEFINITION. The operand forms of the slots: V sources (Table 3-4), masks, lane masks at landing, sign-extended immediates,
bundle targets (R62) and the address arithmetic of local and global operands (R140, R168). -/

namespace Sys2Proof.Machine

/-- What a slot instruction's meaning answers. -/
abbrev Result := Host.Outcome State Fault Refusal

/-! ### Immediates and bundle addresses -/

/-- An immediate sign-extended to a word (R70). -/
def sx {w : Nat} (i : BitVec w) : Word := i.signExtend 32

/-- Why a byte offset names no bundle of the context's window (R62): 0x21 when it is not a multiple of 16, 0x20 beyond it. -/
def State.badTarget (s : State) (t : Int) : Option (BitVec 8) :=
  if t % 16 ≠ 0 then some 0x21
  else if t < 0 ∨ (16 * (s.windowLen : Int)) ≤ t then some 0x20
  else none

/-- PC + off x 16 as an unbounded integer (R103). -/
def State.relTarget {w : Nat} (s : State) (off : BitVec w) : Int := (s.ctx.flow.pc.toNat : Int) + off.toInt * 16

/-! ### V sources (R71, R120) -/

/-- The v register that a V source names. -/
def srcRegs (a : BitVec 5) : List RegRef := if a.toNat < 16 then [.v (a.setWidth 4)] else []

/-- The feed that a V source pops. -/
def srcPops (a : BitVec 5) : List (Fin 8) := if 16 ≤ a.toNat ∧ a.toNat < 24 then [Fin.ofNat 8 (a.toNat - 16)] else []

/-- The value and the poison of a V source at issue; a feed's is the vector that the bundle has popped (R72). -/
def State.vsrc (s : State) (a : BitVec 5) : Vec × Bool :=
  if a.toNat < 16 then let r := s.ctx.regs.getV (a.setWidth 4); (r.val, r.poison)
  else if a.toNat < 24 then
    match s.issue.popped.find? (fun p => p.1.val == a.toNat - 16) with
    | some p => (p.2.1, p.2.2)
    | none => (0, false)
  else if a.toNat = 24 then (0, false)
  else (laneIndex, false)

/-- The vector of v register i. -/
def State.vreg (s : State) (i : Nat) : Vec × Bool := let r := s.ctx.regs.getV (BitVec.ofNat 4 i); (r.val, r.poison)

/-- A V-slot result under a write mask (R118, R119). -/
def State.resultV (s : State) (slot : Nat) (l : Lat) (d : BitVec 4) (mk : BitVec 3) (val : Vec) (poison : Bool) : State :=
  s.pend slot l (.v d val (s.m mk) (mk == 0)) (poison || (s.ctx.regs.getM mk).poison)

/-- A result that writes a whole v register. -/
def State.resultVAll (s : State) (slot : Nat) (l : Lat) (d : BitVec 4) (val : Vec) (poison : Bool) : State :=
  s.pend slot l (.v d val fullMask true) poison

/-! ### SRSTEP (R45) -/

/-- The SRSTEP value that an instruction uses, and the state after its advance. -/
def State.takeStep (s : State) : Nat × State :=
  (s.ctx.sys.srstep.toNat, s.modCtx (fun c => { c with sys := { c.sys with srstep := c.sys.srstep + 1 } }))

/-- The floating mode of the context in focus. -/
def State.fpMode (s : State) : FpMode := FpMode.of s.ctx.sys.fpc

/-! ### Global addresses (R29, R30) -/

/-- The value of h register i. -/
def State.h (s : State) (i : BitVec 3) : BitVec 96 := (s.ctx.regs.getH i).val

/-- The address of a remote operand: (h[79:0] + zero_extend(ga)) mod 2^80, the attributes unchanged (R168). -/
def State.remoteAddr (s : State) (h : BitVec 3) (a : BitVec 5) : BitVec 80 :=
  (s.h h).setWidth 80 + (s.g a).setWidth 80

end Sys2Proof.Machine
end

