-- ==== Sys2Proof/Machine/Flags.lean ====
section
/-! DEFINITION. The flag computations: the part has no condition codes, so these are the predicate and mask results of compares
(R99, R100, R126), FPC writes (R42) and SEMV and POISONREC writes (R79, R111). -/

namespace Sys2Proof.Machine

/-- cb of SETP and SETPI (R99): set, and, or with the old predicate. -/
def combine (cb : BitVec 2) (old c : Bool) : Bool :=
  if cb = 0 then c else if cb = 1 then old && c else old || c

/-- A predicate result, with poison. -/
def State.resultP (s : State) (d : BitVec 3) (c : Bool) (poison : Bool) : State := s.pend 0 (.n 1) (.p d c) poison

/-- The integer conditions of VCMP (Table 3-4). -/
def icond (c : Nat) (a b : Int) : Bool :=
  match c with
  | 0 => a == b | 1 => a != b | 2 => decide (a < b) | 3 => decide (a ≤ b) | 4 => decide (b < a) | _ => decide (b ≤ a)

/-- IEEE equality of values that are not NaN. -/
def FVal.eqv (a b : FVal) : Bool := !FVal.lt a b && !FVal.lt b a

/-- The conditions of VFCMP (R126). -/
def fcond (c : Nat) (a b : FVal) : Bool :=
  let un := a.isNan || b.isNan
  match c with
  | 0 => !un && FVal.eqv a b
  | 1 => un || !FVal.eqv a b
  | 2 => !un && FVal.lt a b
  | 3 => !un && !FVal.lt b a
  | 4 => !un && FVal.lt b a
  | 5 => !un && !FVal.lt a b
  | 6 => un
  | _ => !un

/-- The FPC that a write leaves (R42): reserved values of RM and NAN leave their fields, reserved bits read zero. -/
def fpcWrite (old w : BitVec 32) : BitVec 32 :=
  let rm := if fieldNat w 8 6 ≤ 5 then fieldNat w 8 6 else fieldNat old 8 6
  let nan := if fieldNat w 13 12 ≤ 1 then fieldNat w 13 12 else fieldNat old 13 12
  BitVec.ofNat 32 (fieldNat w 31 16 * 2 ^ 16 + nan * 2 ^ 12 + fieldNat w 11 9 * 2 ^ 9 + rm * 2 ^ 6)

/-- A write to FPC (R42): every one sets SRSTEP to 0. -/
def SysRegs.writeFpc (q : SysRegs) (w : BitVec 32) : SysRegs := { q with fpc := fpcWrite q.fpc w, srstep := 0 }

/-- A write to POISONLO (R79): zero clears POISONREC, any other value is ignored. -/
def SysRegs.writePoison (q : SysRegs) (w : BitVec 32) : SysRegs := if w = 0 then { q with poisonRec := 0 } else q

end Sys2Proof.Machine
end

