-- ==== Sys2Proof/Machine/VectorInt.lean ====
section
/-! DEFINITION. The V slot's integer, compare, mask, select, permute and move instructions (R117 to R120, R123, R126 to R128,
R136 to R139). -/

namespace Sys2Proof.Machine

/-- Element width and signedness of an integer ty code (Table 3-4). -/
def intTy (t : Nat) : Nat × Bool :=
  match t with
  | 0 => (32, true) | 1 => (32, false) | 2 => (16, true) | 3 => (16, false) | 4 => (8, true) | _ => (8, false)

/-- The integer value of w bits, signed or not. -/
def intVal (w : Nat) (sg : Bool) (x : Nat) : Int := if sg then signedOf w x else ((x % 2 ^ w : Nat) : Int)

/-- The least and the greatest value of an integer type. -/
def intLo (w : Nat) (sg : Bool) : Int := if sg then -(2 ^ (w - 1)) else 0
def intHi (w : Nat) (sg : Bool) : Int := if sg then 2 ^ (w - 1) - 1 else 2 ^ w - 1

/-- The integer element functions (Table 5-2). -/
inductive VFn where
  | add | sub | mul | mulh | min | max | adds | subs | absd | and | or | xor | shl | shr | avg | popc
  deriving DecidableEq, Repr

/-- One element of Table 5-2: operands and result as w-bit numbers. -/
def intElem (f : VFn) (w : Nat) (sg : Bool) (x y : Nat) : Nat :=
  let a := intVal w sg x
  let b := intVal w sg y
  match f with
  | .add => wrapNat w (a + b)
  | .sub => wrapNat w (a - b)
  | .mul => wrapNat w (a * b)
  | .mulh => wrapNat w ((a * b) / 2 ^ w)
  | .min => wrapNat w (min a b)
  | .max => wrapNat w (max a b)
  | .adds => wrapNat w (clampInt (intLo w sg) (intHi w sg) (a + b))
  | .subs => wrapNat w (clampInt (intLo w sg) (intHi w sg) (a - b))
  | .absd => wrapNat w (if a < b then b - a else a - b)
  | .and => x &&& y
  | .or => x ||| y
  | .xor => x ^^^ y
  | .shl => wrapNat w (a * 2 ^ (y % w))
  | .shr => wrapNat w (a / 2 ^ (y % w))
  | .avg => wrapNat w ((a + b + 1) / 2)
  | .popc => popCount w x

/-- The vector of the elements f of two vectors. -/
def vecMap2 (w : Nat) (f : Nat → Nat → Nat) (a b : Vec) : Vec := ofElems w (fun j => f (element w a j) (element w b j))

/-- The vector whose every element of width w is the low w bits of a word (R123). -/
def splatElem (w : Nat) (g : Word) : Vec := ofElems w (fun _ => g.toNat)

/-- An integer operation of two V sources (R123). -/
def opVInt (f : VFn) (p : BitVec 2) (d : BitVec 4) (a b : BitVec 5) (m t : BitVec 3) : SlotOp :=
  { slot := 1, pred := p, reads := srcRegs a ++ srcRegs b ++ [.m m], pops := srcPops a ++ srcPops b,
    act := fun s =>
      let (w, sg) := intTy t.toNat
      let x := s.vsrc a
      let y := s.vsrc b
      s.resultV 1 (.n 2) d m (vecMap2 w (intElem f w sg) x.1 y.1) (x.2 || y.2) }

/-- An integer operation with a scalar operand (R123). -/
def opVIntS (f : VFn) (p : BitVec 2) (d : BitVec 4) (a g : BitVec 5) (m t : BitVec 3) : SlotOp :=
  { slot := 1, pred := p, reads := srcRegs a ++ [.g g, .m m], pops := srcPops a,
    act := fun s =>
      let (w, sg) := intTy t.toNat
      let x := s.vsrc a
      s.resultV 1 (.n 2) d m (vecMap2 w (intElem f w sg) x.1 (splatElem w (s.g g))) (x.2 || s.anyPoison [.g g]) }

/-- A lane move of one V source (R136, R137): lane l of vd takes lane f l of va. -/
def opLanes (lat : Nat) (p : BitVec 2) (d : BitVec 4) (a : BitVec 5) (m : BitVec 3) (f : Nat → Nat) : SlotOp :=
  { slot := 1, pred := p, reads := srcRegs a ++ [.m m], pops := srcPops a,
    act := fun s =>
      let x := s.vsrc a
      s.resultV 1 (.n lat) d m (ofLanes (fun l => lane x.1 (f l))) x.2 }

/-- Mask logic (R127). -/
def opMask (f : Mask → Mask → Mask) (p : BitVec 2) (d a b : BitVec 3) : SlotOp :=
  { slot := 1, pred := p, reads := [.m a, .m b],
    act := fun s => s.pend 1 (.n 2) (.m d (f (s.m a) (s.m b))) (s.anyPoison [.m a, .m b]) }

/-- The nine bits that the bundle's header lends, zero without one (R68). -/
def State.lend (s : State) : Nat := s.issue.header.toNat % 512

/-- VADD (R123). -/
def execVadd (p : BitVec 2) (d : BitVec 4) (a b : BitVec 5) (m t : BitVec 3) (s : State) : Result :=
  .next ((opVInt .add p d a b m t).run s)
/-- VADD_SCALAR (R123). -/
def execVaddScalar (p : BitVec 2) (d : BitVec 4) (a g : BitVec 5) (m t : BitVec 3) (s : State) : Result :=
  .next ((opVIntS .add p d a g m t).run s)
/-- VSUB (R123). -/
def execVsub (p : BitVec 2) (d : BitVec 4) (a b : BitVec 5) (m t : BitVec 3) (s : State) : Result :=
  .next ((opVInt .sub p d a b m t).run s)
/-- VSUB_SCALAR (R123). -/
def execVsubScalar (p : BitVec 2) (d : BitVec 4) (a g : BitVec 5) (m t : BitVec 3) (s : State) : Result :=
  .next ((opVIntS .sub p d a g m t).run s)
/-- VMUL (R123). -/
def execVmul (p : BitVec 2) (d : BitVec 4) (a b : BitVec 5) (m t : BitVec 3) (s : State) : Result :=
  .next ((opVInt .mul p d a b m t).run s)
/-- VMUL_SCALAR (R123). -/
def execVmulScalar (p : BitVec 2) (d : BitVec 4) (a g : BitVec 5) (m t : BitVec 3) (s : State) : Result :=
  .next ((opVIntS .mul p d a g m t).run s)
/-- VMULH (R123). -/
def execVmulh (p : BitVec 2) (d : BitVec 4) (a b : BitVec 5) (m t : BitVec 3) (s : State) : Result :=
  .next ((opVInt .mulh p d a b m t).run s)
/-- VMULH_SCALAR (R123). -/
def execVmulhScalar (p : BitVec 2) (d : BitVec 4) (a g : BitVec 5) (m t : BitVec 3) (s : State) : Result :=
  .next ((opVIntS .mulh p d a g m t).run s)
/-- VMIN (R123). -/
def execVmin (p : BitVec 2) (d : BitVec 4) (a b : BitVec 5) (m t : BitVec 3) (s : State) : Result :=
  .next ((opVInt .min p d a b m t).run s)
/-- VMIN_SCALAR (R123). -/
def execVminScalar (p : BitVec 2) (d : BitVec 4) (a g : BitVec 5) (m t : BitVec 3) (s : State) : Result :=
  .next ((opVIntS .min p d a g m t).run s)
/-- VMAX (R123). -/
def execVmax (p : BitVec 2) (d : BitVec 4) (a b : BitVec 5) (m t : BitVec 3) (s : State) : Result :=
  .next ((opVInt .max p d a b m t).run s)
/-- VMAX_SCALAR (R123). -/
def execVmaxScalar (p : BitVec 2) (d : BitVec 4) (a g : BitVec 5) (m t : BitVec 3) (s : State) : Result :=
  .next ((opVIntS .max p d a g m t).run s)
/-- VADDS (R123). -/
def execVadds (p : BitVec 2) (d : BitVec 4) (a b : BitVec 5) (m t : BitVec 3) (s : State) : Result :=
  .next ((opVInt .adds p d a b m t).run s)
/-- VADDS_SCALAR (R123). -/
def execVaddsScalar (p : BitVec 2) (d : BitVec 4) (a g : BitVec 5) (m t : BitVec 3) (s : State) : Result :=
  .next ((opVIntS .adds p d a g m t).run s)
/-- VSUBS (R123). -/
def execVsubs (p : BitVec 2) (d : BitVec 4) (a b : BitVec 5) (m t : BitVec 3) (s : State) : Result :=
  .next ((opVInt .subs p d a b m t).run s)
/-- VSUBS_SCALAR (R123). -/
def execVsubsScalar (p : BitVec 2) (d : BitVec 4) (a g : BitVec 5) (m t : BitVec 3) (s : State) : Result :=
  .next ((opVIntS .subs p d a g m t).run s)
/-- VABSD (R123). -/
def execVabsd (p : BitVec 2) (d : BitVec 4) (a b : BitVec 5) (m t : BitVec 3) (s : State) : Result :=
  .next ((opVInt .absd p d a b m t).run s)
/-- VABSD_SCALAR (R123). -/
def execVabsdScalar (p : BitVec 2) (d : BitVec 4) (a g : BitVec 5) (m t : BitVec 3) (s : State) : Result :=
  .next ((opVIntS .absd p d a g m t).run s)
/-- VAND (R123). -/
def execVand (p : BitVec 2) (d : BitVec 4) (a b : BitVec 5) (m t : BitVec 3) (s : State) : Result :=
  .next ((opVInt .and p d a b m t).run s)
/-- VAND_SCALAR (R123). -/
def execVandScalar (p : BitVec 2) (d : BitVec 4) (a g : BitVec 5) (m t : BitVec 3) (s : State) : Result :=
  .next ((opVIntS .and p d a g m t).run s)
/-- VOR (R123). -/
def execVor (p : BitVec 2) (d : BitVec 4) (a b : BitVec 5) (m t : BitVec 3) (s : State) : Result :=
  .next ((opVInt .or p d a b m t).run s)
/-- VOR_SCALAR (R123). -/
def execVorScalar (p : BitVec 2) (d : BitVec 4) (a g : BitVec 5) (m t : BitVec 3) (s : State) : Result :=
  .next ((opVIntS .or p d a g m t).run s)
/-- VXOR (R123). -/
def execVxor (p : BitVec 2) (d : BitVec 4) (a b : BitVec 5) (m t : BitVec 3) (s : State) : Result :=
  .next ((opVInt .xor p d a b m t).run s)
/-- VXOR_SCALAR (R123). -/
def execVxorScalar (p : BitVec 2) (d : BitVec 4) (a g : BitVec 5) (m t : BitVec 3) (s : State) : Result :=
  .next ((opVIntS .xor p d a g m t).run s)
/-- VSHL (R123). -/
def execVshl (p : BitVec 2) (d : BitVec 4) (a b : BitVec 5) (m t : BitVec 3) (s : State) : Result :=
  .next ((opVInt .shl p d a b m t).run s)
/-- VSHL_SCALAR (R123). -/
def execVshlScalar (p : BitVec 2) (d : BitVec 4) (a g : BitVec 5) (m t : BitVec 3) (s : State) : Result :=
  .next ((opVIntS .shl p d a g m t).run s)
/-- VSHR (R123). -/
def execVshr (p : BitVec 2) (d : BitVec 4) (a b : BitVec 5) (m t : BitVec 3) (s : State) : Result :=
  .next ((opVInt .shr p d a b m t).run s)
/-- VSHR_SCALAR (R123). -/
def execVshrScalar (p : BitVec 2) (d : BitVec 4) (a g : BitVec 5) (m t : BitVec 3) (s : State) : Result :=
  .next ((opVIntS .shr p d a g m t).run s)
/-- VAVG (R123). -/
def execVavg (p : BitVec 2) (d : BitVec 4) (a b : BitVec 5) (m t : BitVec 3) (s : State) : Result :=
  .next ((opVInt .avg p d a b m t).run s)
/-- VAVG_SCALAR (R123). -/
def execVavgScalar (p : BitVec 2) (d : BitVec 4) (a g : BitVec 5) (m t : BitVec 3) (s : State) : Result :=
  .next ((opVIntS .avg p d a g m t).run s)
/-- VPOPC (R123): vb is zero, so its code names v0, which the operation does not read. -/
def execVpopc (p : BitVec 2) (d : BitVec 4) (a : BitVec 5) (m t : BitVec 3) (s : State) : Result :=
  .next (SlotOp.run
    { slot := 1, pred := p, reads := srcRegs a ++ [.m m], pops := srcPops a,
      act := fun s =>
        let (w, sg) := intTy t.toNat
        let x := s.vsrc a
        s.resultV 1 (.n 2) d m (vecMap2 w (intElem .popc w sg) x.1 0) x.2 } s)

/-- The mask whose bit L is f L. -/
def maskOf (f : Nat → Bool) : Mask := BitVec.ofNat 128 (packElems 1 (fun l => if f l then 1 else 0) 128)

/-- VCMP (R126): a lane's bit is the conjunction over its elements, and with the mask's. -/
def execVcmp (p : BitVec 2) (d : BitVec 3) (a b : BitVec 5) (m t : BitVec 3) (c : BitVec 4) (s : State) : Result :=
  .next (SlotOp.run
    { slot := 1, pred := p, reads := srcRegs a ++ srcRegs b ++ [.m m], pops := srcPops a ++ srcPops b,
      act := fun s =>
        let (w, sg) := intTy t.toNat
        let x := s.vsrc a
        let y := s.vsrc b
        let test := fun j => icond c.toNat (intVal w sg (element w x.1 j)) (intVal w sg (element w y.1 j))
        let r := maskOf (fun l => (s.m m).toNat.testBit l && (List.range (32 / w)).all (fun e => test (l * (32 / w) + e)))
        s.pend 1 (.n 2) (.m d r) (x.2 || y.2 || s.anyPoison [.m m]) } s)

/-- MAND (R127). -/
def execMand (p : BitVec 2) (d a b : BitVec 3) (s : State) : Result := .next ((opMask (· &&& ·) p d a b).run s)
/-- MOR (R127). -/
def execMor (p : BitVec 2) (d a b : BitVec 3) (s : State) : Result := .next ((opMask (· ||| ·) p d a b).run s)
/-- MXOR (R127). -/
def execMxor (p : BitVec 2) (d a b : BitVec 3) (s : State) : Result := .next ((opMask (· ^^^ ·) p d a b).run s)
/-- MANDN (R127). -/
def execMandn (p : BitVec 2) (d a b : BitVec 3) (s : State) : Result := .next ((opMask (fun x y => x &&& ~~~ y) p d a b).run s)

/-- VSEL (R128): every lane is written. -/
def execVsel (p : BitVec 2) (d : BitVec 4) (a b : BitVec 5) (m : BitVec 3) (s : State) : Result :=
  .next (SlotOp.run
    { slot := 1, pred := p, reads := srcRegs a ++ srcRegs b ++ [.m m], pops := srcPops a ++ srcPops b,
      act := fun s =>
        let x := s.vsrc a
        let y := s.vsrc b
        s.resultVAll 1 (.n 2) d (mergeLanes (s.m m) y.1 x.1) (x.2 || y.2 || s.anyPoison [.m m]) } s)

/-- VPERM (R136). -/
def execVperm (p : BitVec 2) (d : BitVec 4) (a b : BitVec 5) (m : BitVec 3) (s : State) : Result :=
  .next (SlotOp.run
    { slot := 1, pred := p, reads := srcRegs a ++ srcRegs b ++ [.m m], pops := srcPops a ++ srcPops b,
      act := fun s =>
        let x := s.vsrc a
        let y := s.vsrc b
        s.resultV 1 (.n 2) d m (ofLanes (fun l => lane x.1 (16 * (l / 16) + (lane y.1 l).toNat % 16))) (x.2 || y.2) } s)
/-- VROT (R136). -/
def execVrot (p : BitVec 2) (d : BitVec 4) (a k : BitVec 5) (m : BitVec 3) (s : State) : Result :=
  .next ((opLanes 2 p d a m (fun l => 16 * (l / 16) + (l % 16 + 16 - k.toNat % 16) % 16)).run s)
/-- VBCL (R136). -/
def execVbcl (p : BitVec 2) (d : BitVec 4) (a k : BitVec 5) (m : BitVec 3) (s : State) : Result :=
  .next ((opLanes 2 p d a m (fun l => 16 * (l / 16) + k.toNat % 16)).run s)

/-- VXCOPY (R137): pat 0 rotates clusters by k, 1 broadcasts cluster k, 2 exchanges with cluster c xor k. -/
def execVxcopy (p : BitVec 2) (d : BitVec 4) (a : BitVec 5) (t : BitVec 4) (k m : BitVec 3) (s : State) : Result :=
  .next ((opLanes 5 p d a m (fun l =>
    let c := l / 16
    let from' := match t.toNat with
      | 0 => (c + 8 - k.toNat) % 8
      | 1 => k.toNat
      | _ => c ^^^ k.toNat
    16 * from' + l % 16)).run s)

/-- VMOVI (R138): the 26-bit immediate LEND : imm17, sign-extended, in every enabled lane. -/
def execVmovi (p : BitVec 2) (d : BitVec 4) (m : BitVec 3) (i : BitVec 17) (s : State) : Result :=
  .next (SlotOp.run
    { slot := 1, pred := p, reads := [.m m],
      act := fun s => s.resultV 1 (.n 2) d m (splat (sx (BitVec.ofNat 26 (s.lend * 2 ^ 17 + i.toNat)))) false } s)
/-- VMOVH (R138): the immediate times 2^6. -/
def execVmovh (p : BitVec 2) (d : BitVec 4) (m : BitVec 3) (i : BitVec 17) (s : State) : Result :=
  .next (SlotOp.run
    { slot := 1, pred := p, reads := [.m m],
      act := fun s => s.resultV 1 (.n 2) d m (splat (BitVec.ofNat 32 ((s.lend * 2 ^ 17 + i.toNat) * 2 ^ 6))) false } s)

/-- VGET (R139). -/
def execVget (p : BitVec 2) (a g : BitVec 5) (l : BitVec 7) (s : State) : Result :=
  .next (SlotOp.run
    { slot := 1, pred := p, reads := srcRegs a, pops := srcPops a,
      act := fun s => let x := s.vsrc a; s.resultG 1 (.n 2) g (lane x.1 l.toNat) x.2 } s)
/-- VPUT (R139): every lane is written, lane l with g. -/
def execVput (p : BitVec 2) (d : BitVec 4) (a g : BitVec 5) (l : BitVec 7) (s : State) : Result :=
  .next (SlotOp.run
    { slot := 1, pred := p, reads := srcRegs a ++ [.g g], pops := srcPops a,
      act := fun s =>
        let x := s.vsrc a
        s.resultVAll 1 (.n 2) d (mergeLanes (BitVec.ofNat 128 (2 ^ l.toNat)) x.1 (splat (s.g g))) (x.2 || s.anyPoison [.g g]) } s)
/-- VBCG (R139). -/
def execVbcg (p : BitVec 2) (d : BitVec 4) (g : BitVec 5) (s : State) : Result :=
  .next (SlotOp.run
    { slot := 1, pred := p, reads := [.g g],
      act := fun s => s.resultVAll 1 (.n 2) d (splat (s.g g)) (s.anyPoison [.g g]) } s)

end Sys2Proof.Machine
end

