-- ==== Sys2Proof/Machine/LocalMem.lean ====
section
/-! DEFINITION. The M slot's loads, stores and atomics on the memories of the tile (R140 to R149), and the two colour
instructions of the S slot. -/

namespace Sys2Proof.Machine

/-! ### The memories -/

/-- A local memory of a tile. -/
def Tile.store (t : Tile) : Space → Store
  | .spad => t.mem.spad
  | .acc => t.mem.acc
  | .wst => t.mem.wst

/-- A local memory replaced. -/
def Tile.setStore (t : Tile) (sp : Space) (m : Store) : Tile :=
  match sp with
  | .spad => { t with mem := { t.mem with spad := m } }
  | .acc => { t with mem := { t.mem with acc := m } }
  | .wst => { t with mem := { t.mem with wst := m } }

/-- The bytes of a protected word of a space (R512). -/
def Space.word : Space → Nat
  | .wst => 32 | _ => 8

/-- The size of a space in bytes. -/
def Space.size : Space → Nat
  | .spad => 0x200000 | .acc => 0x40000 | .wst => 0x1000000

/-- The n bytes at a of a space. -/
def Tile.read (t : Tile) (sp : Space) (a n : Nat) : Nat := (t.store sp).readNat a n

/-- Whether a read of n bytes at a meets an uncorrectable word (R286). -/
def Tile.readBad (t : Tile) (sp : Space) (a n : Nat) : Bool := (t.store sp).badIn sp.word a n

/-- n bytes of a number written at a of a space. -/
def Tile.write (t : Tile) (sp : Space) (a n v : Nat) : Tile := t.setStore sp ((t.store sp).writeNat sp.word a n v)

/-- The protected words of n bytes at a marked as reading uncorrectable: what was written there came poisoned (R286, R512). -/
def Tile.spoil (t : Tile) (sp : Space) (a n : Nat) : Tile :=
  t.setStore sp ((List.range (n / sp.word)).foldl (fun m k => m.spoil (a / sp.word + k)) (t.store sp))

/-- NET_UE recorded at a tile that detects an uncorrectable error in what the network carries (R286). -/
def Tile.netUe (t : Tile) (bad : Bool) : Tile := if bad then { t with life := { t.life with causes := t.life.causes ++ [0x5C] } } else t

/-- A 64-byte beat that the network brings written: it takes the bank's beat, and poisoned data reads as uncorrectable (R142, R286). -/
def Tile.netWrite (t : Tile) (sp : Space) (a v : Nat) (bad : Bool) : Tile :=
  let t := (t.takeBeat sp a 64).write sp a 64 v
  if bad then t.spoil sp a 64 else t

/-- An accumulator word changed by f (R146, R147). -/
def Tile.accUpdate (t : Tile) (a : Nat) (f : Nat → Nat) : Tile := t.write .acc a 4 (f (t.read .acc a 4))

/-- n accumulator words from a, each changed by f with its index. -/
def Tile.accUpdates (t : Tile) (a : Nat) (f : Nat → Nat → Nat) : Nat → Tile
  | 0 => t
  | n + 1 => (t.accUpdates a f n).accUpdate (a + 4 * n) (f n)

/-- The colour of an accumulator offset's region (R148). -/
def Tile.colourAt (t : Tile) (a : Nat) : Bool := t.mem.colours.toNat.testBit (a / 4096)

/-- One coloured add discarded (R148). -/
def Tile.dropColour (t : Tile) : Tile :=
  { t with mem := { t.mem with colDrop := if t.mem.colDrop = 0xFFFFFFFF then t.mem.colDrop else t.mem.colDrop + 1 } }

/-- k corrected errors counted; CECOUNT saturates (R445, R447). -/
def TileLife.corrected (l : TileLife) (k : Nat) : TileLife :=
  { l with ceCount := BitVec.ofNat 32 (min (l.ceCount.toNat + k) 0xFFFFFFFF), ceGrain := l.ceGrain + k }

/-- The corrected errors that a read of n bytes meets, counted (R445). -/
def Tile.countCorrected (t : Tile) (sp : Space) (a n : Nat) : Tile :=
  { t with life := t.life.corrected ((t.store sp).weakIn sp.word a n) }

/-! ### Checks and stalls of a core access -/

/-- Whether the context's kernel runs with its weight store in WRITE mode. -/
def State.writeMode (s : State) : Bool := ((s.wafer.imageOf s.ctx.life.kernel).map (·.writeMode)).getD false

/-- The checks of a local access of n bytes at a, in the order of R141. -/
def State.localCheck (s : State) (sp : Space) (a n align : Nat) (write : Bool) : Option (BitVec 8) :=
  let k := s.ctx.life.kernel
  if sp.size < a + n then some 0x20
  else if a % align ≠ 0 then some 0x21
  else if sp = .wst ∧ s.writeMode ≠ write then some 0x23
  else if sp = .spad ∧ 0x1F0000 < a + n then some 0x25
  else if (unitsOf sp a n).any (s.tile.unitForeign k) then some (if sp = .spad then 0x28 else 0x2C)
  else if sp = .wst ∧ !s.ctx.life.secure ∧ (banksOf .wst a n).any (fun b => s.tile.life.wssec.toNat.testBit b) then some 0x29
  else none

/-- The stall conditions of a local access (R142 to R144, Table 14-8). -/
def localWaits (sp : Space) (a n : Nat) (write : Bool) : List WaitCond :=
  [.unlocked sp a n write, .unitHeld sp a n] ++ (if sp = .acc then [] else [.bankFree sp a n])
    ++ (if sp = .wst then [.refreshed a n] else [])

/-- A core access occupies its banks for some cycles; the accumulator moves it whole in its issue cycle (R142). -/
def State.useBanks (s : State) (sp : Space) (a n cycles : Nat) : State :=
  let mine : List BankUse := (banksOf sp a n).map (fun b => { sp := sp, bank := b, start := s.now, free := s.now + (if sp = .acc then 1 else cycles) })
  s.modCore (fun c => { c with banks := c.banks.filter (fun u => decide (s.now < u.free)) ++ mine })

/-- The scratchpad banks that the bundle's M-slot access occupies, for the merge rule (R259). -/
def State.planBanks (s : State) (sp : Space) (a n : Nat) : State :=
  if sp = .spad then { s with issue := { s.issue with memBanks := s.issue.memBanks ++ banksOf .spad a n } } else s

/-- The watch kind of a space's access (R504). -/
def watchKind (sp : Space) (write : Bool) : Nat :=
  match sp with
  | .spad => if write then 2 else 1
  | .acc => 4
  | .wst => 5

/-- ea of the local forms with a sign-extended offset (R140). -/
def State.ea {w : Nat} (s : State) (b : BitVec 5) (off : BitVec w) : Nat := (s.g b + sx off).toNat

/-- ea of WLD and WST (R140): the offset is LEND : offlo, zero-extended. -/
def State.eaLong (s : State) (b : BitVec 5) (off : BitVec 15) : Nat := (s.g b + BitVec.ofNat 32 (s.lend * 2 ^ 15 + off.toNat)).toNat

/-- A load of n bytes (R145): a poisoned base performs no access and poisons the destination (R141); an uncorrectable word
poisons it with POISONREC KIND 6. -/
def opLoad (sp : Space) (p : BitVec 2) (b : BitVec 5) (n align : Nat) (l : Lat) (ea : State → Nat) (dest : Nat → RegWrite) : SlotOp :=
  { slot := 2, pred := p, reads := [.g b], gated := true,
    waits := fun s => if s.anyPoison [.g b] then [] else localWaits sp (ea s) n false,
    checks := fun s => if s.anyPoison [.g b] then none else s.localCheck sp (ea s) n align false,
    watch := fun s => if s.anyPoison [.g b] then none else some (watchKind sp false, watchKind sp false, ea s, n),
    plan := fun s => if s.anyPoison [.g b] then s else s.planBanks sp (ea s) n,
    act := fun s =>
      if s.anyPoison [.g b] then s.pend 2 l (dest 0) true
      else
        let a := ea s
        let bad := s.tile.readBad sp a n
        let s := (s.useBanks sp a n (if n = 512 then 8 else 1)).modTile (fun t => t.countCorrected sp a n)
        let s := s.pend 2 l (dest (s.tile.read sp a n)) bad
        if bad then s.modCtx (fun c => c.recordPoison (poisonRecord 0 2 6 c.flow.pc)) else s }

/-- A store of n bytes (R145): rs are its data registers; upd gives the tile after it. -/
def opStore (sp : Space) (p : BitVec 2) (b : BitVec 5) (rs : List RegRef) (n align : Nat) (ea : State → Nat)
    (upd : State → Nat → Tile → Tile) : SlotOp :=
  { slot := 2, pred := p, reads := .g b :: rs, gated := true, consumes := fun s => s.anyPoison (.g b :: rs),
    waits := fun s => if s.anyPoison [.g b] then [] else localWaits sp (ea s) n true,
    checks := fun s => s.localCheck sp (ea s) n align true,
    watch := fun s => some (watchKind sp true, watchKind sp true, ea s, n),
    plan := fun s => s.planBanks sp (ea s) n,
    act := fun s => (s.useBanks sp (ea s) n (if n = 512 then 8 else 1)).modTile (upd s (ea s)) }

/-! ### Loads and stores (Table 6-2) -/

/-- Bytes of a sz code. -/
def szBytes (z : BitVec 2) : Nat := 2 ^ z.toNat

/-- LD (R145). -/
def execLd (p : BitVec 2) (d b : BitVec 5) (z : BitVec 2) (x : BitVec 1) (o : BitVec 11) (s : State) : Result :=
  .next ((opLoad .spad p b (szBytes z) (szBytes z) .spad (fun s => s.ea b o)
    (fun v => .g d (if x = 1 then BitVec.ofInt 32 (signedOf (8 * szBytes z) v) else BitVec.ofNat 32 v))).run s)
/-- ST (R145). -/
def execSt (p : BitVec 2) (g b : BitVec 5) (z : BitVec 2) (o : BitVec 11) (s : State) : Result :=
  .next ((opStore .spad p b [.g g] (szBytes z) (szBytes z) (fun s => s.ea b o)
    (fun s a t => t.write .spad a (szBytes z) (s.g g).toNat)).run s)
/-- ALD (R145). -/
def execAld (p : BitVec 2) (d b : BitVec 5) (o : BitVec 11) (s : State) : Result :=
  .next ((opLoad .acc p b 4 4 .acc (fun s => s.ea b o) (fun v => .g d (BitVec.ofNat 32 v))).run s)
/-- AST (R145). -/
def execAst (p : BitVec 2) (g b : BitVec 5) (o : BitVec 11) (s : State) : Result :=
  .next ((opStore .acc p b [.g g] 4 4 (fun s => s.ea b o) (fun s a t => t.write .acc a 4 (s.g g).toNat)).run s)
/-- VLD (R145). -/
def execVld (p : BitVec 2) (v : BitVec 4) (b : BitVec 5) (o : BitVec 15) (s : State) : Result :=
  .next ((opLoad .spad p b 512 64 .spad (fun s => s.ea b o) (fun x => .v v (BitVec.ofNat 4096 x) fullMask true)).run s)
/-- VST (R145). -/
def execVst (p : BitVec 2) (v : BitVec 4) (b : BitVec 5) (o : BitVec 15) (s : State) : Result :=
  .next ((opStore .spad p b [.v v] 512 64 (fun s => s.ea b o)
    (fun s a t => t.write .spad a 512 (s.ctx.regs.getV v).val.toNat)).run s)
/-- AVLD (R145). -/
def execAvld (p : BitVec 2) (v : BitVec 4) (b : BitVec 5) (o : BitVec 13) (s : State) : Result :=
  .next ((opLoad .acc p b 512 64 .acc (fun s => s.ea b o) (fun x => .v v (BitVec.ofNat 4096 x) fullMask true)).run s)
/-- AVST (R145): mode 00 overwrites, 01 adds F32, 10 adds I32; no colour. -/
def execAvst (p : BitVec 2) (v : BitVec 4) (b : BitVec 5) (m : BitVec 2) (o : BitVec 13) (s : State) : Result :=
  .next ((opStore .acc p b [.v v] 512 64 (fun s => s.ea b o)
    (fun s a t =>
      let x := (s.ctx.regs.getV v).val
      if m = 0 then t.write .acc a 512 x.toNat
      else t.accUpdates a (fun k w => if m = 1 then addF32 w (lane x k).toNat else (w + (lane x k).toNat) % 2 ^ 32) 128)).run s)
/-- WLD (R145): a long-immediate form. -/
def execWld (p : BitVec 2) (v : BitVec 4) (b : BitVec 5) (o : BitVec 15) (s : State) : Result :=
  .next ((opLoad .wst p b 512 64 .wst (fun s => s.eaLong b o) (fun x => .v v (BitVec.ofNat 4096 x) fullMask true)).run s)
/-- WST (R145): a long-immediate form. -/
def execWst (p : BitVec 2) (v : BitVec 4) (b : BitVec 5) (o : BitVec 15) (s : State) : Result :=
  .next ((opStore .wst p b [.v v] 512 64 (fun s => s.eaLong b o)
    (fun s a t => t.write .wst a 512 (s.ctx.regs.getV v).val.toNat)).run s)

/-! ### Atomics (R146) -/

/-- The new accumulator word of an atomic: f is fn, w the old word, b0 and b1 the operands g[gb] and g[gb + 1]. -/
def amoNew (f : BitVec 4) (w b0 b1 : Nat) : Nat :=
  match f.toNat with
  | 0 => (w + b0) % 2 ^ 32
  | 1 => addF32 w b0
  | 2 => b0
  | 3 => if signedOf 32 w ≤ signedOf 32 b0 then w else b0
  | 4 => if signedOf 32 w ≤ signedOf 32 b0 then b0 else w
  | _ => if w = b0 then b1 else w

/-- The registers of an atomic's operand: the pair for cas. -/
def amoRegs (f : BitVec 4) (b : BitVec 5) : List RegRef := if f = 5 then [.g b, .g (b + 1)] else [.g b]

/-- AMO (R146): the old value lands in gd; read and write are one step at the write port. An uncorrectable word poisons gd. -/
def execAmo (p : BitVec 2) (d a b : BitVec 5) (f : BitVec 4) (s : State) : Result :=
  let rs := .g a :: amoRegs f b
  .next (SlotOp.run
    { slot := 2, pred := p, reads := rs, gated := true, consumes := fun s => s.anyPoison rs,
      waits := fun s => .ramoDone :: (if s.anyPoison [.g a] then [] else localWaits .acc (s.g a).toNat 4 true),
      checks := fun s => s.localCheck .acc (s.g a).toNat 4 4 true,
      watch := fun s => some (4, 4, (s.g a).toNat, 4),
      act := fun s =>
        let x := (s.g a).toNat
        let w := s.tile.read .acc x 4
        let bad := s.tile.readBad .acc x 4
        let s := (s.pend 2 .acc (.g d (BitVec.ofNat 32 w)) bad).modTile (fun t =>
          (t.countCorrected .acc x 4).write .acc x 4 (amoNew f w (s.g b).toNat (s.g (b + 1)).toNat))
        if bad then s.modCtx (fun c => c.recordPoison (poisonRecord 0 2 6 c.flow.pc)) else s } s)

/-! ### Colours (R148, R149) -/

/-- COLSET (R149): adds applied from the next cycle on see the new colours. -/
def execColset (p : BitVec 2) (a : BitVec 5) (c f : BitVec 6) (s : State) : Result :=
  .next (SlotOp.run
    { slot := 0, pred := p, reads := [.g a], consumes := fun s => s.anyPoison [.g a],
      act := fun s => s.atEnd (.colours f.toNat (c.toNat + 1) ((s.g a).toNat.testBit 0)) } s)

/-- COLGET (R149): sel 3 also sets COLDROP to zero. -/
def execColget (p : BitVec 2) (d : BitVec 5) (n : BitVec 12) (s : State) : Result :=
  .next (SlotOp.run
    { slot := 0, pred := p,
      act := fun s =>
        let m := s.tile.mem
        let v : Word := match n.toNat with
          | 0 => m.colours.extractLsb' 0 32
          | 1 => m.colours.extractLsb' 32 32
          | _ => m.colDrop
        let s := s.resultG 0 (.n 1) d v false
        if n = 3 then s.modTile (fun t => { t with mem := { t.mem with colDrop := 0 } }) else s } s)

end Sys2Proof.Machine
end

