-- ==== Sys2Proof/Machine/EngineOps.lean ====
section
/-! DEFINITION. What the command engines of a tile share: dependence words, effective priority, the choice of the next command,
completion signals, result-queue pushes, exception counters (R195 to R200, R204 to R206, R213, R337). -/

namespace Sys2Proof.Machine

/-! ### Dependence (R195, R198, R516) -/

/-- The semaphores that the valid waits of a dependence word name (Table 7-19). -/
def depWaits (d : BitVec 32) : List (BitVec 5) :=
  [8, 14, 20].filterMap (fun k => if d.toNat.testBit (k + 5) then some (d.extractLsb' k 5) else none)

/-- Whether every semaphore covers the number of waits that name it. -/
def Sems.meets (q : Sems) (ws : List (BitVec 5)) : Bool := ws.all (fun n => decide (ws.count n ≤ q.val n))

/-- One decrement for each wait. -/
def Sems.takeAll (q : Sems) (ws : List (BitVec 5)) : Sems := ws.foldl (fun q n => q.take n 1) q

/-- Whether the waits of a tag's command hold: the semaphores of a context that is not resident stand in its image (R264). -/
def Tile.depHolds (t : Tile) (k : Tag) (dep : BitVec 32) : Bool :=
  let ws := depWaits dep
  ws.isEmpty || (!(t.ctx k).life.st.latched && (t.ctx k).sems.meets ws)

/-- The decrements of a command's start (R198). -/
def Tile.depTake (t : Tile) (k : Tag) (dep : BitVec 32) : Tile :=
  t.modCtx k (fun c => { c with sems := c.sems.takeAll (depWaits dep) })

/-- The completion signal of a command (R200, R214). -/
def Tile.signal (t : Tile) (k : Tag) (dep : BitVec 32) : Tile :=
  if dep.toNat.testBit 31 then t.modCtx k (fun c => c.semAdd (dep.extractLsb' 26 5) 1) else t

/-! ### Priority (R199) -/

/-- The effective priority of what has waited w cycles with priority pr. -/
def agedPrio (pr : BitVec 2) (w : Nat) : Nat := min 3 (pr.toNat + w / 1024)

/-- The first of the best-ranked elements of a list. -/
def firstBest {α : Type} (rank : α → Nat) : List α → Option α
  | [] => none
  | x :: xs =>
    match firstBest rank xs with
    | some y => if rank x < rank y then some y else some x
    | none => some x

/-! ### Result queues (R158, R337) -/

/-- A result-queue tag word without VALID (Table 6-5). -/
def rqWord (fault data : Bool) (kind tag : Nat) : BitVec 32 :=
  BitVec.ofNat 32 ((if fault then 2 ^ 30 else 0) + (if data then 2 ^ 29 else 0) + (kind % 32) * 2 ^ 24 + tag % 2 ^ 24)

/-- A payload whose first lanes are given and whose others are zero. -/
def lanesOf (ws : List Nat) : Vec := ofLanes (fun l => BitVec.ofNat 32 (ws.getD l 0))

/-- An engine's fault entry (R209, R215): PC of the issuing bundle, cause, and lanes 1 and 2. -/
def faultEntry (pc : BitVec 14) (cause : BitVec 8) (l1 l2 : Nat) : RqEntry :=
  { word := rqWord true true 1 pc.toNat, data := some (lanesOf [cause.toNat, l1, l2]) }

/-- A completion or SYNC mark (R189, R214). -/
def markEntry (mark : Nat) : RqEntry := { word := rqWord false false 0 mark }

/-- An entry put into a result queue of a tag. -/
def Tile.rqAppend (t : Tile) (k : Tag) (q : Fin 4) (e : RqEntry) : Tile :=
  t.modCtx k (fun c => { c with rq := c.rq.set q.val (c.rq[q] ++ [e]) q.isLt })

/-- A push to q0, q1 or q2: it waits where the queue is full, and the engine with it where one is named (R337). -/
def Tile.pushRq (t : Tile) (k : Tag) (q : Fin 4) (e : RqEntry) (now : Nat) (eng : Option Engine) : Tile :=
  if t.rqRoom k q then t.rqAppend k q e
  else { t with pushes := t.pushes ++ [{ tag := k, q := q, entry := e, since := now, engine := eng }] }

/-- One pass over the waiting entries in the order of their arrival. -/
def pushPass (t : Tile) (ps : List WaitingPush) : Tile :=
  ps.foldl (fun t p => if t.rqRoom p.tag p.q then t.rqAppend p.tag p.q p.entry else { t with pushes := t.pushes ++ [p] })
    { t with pushes := [] }

/-- Whether an engine waits with an entry. -/
def Tile.pushWaits (t : Tile) (e : Engine) : Bool := t.pushes.any (fun p => p.engine == some e)

/-- RQ_OVERFLOW (R337): each push that has waited 65,536 cycles gives its context deferred trap 0x64, once; it goes on waiting. -/
def execRqOverflow (c : TileId) (tag : Tag) (s0 : State) : Result :=
  let s := s0.focus c
  let late (p : WaitingPush) : Bool := p.tag == tag && !p.told && decide (p.since + 65536 ≤ s.now)
  match s.tile.pushes.filter late with
  | [] => .next s0
  | ps =>
    let s := s.modTile (fun t => { t with pushes := t.pushes.map (fun p => if late p then { p with told := true } else p) })
    .next (ps.foldl (fun s _ => s.defer tag 0x64) s)

/-! ### Exception counters (R204, R206) -/

/-- EXCSET (R205): the threshold is set and the counter zeroed. -/
def execExcset (p e : BitVec 2) (g : BitVec 5) (s : State) : Result :=
  .next (SlotOp.run
    { slot := 3, pred := p, reads := [.g g], consumes := fun s => s.anyPoison [.g g],
      act := fun s => s.modTile (fun t => { t with mx := { t.mx with
        thresh := t.mx.thresh.setIfInBounds e.toNat (s.g g), count := t.mx.count.setIfInBounds e.toNat 0 } }) } s)

/-- EXCGET (R205). -/
def execExcget (p e : BitVec 2) (g : BitVec 5) (s : State) : Result :=
  .next (SlotOp.run
    { slot := 3, pred := p, act := fun s => s.resultG 3 (.n 1) g (s.tile.mx.count.toList.getD e.toNat 0) false } s)

/-! ### Dependence registers and status (R196, R207, R208) -/

/-- DSET (R196): commands of later bundles see it. -/
def execDset (p : BitVec 2) (d : BitVec 3) (g : BitVec 5) (s : State) : Result :=
  .next (SlotOp.run
    { slot := 3, pred := p, reads := [.g g], consumes := fun s => s.anyPoison [.g g],
      act := fun s => s.modCtx (fun c =>
        { c with regs := { c.regs with d := c.regs.d.set d.toNat (s.g g &&& 0xFFFFFF00) (show d.toNat < 8 from d.isLt) } }) } s)

/-- DGET (R196). -/
def execDget (p : BitVec 2) (d : BitVec 3) (g : BitVec 5) (s : State) : Result :=
  .next (SlotOp.run
    { slot := 3, pred := p, act := fun s => s.resultG 3 (.n 1) g (s.ctx.regs.getD d) false } s)

/-- The engine of an e code (R207). -/
def engineOf (e : BitVec 2) : Engine := if e = 0 then .matrix else if e = 1 then .row else .copy

/-- ECANCEL (R207, R216): queued and saved commands of the context leave; its running command stops at the end of the cycle. -/
def execEcancel (p e : BitVec 2) (s : State) : Result :=
  .next (SlotOp.run
    { slot := 3, pred := p,
      act := fun s =>
        let k := s.tag
        (s.modTile (fun t => t.dropQueued (engineOf e) (fun g _ => g == k))).atEnd (.stop (engineOf e) k false) } s)

/-- The status word of EQSTAT (R208) for a tag: free entries, running and saved, queued. -/
def Tile.eqstat (t : Tile) (k : Tag) (e : Nat) : Word :=
  let used := t.queueUse e
  let one (r : Option Tag) : Nat := if r = some k then 1 else 0
  let running := match e with
    | 0 => one (t.mx.run.map (·.cmd.tag)) + (t.mx.saved.filter (·.cmd.tag == k)).length
    | 1 => one (t.row.run.map (·.cmd.tag))
    | 2 => one (t.cpy.run.map (·.cmd.tag))
    | _ => 0
  let queued := match e with
    | 0 => (t.mx.queue.filter (·.tag == k)).length
    | 1 => (t.row.queue.filter (·.tag == k)).length
    | 2 => (t.cpy.queue.filter (·.tag == k)).length
    | _ => (t.netq.filter (fun o => o.tag == k && !o.performed)).length
  BitVec.ofNat 32 ((used.2 - used.1) * 2 ^ 16 + running * 2 ^ 8 + queued)

/-- EQSTAT (R208). -/
def execEqstat (p e : BitVec 2) (g : BitVec 5) (s : State) : Result :=
  .next (SlotOp.run
    { slot := 3, pred := p, act := fun s => s.resultG 3 (.n 1) g (s.tile.eqstat s.tag e.toNat) false } s)

end Sys2Proof.Machine
end

