-- ==== Sys2Proof/Machine/Address.lean ====
section
/-! DEFINITION. Global addresses and their checks (R28 to R30, R167, R168, R517), wafer routes (R485), scope instances and levels
(R233, R235, R369), page walks and TLBs (R421 to R424). -/

namespace Sys2Proof.Machine

/-! ### Fields of a global address (Table 1-4) -/

def gaWafer (a : BitVec 80) : Nat := fieldNat a 79 64
def gaSpace (a : BitVec 80) : Nat := fieldNat a 63 60
def gaX (a : BitVec 80) : Nat := fieldNat a 47 40
def gaY (a : BitVec 80) : Nat := fieldNat a 39 32
def gaOff (a : BitVec 80) : Nat := fieldNat a 23 0
/-- The virtual address of a space-8 address. -/
def gaVa (a : BitVec 80) : Nat := fieldNat a 59 0
/-- The tile that a tile-space address names. -/
def gaTile (a : BitVec 80) : TileId := ⟨gaX a, gaY a⟩

/-- Whether an address names the modelled wafer (R29). -/
def State.ownWafer (s : State) (a : BitVec 80) : Bool := gaWafer a == 0xFFFF || gaWafer a == s.wafer.links.wafer.toNat

/-- The attribute bits NT and SEC of an h register (Table 6-6). -/
def hNt (h : BitVec 96) : Bool := h.toNat.testBit 95
def hSec (h : BitVec 96) : Bool := h.toNat.testBit 94

/-- The checks of an access of len bytes at a through an h register, in the order of R517. -/
def State.globalCheck (s : State) (h : BitVec 96) (a : BitVec 80) (len align : Nat) (spaces : List Nat) (page : Bool) :
    Option (BitVec 8) :=
  let sp := gaSpace a
  let size := match sp with | 0 => 0x200000 | 1 => 0x40000 | _ => 0x1000000
  if fieldNat h 93 80 ≠ 0 ∨ (hSec h ∧ !s.tile.life.secure) then some 0x26
  else if (3 ≤ sp ∧ sp ≠ 8) ∨ (sp ≤ 2 ∧ (fieldNat a 59 48 ≠ 0 ∨ fieldNat a 31 24 ≠ 0)) then some 0x2A
  else if hNt h ∧ sp ≠ 8 then some 0x2B
  else if (sp = 8 ∨ page) ∧ s.asid = 0 then some 0x2D
  else if sp = 8 ∧ fieldNat a 59 57 ≠ 0 then some 0x2F
  else if sp ≠ 8 ∧ (180 ≤ gaX a ∨ (s.ownWafer a ∧ s.wafer.gridH ≤ gaY a)) then some 0x20
  else if sp ≠ 8 ∧ size < gaOff a + len then some 0x20
  else if !spaces.contains sp then some 0x22
  else if gaOff a % align ≠ 0 then some 0x21
  else none

/-! ### Routes between wafers (R485) -/

/-- Whether a port carries traffic. -/
def Port.carries (p : Port) : Bool := p.st == .active || p.st == .degraded

/-- The port that traffic to a wafer leaves through; none when the wafer is unreachable (R485). -/
def Wafer.portTo (w : Wafer) (wafer : Nat) : Option PortId :=
  match assocGet w.links.routes wafer with
  | none => none
  | some e =>
    let pri : PortId := Fin.ofNat 64 (fieldNat e 5 0)
    let alt : PortId := Fin.ofNat 64 (fieldNat e 13 8)
    if !e.toNat.testBit 15 then none
    else if (w.links.ports[pri]).carries then some pri
    else if e.toNat.testBit 14 && (w.links.ports[alt]).carries then some alt
    else none

/-! ### Scopes (R233, R235, R369) -/

/-- GANG of a launch record (Table 13-2). -/
def recGang (r : BitVec 512) : BitVec 64 := r.extractLsb' 448 64

/-- The rectangle of a declared level (2 to 5) of a kernel that holds a tile; none when the level is not declared. -/
def Kernel.rect (k : Kernel) (level : Nat) (c : TileId) : Option (Nat × Nat × Nat × Nat) :=
  let w := k.widths.toList.getD (level - 2) 0
  let h := k.heights.toList.getD (level - 2) 0
  if w = 0 ∨ h = 0 then none else some (c.x / w * w, c.y / h * h, w, h)

/-- Whether two tiles share the instance of a group level of a kernel: that of the next larger declared level, and at last the
wafer, stands for a level that is not declared (R233). -/
def Kernel.sameInst (k : Kernel) (c d : TileId) : Nat → Nat → Bool
  | 0, _ => true
  | n + 1, level =>
    if 6 ≤ level then true
    else
      match k.rect level c with
      | some r => decide (k.rect level d = some r)
      | none => Kernel.sameInst k c d n (level + 1)

/-- The smallest level whose instance holds both a tile and the location of an address (R235). -/
def State.levelOf (s : State) (k : Option Kernel) (c : TileId) (a : BitVec 80) : Nat :=
  if gaSpace a = 8 ∨ !s.ownWafer a then 7
  else if gaTile a = c then 1
  else
    match k with
    | none => 6
    | some k => ((List.range 6).find? (fun l => decide (2 ≤ l) && k.sameInst c (gaTile a) 6 l)).getD 6

/-- The smallest level whose instance holds the location of an operation of the context in focus. -/
def State.liesIn (s : State) (a : BitVec 80) : Nat := s.levelOf (s.wafer.kernel? s.ctx.life.kernel) s.tile.at' a

/-! ### Page walks (R421, R422, R424) -/

/-- What a walk finds: a leaf of TYPE 2 to 5, an INVALID leaf, a stop at table level, an uncorrectable entry. -/
inductive WalkEnd where
  | leaf (shift entry pa ty : Nat) (w sec : Bool)
  | invalid (shift entry : Nat) (w sec : Bool)
  | table
  | bad
  deriving DecidableEq, Repr

/-- The levels of Table 18-1 from 4 down: level, lowest index bit, index bits. -/
def walkTable : List (Nat × Nat × Nat) := [(4, 47, 10), (3, 38, 9), (2, 30, 8), (1, 21, 9), (0, 16, 5)]

/-- The first physical byte that external memory does not hold (R420). -/
def extLimit : Nat := 0x18000000000

/-- The walk of a virtual address from the table at base. -/
def walkFrom (m : Store) (va : Nat) : List (Nat × Nat × Nat) → Nat → WalkEnd
  | [], _ => .table
  | (lvl, sh, bits) :: rest, base =>
    let ea := base + 8 * ((va >>> sh) % 2 ^ bits)
    if m.badIn 32 ea 8 then .bad
    else
      let e := m.readNat ea 8
      let ty := e % 8
      let addr := ((e >>> 8) % 2 ^ 40) * 256
      if e >>> 48 ≠ 0 ∨ (e >>> 5) % 8 ≠ 0 then .table
      else if ty = 0 then (if lvl = 4 then .table else .invalid sh ea (e.testBit 3) (e.testBit 4))
      else if ty = 1 then
        match rest with
        | [] => .table
        | (_, _, b) :: _ => if addr % (8 * 2 ^ b) ≠ 0 ∨ extLimit ≤ addr then .table else walkFrom m va rest addr
      else if 6 ≤ ty ∨ lvl = 4 ∨ addr % 2 ^ sh ≠ 0 ∨ extLimit ≤ addr then .table
      else .leaf sh ea addr ty (e.testBit 3) (e.testBit 4)

/-- The walk of an address in an ASID and a world (R421). -/
def Wafer.walk (w : Wafer) (asid : Nat) (sec : Bool) (va : Nat) : WalkEnd :=
  let ra := w.host.astBase.toNat + 16 * asid + (if sec then 8 else 0)
  if w.ext.badIn 32 ra 8 then .bad
  else
    let root := w.ext.readNat ra 8
    if root % 2 = 0 then .table
    else
      let base := ((root >>> 13) % 2 ^ 35) * 8192
      if extLimit ≤ base then .table else walkFrom w.ext va walkTable base

/-- A host-visible event of the edge or the hosts counted in HSTAT (R330). -/
def Wafer.hostEvent (w : Wafer) (code : BitVec 8) : Wafer :=
  { w with host := { w.host with hstatCount := min (w.host.hstatCount + 1) 0xFFFF, hstatLast := code } }
def State.hostEvent (s : State) (code : BitVec 8) : State := s.modWafer (fun w => w.hostEvent code)

/-- A register write of the host: one that carries an uncorrectable error is discarded and recorded (R331), whatever step the register has. -/
def State.hostWrites (s : State) (off : Nat) (f : State → Result) : Result :=
  if s.wafer.host.regBad.contains off then
    .next ((s.modWafer (fun w => { w with host := { w.host with regBad := w.host.regBad.filter (· ≠ off) } })).hostEvent 0x92)
  else f s

/-- An entry appended to the fault ring (R424); a full ring loses it, which HSTAT records. -/
def State.ringFault (s : State) (va asid : Nat) (sec : Bool) (c : TileId) : State :=
  let h := s.wafer.host
  if h.pgfTail + 1 = h.pgfHead then
    match s.freeVal 8 with | (code, s) => s.modWafer (fun w => w.hostEvent code)
  else
    let e := Config.ringEntry va asid (if sec then 1 else 0) c.x c.y
    s.modWafer (fun w => { w with ext := w.ext.writeNat 32 (h.pgfRing.toNat + 16 * h.pgfTail.toNat) 16 e,
                                  host := { w.host with pgfTail := w.host.pgfTail + 1 } })

/-- The writing and the ring entry of a walk that an access or a PGTOUCH makes (R424). -/
def State.markWalk (s : State) (e : WalkEnd) (va asid : Nat) (secWorld : Bool) (c : TileId) : State :=
  match e with
  | .invalid _ ea _ sec =>
    if sec && !secWorld then s
    else
      let s := s.modWafer (fun w => { w with ext := w.ext.writeNat 32 ea 8 (w.ext.readNat ea 8 / 8 * 8 + 4) })
      s.ringFault va asid secWorld c
  | .table => s.ringFault va asid secWorld c
  | _ => s

/-- Why an access that walked to e fails, in the order of R423; none when it may go on. -/
def walkReason (e : WalkEnd) (secWorld write : Bool) : Option Nat :=
  match e with
  | .leaf _ _ _ ty w sec =>
    if sec && !secWorld then some 2
    else if ty = 4 then some 1
    else if ty = 5 then some 6
    else if write && !w then some 1
    else none
  | .invalid _ _ _ sec => if sec && !secWorld then some 2 else some 1
  | .table => some 1
  | .bad => some 1

/-! ### TLBs (R423) -/

/-- The TLB entry that holds a virtual address. -/
def Tile.tlbFind (t : Tile) (asid : Nat) (sec : Bool) (va : Nat) : Option TlbEntry :=
  t.stores.tlb.find? (fun e => e.asid == asid && e.secWorld == sec && e.vpn == (va % 2 ^ 57) >>> e.shift)

/-- A TLB entry used or filled: it becomes the most recently used of at most 384. -/
def Tile.tlbUse (t : Tile) (e : TlbEntry) : Tile :=
  { t with stores := { t.stores with tlb := (e :: t.stores.tlb.filter (fun x => x ≠ e)).take 384 } }

/-- The TLB entry of a leaf. -/
def tlbOf (asid : Nat) (secWorld : Bool) (va shift pa ty : Nat) (w sec : Bool) : TlbEntry :=
  { asid := asid, secWorld := secWorld, vpn := (va % 2 ^ 57) >>> shift, shift := shift, pa := pa, pinned := ty == 3, w := w, sec := sec }

/-- The physical address of a virtual one under an entry. -/
def TlbEntry.phys (e : TlbEntry) (va : Nat) : Nat := e.pa + va % 2 ^ e.shift

end Sys2Proof.Machine
end

