-- ==== Sys2Proof/Machine/Page.lean ====
section
/-! DEFINITION. The page instructions (R428 to R430), the walks that they wait for, and TLB shootdowns (R426). -/

namespace Sys2Proof.Machine

/-- The kernel, world and PC of a report about a walk for a context: an uncorrectable table entry (R423). -/
def State.reportWalkUe (s : State) (c : TileId) (k : Tag) : State :=
  let x := (s.tileAt c).ctx k
  s.modWafer (fun w => w.report x.life.kernel 0x86 c k (pcIndex x.flow.pc) false s.now)

/-- The SIZE code of a leaf (R429). -/
def sizeCode (shift : Nat) : Nat := match shift with | 16 => 0 | 21 => 1 | 30 => 2 | _ => 3

/-- The result word of R429. -/
def pageWord (state size : Nat) (w sec hit : Bool) : BitVec 32 :=
  BitVec.ofNat 32 (state * 2 ^ 29 + size % 4 * 2 ^ 27 + (if w then 2 ^ 26 else 0) + (if sec then 2 ^ 25 else 0)
    + (if hit then 2 ^ 24 else 0))

/-- The result word of a walk; SIZE is a free value where R429 gives it none. Of a page that the world may not reach it tells only SEC. -/
def State.walkWord (s : State) (e : WalkEnd) (secWorld hit : Bool) : BitVec 32 × State :=
  match s.freeVal 2 with
  | (free, s1) =>
    match e with
    | .leaf sh _ _ ty w sec =>
      if sec && !secWorld then (pageWord 0 free.toNat false true hit, s1)
      else if ty = 4 then (pageWord 3 free.toNat w sec hit, s1)
      else if ty = 5 then (pageWord 4 (sizeCode sh) w sec hit, s)
      else (pageWord (ty - 1) (sizeCode sh) w sec hit, s)
    | .invalid _ _ w sec => (pageWord 0 free.toNat (w && !(sec && !secWorld)) sec hit, s1)
    | _ => (pageWord 0 free.toNat false false hit, s1)

/-- Why a PGTOUCH traps on what its walk found, in the order of R423 (R429). -/
def touchCause (e : WalkEnd) (secWorld write : Bool) : BitVec 8 :=
  match e with
  | .bad => 0x86
  | .table => 0x81
  | .invalid _ _ _ sec => if sec && !secWorld then 0x84 else 0x81
  | .leaf _ _ _ ty w sec =>
    if sec && !secWorld then 0x84 else if ty = 4 then 0x82 else if ty = 5 then 0x85 else if write && !w then 0x83 else 0

/-- The answer of a page instruction's walk given to its context, if this still waits for it (R257, R429). -/
def State.answerPage (s : State) (n : Nat) (c : TileId) (k : Tag) (a : PageAnswer) : State :=
  s.modTileAt c (fun t => t.modCtx k (fun x =>
    if x.asked.pageReq = some n then { x with asked := { x.asked with pageReq := none, pageAns := some a } } else x))

/-- The answer of another wafer's walker, from free bits (R429): a state with its fields for a PGPROBE; for a PGTOUCH success or a cause of
its table, 0x83 only with .w and 0x84 only for a non-secure request. A non-secure request learns of a secure page only that it is secure. -/
def farAnswer (secWorld touch write : Bool) (f : Nat) : BitVec 32 × BitVec 8 :=
  let c : Nat := 0x81 + f / 64 % 8
  let cause : BitVec 8 :=
    if !touch ∨ 0x86 < c ∨ (c = 0x83 ∧ !write) ∨ (c = 0x84 ∧ secWorld) then 0 else BitVec.ofNat 8 c
  let st := if touch then 1 + f / 512 % 2 else f / 512 % 5
  let sec := f.testBit 0 && (secWorld || st == 0)
  let w := (f.testBit 1 && !(sec && !secWorld)) || (touch && write)
  (pageWord st (f / 4) w sec false, cause)

/-- The walk of a page instruction is made (R429). On a wafer that cannot be reached it answers STATE 5; what another wafer's
walker answers is a free value. A PGTOUCH marks and fills the TLB. -/
def State.probeWalk (s : State) (w : Walk) (c : TileId) (k : Tag) (touch : Bool) : State :=
  let va := gaVa w.va
  let hit := ((s.tileAt c).tlbFind w.asid w.secWorld va).isSome
  let ans (word : BitVec 32) (cause : BitVec 8) : PageAnswer :=
    { va := w.va, sec := w.secWorld, touch := touch, write := w.write, word := word, cause := cause }
  if !s.ownWafer w.va then
    if (s.wafer.portTo (gaWafer w.va)).isNone then s.answerPage w.serial c k (ans (pageWord 5 0 false false false) 0)
    else
      match s.freeVal 16 with
      | (f, s) =>
        let x := farAnswer w.secWorld touch w.write f.toNat
        s.answerPage w.serial c k (ans x.1 x.2)
  else
    let e := s.wafer.walk w.asid w.secWorld va
    match s.walkWord e w.secWorld hit with
    | (word, s) =>
      if !touch then
        let s := if e = .bad then s.reportWalkUe c k else s
        s.answerPage w.serial c k (ans word 0)
      else
        let cause := touchCause e w.secWorld w.write
        let s := s.markWalk e va w.asid w.secWorld c
        let s := match e with
          | .leaf sh _ pa ty wr sec =>
            if cause = 0 then s.modTileAt c (fun t => t.tlbUse (tlbOf w.asid w.secWorld va sh pa ty wr sec)) else s
          | _ => s
        s.answerPage w.serial c k (ans word cause)

/-! ### Instructions -/

/-- The registers that a page instruction reads (R428). -/
def pageReads (h : BitVec 3) (a : BitVec 5) : List RegRef := [.h h, .g a]

/-- The entry of the TLB with an uncorrectable error that a lookup meets (R423). -/
def State.tlbBad (s : State) (sec : Bool) (va : Nat) : Option TlbEntry :=
  match s.tile.tlbFind s.asid sec va with
  | some e => if e.bad then some e else none
  | none => none

/-- PGPROBE and PGTOUCH (R429): they wait for their walk's answer, whose word lands in gd. -/
def opPage (p : BitVec 2) (d a : BitVec 5) (h : BitVec 3) (touch write : Bool) : SlotOp :=
  let ask (s : State) : WaitCond := .pageAnswer (s.remoteAddr h a) (hSec (s.h h)) touch write
  let answer (s : State) : Option PageAnswer := if s.holds (ask s) then s.ctx.asked.pageAns else none
  let addr (s : State) : Option (BitVec 8) := s.globalCheck (s.h h) (s.remoteAddr h a) 1 1 [8] true
  let broken (s : State) : Option TlbEntry :=
    if s.ownWafer (s.remoteAddr h a) then s.tlbBad (hSec (s.h h)) (gaVa (s.remoteAddr h a)) else none
  { slot := 0, pred := p, reads := pageReads h a, consumes := fun s => s.anyPoison (pageReads h a),
    waits := fun s => if s.anyPoison (pageReads h a) || (addr s).isSome || (broken s).isSome then [] else [ask s],
    checks := fun s =>
      match addr s with
      | some c => some c
      | none => if (broken s).isSome then some 0x87
        else match answer s with | some x => if x.cause = 0 then none else some x.cause | none => none,
    note := fun s => { s with issue := { s.issue with tlbDrop := s.issue.tlbDrop ++ (broken s).toList } },
    act := fun s =>
      let s := s.resultG 0 (.n 1) d (((answer s).map (·.word)).getD 0) false
      s.modCtx (fun c => { c with asked := { c.asked with pageAns := none } }) }

/-- PGPROBE (R429). -/
def execPgprobe (p : BitVec 2) (d a : BitVec 5) (n : BitVec 3) (s : State) : Result := .next ((opPage p d a n false false).run s)
/-- PGTOUCH (R429). -/
def execPgtouch (p : BitVec 2) (d a : BitVec 5) (w : BitVec 1) (n : BitVec 3) (s : State) : Result :=
  .next ((opPage p d a n true (w == 1)).run s)

/-- The handles that the handle table lists somewhere in it (R427). -/
def Wafer.handleNumbers (w : Wafer) : List Nat :=
  w.ext.cells.filterMap (fun c =>
    if w.host.htBase.toNat + 32 ≤ c.1 ∧ c.1 < w.host.htBase.toNat + 32 * 65536 then some ((c.1 - w.host.htBase.toNat) / 32) else none)

/-- The entry of handle k, if it is VALID; handle 0 never is. -/
def Wafer.handle (w : Wafer) (k : Nat) : Option Handle :=
  let a := w.host.htBase.toNat + 32 * k
  let h : Handle := { base := w.ext.readNat a 8, len := w.ext.readNat (a + 8) 8, ctl := BitVec.ofNat 32 (w.ext.readNat (a + 16) 4) }
  if k = 0 ∨ !h.ctl.toNat.testBit 31 then none else some h

/-- Whether an address lies in a PINNED page that a valid handle of the ASID holds (R427, R430). -/
def Wafer.heldPinned (w : Wafer) (asid : Nat) (sec : Bool) (va : Nat) : Bool :=
  match w.walk asid sec va with
  | .leaf sh _ _ ty _ _ =>
    let first := va / 2 ^ sh * 2 ^ sh
    ty == 3 && w.handleNumbers.any (fun k => match w.handle k with
      | some h => fieldNat h.ctl 27 16 == asid && decide (h.base < first + 2 ^ sh) && decide (first < h.base + h.len)
      | none => false)
  | _ => false

/-- PGINV (R430): the tile's entries of the kernel's ASID and world that hold the page are dropped in the issue cycle. A page of another
wafer has no entry here (R423). -/
def execPginv (p : BitVec 2) (a : BitVec 5) (n : BitVec 3) (s : State) : Result :=
  .next (SlotOp.run
    { slot := 0, pred := p, reads := pageReads n a, consumes := fun s => s.anyPoison (pageReads n a),
      checks := fun s =>
        match s.globalCheck (s.h n) (s.remoteAddr n a) 1 1 [8] true with
        | some c => some c
        | none =>
          if s.ownWafer (s.remoteAddr n a) && s.wafer.heldPinned s.asid s.ctx.life.secure (gaVa (s.remoteAddr n a)) then some 0x2E else none,
      act := fun s =>
        let own := s.ownWafer (s.remoteAddr n a)
        let va := gaVa (s.remoteAddr n a) % 2 ^ 57
        let asid := s.asid
        let sec := s.ctx.life.secure
        s.modTile (fun t => { t with stores := { t.stores with
          tlb := t.stores.tlb.filter (fun e => !(own && e.asid == asid && e.secWorld == sec && e.vpn == va >>> e.shift)) } }) } s)

/-- PGINV.ALL (R430). It names no address, so only the kernel's ASID is checked (R420). -/
def execPginvAll (p : BitVec 2) (s : State) : Result :=
  .next (SlotOp.run
    { slot := 0, pred := p,
      checks := fun s => if s.asid = 0 then some 0x2D else none,
      act := fun s =>
        let asid := s.asid
        let sec := s.ctx.life.secure
        s.modTile (fun t => { t with stores := { t.stores with
          tlb := t.stores.tlb.filter (fun e => !(e.asid == asid && e.secWorld == sec)) } }) } s)

/-! ### Shootdowns (R426) -/

/-- Whether a remote operation has a translation, not yet performed, that a shootdown drops: of its ASID and world, from a page that holds
its address, or every page. -/
def RemoteOp.uses (o : RemoteOp) (asid : Nat) (sec all : Bool) (va : Nat) : Bool :=
  !o.performed && o.asid == asid && o.secure == sec
    && o.spans.any (fun p => all || (p.1 * 65536 % 2 ^ 57) >>> p.2 == va >>> p.2)

/-- The operation that a message carries, if it came from another wafer, whose tile keeps no entry for it here. -/
def Msg.farOp (m : Msg) : Option RemoteOp := match m.body with | .op o => if o.foreign.isSome then some o else none | _ => none

/-- TLB_SHOOTDOWN (R426): a write to TLBINV drops the matching entries of every tile; BUSY reads 1 until every access that was
translated with one has been performed: tiles' operations, other wafers', and condition reads. -/
def execTlbShootdown (value : BitVec 32) (s : State) : Result :=
  s.hostWrites 0x708 fun s =>
  let asid := fieldNat value 27 16
  let sec := value.toNat.testBit 15
  let all := value.toNat.testBit 14
  let va := s.wafer.host.tlbVa.toNat % 2 ^ 57
  let hit (e : TlbEntry) : Bool := e.asid == asid && e.secWorld == sec && (all || e.vpn == va >>> e.shift)
  let users := s.tiles.flatMap (fun t => t.netq.filterMap (fun o => if o.uses asid sec all va then some o.serial else none))
  let far := s.wafer.net.filterMap (fun m => if (m.farOp).any (fun o => o.uses asid sec all va) then some m.serial else none)
  let conds := (List.finRange 16).filterMap (fun q =>
    match (s.wafer.queues[q]).cond with
    | some c =>
      if c.pa.isSome && (s.wafer.queues[q]).asid == asid && (s.wafer.queues[q]).sec == sec
          && (all || (c.va % 2 ^ 57) >>> c.shift == va >>> c.shift) then some (q.val, c.due) else none
    | none => none)
  let s := s.mapTiles (fun t => { t with stores := { t.stores with tlb := t.stores.tlb.filter (fun e => !hit e) } })
  match s.freeDelay with
  | (d, s) =>
    let s := s.modWafer (fun w => { w with host := { w.host with
      tlbBusyOn := true, tlbBusy := w.host.tlbBusy ++ users, tlbNet := w.host.tlbNet ++ far, tlbCond := w.host.tlbCond ++ conds } })
    .next (s.timer (s.now + d) .shootdownComplete)

/-- SHOOTDOWN_COMPLETE (R426): TLBSTAT.BUSY falls once no access that used a dropped entry remains to be performed. -/
def execShootdownComplete (s : State) : Result :=
  let left := s.wafer.host.tlbBusy.filter (fun n => s.tiles.any (fun t => t.netq.any (fun o => o.serial == n && !o.performed)))
  let far := s.wafer.host.tlbNet.filter (fun n => s.wafer.net.any (fun m => m.serial == n))
  let conds := s.wafer.host.tlbCond.filter (fun e => match (s.wafer.queues[Fin.ofNat 16 e.1]).cond with
    | some c => c.due == e.2
    | none => false)
  if !s.wafer.host.tlbBusyOn then .next s
  else if left.isEmpty ∧ far.isEmpty ∧ conds.isEmpty then
    .next (s.modWafer (fun w => { w with host := { w.host with tlbBusyOn := false, tlbBusy := [], tlbNet := [], tlbCond := [] } }))
  else
    .next ((s.modWafer (fun w => { w with host := { w.host with tlbBusy := left, tlbNet := far, tlbCond := conds } })).timer (s.now + 1)
      .shootdownComplete)

end Sys2Proof.Machine
end

