-- ==== Sys2Proof/Machine/Transc.lean ====
section
/-! DEFINITION. exp2, log2, rcp and rsqrt, bit-exact by the algorithms and tables of R55 to R60, on F32. DAZ on the input and
FTZ on the result are the caller's (R55, and R219 omits them); a NaN result is returned as a NaN value. -/

namespace Sys2Proof.Machine

/-- T[i] = 2^(i / 64) (Table 2-6). -/
def tableT : List Nat :=
  [0x3F800000, 0x3F8164D2, 0x3F82CD87, 0x3F843A29, 0x3F85AAC3, 0x3F871F62, 0x3F88980F, 0x3F8A14D5,
   0x3F8B95C2, 0x3F8D1ADF, 0x3F8EA43A, 0x3F9031DC, 0x3F91C3D3, 0x3F935A2B, 0x3F94F4F0, 0x3F96942D] ++
  [0x3F9837F0, 0x3F99E046, 0x3F9B8D3A, 0x3F9D3EDA, 0x3F9EF532, 0x3FA0B051, 0x3FA27043, 0x3FA43516,
   0x3FA5FED7, 0x3FA7CD94, 0x3FA9A15B, 0x3FAB7A3A, 0x3FAD583F, 0x3FAF3B79, 0x3FB123F6, 0x3FB311C4] ++
  [0x3FB504F3, 0x3FB6FD92, 0x3FB8FBAF, 0x3FBAFF5B, 0x3FBD08A4, 0x3FBF179A, 0x3FC12C4D, 0x3FC346CD,
   0x3FC5672A, 0x3FC78D75, 0x3FC9B9BE, 0x3FCBEC15, 0x3FCE248C, 0x3FD06334, 0x3FD2A81E, 0x3FD4F35B] ++
  [0x3FD744FD, 0x3FD99D16, 0x3FDBFBB8, 0x3FDE60F5, 0x3FE0CCDF, 0x3FE33F89, 0x3FE5B907, 0x3FE8396A,
   0x3FEAC0C7, 0x3FED4F30, 0x3FEFE4BA, 0x3FF28177, 0x3FF5257D, 0x3FF7D0DF, 0x3FFA83B3, 0x3FFD3E0C]

/-- L[i] = log2(1 + i / 64) (Table 2-6). -/
def tableL : List Nat :=
  [0x00000000, 0x3CB73CB4, 0x3D35D69C, 0x3D8759C5, 0x3DB31FB8, 0x3DDE4212, 0x3E0462C4, 0x3E19574F,
   0x3E2E00D2, 0x3E42615F, 0x3E567AF1, 0x3E6A4F72, 0x3E7DE0B6, 0x3E88983F, 0x3E92203D, 0x3E9B8926] ++
  [0x3EA4D3C2, 0x3EAE00D2, 0x3EB7110E, 0x3EC0052B, 0x3EC8DDD4, 0x3ED19BB0, 0x3EDA3F60, 0x3EE2C97D,
   0x3EEB3A9F, 0x3EF39355, 0x3EFBD42B, 0x3F01FED4, 0x3F060828, 0x3F0A0650, 0x3F0DF989, 0x3F11E20F] ++
  [0x3F15C01A, 0x3F1993E3, 0x3F1D5DA0, 0x3F211D84, 0x3F24D3C2, 0x3F28808C, 0x3F2C2411, 0x3F2FBE80,
   0x3F335004, 0x3F36D8CB, 0x3F3A58FF, 0x3F3DD0C8, 0x3F41404F, 0x3F44A7BA, 0x3F480731, 0x3F4B5ED7] ++
  [0x3F4EAED0, 0x3F51F740, 0x3F553848, 0x3F587209, 0x3F5BA4A4, 0x3F5ED039, 0x3F61F4E5, 0x3F6512C7,
   0x3F6829FB, 0x3F6B3A9F, 0x3F6E44CD, 0x3F7148A1, 0x3F744636, 0x3F773DA4, 0x3F7A2F04, 0x3F7D1A71]

/-- Y[i] = 1 / (1 + i / 64) (Table 2-6). -/
def tableY : List Nat :=
  [0x3F800000, 0x3F7C0FC1, 0x3F783E10, 0x3F74898D, 0x3F70F0F1, 0x3F6D7304, 0x3F6A0EA1, 0x3F66C2B4,
   0x3F638E39, 0x3F607038, 0x3F5D67C9, 0x3F5A740E, 0x3F579436, 0x3F54C77B, 0x3F520D21, 0x3F4F6475] ++
  [0x3F4CCCCD, 0x3F4A4588, 0x3F47CE0C, 0x3F4565C8, 0x3F430C31, 0x3F40C0C1, 0x3F3E82FA, 0x3F3C5264,
   0x3F3A2E8C, 0x3F381703, 0x3F360B61, 0x3F340B41, 0x3F321643, 0x3F302C0B, 0x3F2E4C41, 0x3F2C7692] ++
  [0x3F2AAAAB, 0x3F28E83F, 0x3F272F05, 0x3F257EB5, 0x3F23D70A, 0x3F2237C3, 0x3F20A0A1, 0x3F1F1166,
   0x3F1D89D9, 0x3F1C09C1, 0x3F1A90E8, 0x3F191F1A, 0x3F17B426, 0x3F164FDA, 0x3F14F209, 0x3F139A86] ++
  [0x3F124925, 0x3F10FDBC, 0x3F0FB824, 0x3F0E7835, 0x3F0D3DCB, 0x3F0C08C1, 0x3F0AD8F3, 0x3F09AE41,
   0x3F088889, 0x3F0767AB, 0x3F064B8A, 0x3F053408, 0x3F042108, 0x3F03126F, 0x3F020821, 0x3F010204]

/-- Z[32b + j] = 1 / sqrt(2^b * (1 + j / 32 + 1 / 64)) (Table 2-6). -/
def tableZ : List Nat :=
  [0x3F7E05EC, 0x3F7A33F9, 0x3F768CDC, 0x3F730D8A, 0x3F6FB345, 0x3F6C7B90, 0x3F69642A, 0x3F666B02,
   0x3F638E39, 0x3F60CC16, 0x3F5E2305, 0x3F5B9193, 0x3F59166B, 0x3F56B051, 0x3F545E22, 0x3F521ED0] ++
  [0x3F4FF162, 0x3F4DD4ED, 0x3F4BC89B, 0x3F49CBA2, 0x3F47DD45, 0x3F45FCD6, 0x3F4429AF, 0x3F426337,
   0x3F40A8DE, 0x3F3EFA1C, 0x3F3D5671, 0x3F3BBD67, 0x3F3A2E8C, 0x3F38A975, 0x3F372DBF, 0x3F35BB09] ++
  [0x3F339F19, 0x3F30EB96, 0x3F2E565C, 0x3F2BDD46, 0x3F297E62, 0x3F2737F0, 0x3F250855, 0x3F22EE1D,
   0x3F20E7F5, 0x3F1EF4A4, 0x3F1D130E, 0x3F1B422C, 0x3F19810C, 0x3F17CED0, 0x3F162AA9, 0x3F1493D9] ++
  [0x3F1309AF, 0x3F118B87, 0x3F1018C6, 0x3F0EB0E0, 0x3F0D534F, 0x3F0BFF97, 0x3F0AB544, 0x3F0973E8,
   0x3F083B1E, 0x3F070A87, 0x3F05E1C7, 0x3F04C08B, 0x3F03A682, 0x3F029362, 0x3F0186E2, 0x3F0080C1]

/-- An entry of a table. -/
def tableAt (t : List Nat) (i : Nat) : Nat := t.getD i 0

/-- 1.0 in F32. -/
def oneF32 : Nat := 0x3F800000

/-- scale(y, n) of R55: to_f32_rne(y * 2^n). -/
def scaleF32 (y : Nat) (n : Int) : Nat :=
  match Fmt.f32.decode y with
  | .num s m e => f32Rne (.num s m (e + n))
  | v => f32Rne v

/-- normalise of R55 for a nonzero finite value: e and the mantissa m in [2^k, 2^(k+1)) with k = log2 m. -/
def normExp (m : Nat) (e : Int) : Int := e + m.log2

/-- exp2 (R57). -/
def exp2F (x : FVal) : FVal :=
  match x with
  | .nan .. => x
  | .inf s => if s then .num false 0 0 else .inf false
  | .num s m e =>
    if m = 0 then .num false 1 0
    else if !s && decide (7 ≤ normExp m e) then .inf false
    else if s && FVal.ltTotal x (.num true 150 0) then .num false 0 0
    else
      let k := floorDyadic s m (e + 6)
      let n := k / 64
      let i := (k % 64).toNat
      let f := f32Rne (FVal.add .rne x (.num (decide (0 < k)) k.natAbs (-6)))
      let a := fmaF32 f 0x3D635847 0x3E75FDF0
      let a := fmaF32 f a 0x3F317218
      let a := fmaF32 f a oneF32
      Fmt.f32.decode (scaleF32 (mulF32 (tableAt tableT i) a) n)

/-- The index floor((m - 1) * 2^b) of a normalised mantissa, b below the mantissa's length. -/
def mantIndex (m : Nat) (b : Nat) : Nat := ((m <<< b) >>> m.log2) - 2 ^ b

/-- log2 (R58). -/
def log2F (x : FVal) : FVal :=
  match x with
  | .nan .. => x
  | .inf s => if s then FVal.canon else .inf false
  | .num s m e =>
    if m = 0 then .inf true
    else if s then FVal.canon
    else
      let ex := normExp m e
      let i := mantIndex m 6
      let mv : FVal := .num false m (-(m.log2 : Int))
      let u := mulF32 (f32Rne (FVal.add .rne mv (.num true (64 + i) (-6)))) (tableAt tableY i)
      let a := fmaF32 u 0x3EF6384F 0xBF38AA3B
      let a := fmaF32 u a 0x3FB8AA3B
      Fmt.f32.decode (addF32 (f32Rne (FVal.ofInt ex)) (addF32 (tableAt tableL i) (mulF32 u a)))

/-- rcp (R59). -/
def rcpF (x : FVal) : FVal :=
  match x with
  | .nan .. => x
  | .inf s => .num s 0 0
  | .num s m e =>
    if m = 0 then .inf s
    else
      let ex := normExp m e
      let i := mantIndex m 6
      let y := tableAt tableY i
      let negM := f32Rne (.num true m (-(m.log2 : Int)))
      let d := fmaF32 negM y oneF32
      let a := addF32 d oneF32
      let a := fmaF32 d a oneF32
      let a := fmaF32 d a oneF32
      let r := Fmt.f32.decode (scaleF32 (mulF32 y a) (-ex))
      if s then r.neg else r

/-- rsqrt (R60). -/
def rsqrtF (x : FVal) : FVal :=
  match x with
  | .nan .. => x
  | .inf s => if s then FVal.canon else .num false 0 0
  | .num s m e =>
    if m = 0 then .inf s
    else if s then FVal.canon
    else
      let ex := normExp m e
      let b := (ex % 2).toNat
      let h := (ex - b) / 2
      let j := mantIndex m 5
      let z := tableAt tableZ (32 * b + j)
      let mb := f32Rne (.num false m (-(m.log2 : Int) + b))
      let t := mulF32 mb z
      let d := fmaF32 (t ^^^ 0x80000000) z oneF32
      let a := fmaF32 d 0x3EA00000 0x3EC00000
      let a := fmaF32 d a 0x3F000000
      let a := fmaF32 d a oneF32
      Fmt.f32.decode (scaleF32 (mulF32 z a) (-h))

end Sys2Proof.Machine
end

