-- ==== Sys2Proof/Machine/Ports.lean ====
section
/-! DEFINITION. Feed and outlet ports, the rebuild stage, result-queue pops, global-address and parameter registers (R150 to
R162, R228 to R230). -/

namespace Sys2Proof.Machine

/-! ### Walks (R151, R152, R156) -/

/-- Loop count Ck and stride Sk of a walk block; unused loops read 1 and 0 (R152). -/
def walkCount (b : BitVec 256) (k : Nat) : Nat :=
  if fieldNat (blkWord b 7) 1 0 < k then 1 else fieldNat (blkWord b (1 + k / 2)) (16 * (k % 2) + 15) (16 * (k % 2))
def walkStride (b : BitVec 256) (k : Nat) : Int := if fieldNat (blkWord b 7) 1 0 < k then 0 else (blkWord b (3 + k)).toInt

/-- The address of a walk's vector at loop indices (R152). -/
def walkAddr (b : BitVec 256) (i0 i1 i2 i3 : Nat) : Int :=
  (fieldNat (blkWord b 0) 20 0 : Int) + walkStride b 0 * i0 + walkStride b 1 * i1 + walkStride b 2 * i2 + walkStride b 3 * i3

/-- The number of vectors of a walk. -/
def walkTotal (b : BitVec 256) : Nat := walkCount b 0 * walkCount b 1 * walkCount b 2 * walkCount b 3

/-- The next loop indices of a walk. -/
def walkNext (b : BitVec 256) (i0 i1 i2 i3 : Nat) : Nat × Nat × Nat × Nat :=
  if i0 + 1 < walkCount b 0 then (i0 + 1, i1, i2, i3)
  else if i1 + 1 < walkCount b 1 then (0, i1 + 1, i2, i3)
  else if i2 + 1 < walkCount b 2 then (0, 0, i2 + 1, i3)
  else (0, 0, 0, i3 + 1)

/-- The addresses of a walk at the corners of its loops (R156). -/
def walkCorners (b : BitVec 256) : List Int :=
  [0, 1].flatMap (fun a => [0, 1].flatMap (fun c => [0, 1].flatMap (fun d => [0, 1].map (fun e =>
    walkAddr b (a * (walkCount b 0 - 1)) (c * (walkCount b 1 - 1)) (d * (walkCount b 2 - 1)) (e * (walkCount b 3 - 1))))))

/-- Whether a walk block passes (R156). -/
def walkOk (b : BitVec 256) : Bool :=
  let loops := fieldNat (blkWord b 7) 1 0
  let raw (k : Nat) : Nat := fieldNat (blkWord b (1 + k / 2)) (16 * (k % 2) + 15) (16 * (k % 2))
  fieldNat (blkWord b 0) 31 21 == 0 && fieldNat (blkWord b 7) 30 29 == 0 && fieldNat (blkWord b 7) 23 2 == 0
  && (List.range 4).all (fun k =>
      if k ≤ loops then raw k != 0 && decide ((blkWord b (3 + k)).toInt % 64 = 0) else raw k == 0 && blkWord b (3 + k) == 0)
  && fieldNat (blkWord b 0) 20 0 % 64 == 0
  && (walkCorners b).all (fun a => decide (0 ≤ a) && decide (a ≤ 0x1EFE00))

/-- Whether a corner vector of a walk lies in a unit that the kernel does not hold or claim (Table 14-8). -/
def State.walkForeign (s : State) (b : BitVec 256) : Bool :=
  (walkCorners b).any (fun a => (unitsOf .spad a.toNat 512).any (s.tile.unitForeign s.ctx.life.kernel))

/-! ### The rebuild block (R228) -/

/-- The fields of a rebuild block. -/
def rbRows (b : BitVec 256) : Nat := fieldNat (blkWord b 3) 31 16
def rbBlocks (b : BitVec 256) : Nat := fieldNat (blkWord b 3) 15 0
def rbR (b : BitVec 256) : Nat := fieldNat (blkWord b 0) 20 0
def rbC (b : BitVec 256) : Nat := fieldNat (blkWord b 1) 20 0
def rbS (b : BitVec 256) : Nat := fieldNat (blkWord b 2) 20 0

/-- Whether a rebuild block passes (R228). -/
def rebuildOk (b : BitVec 256) : Bool :=
  let eps := (blkWord b 4).toNat
  fieldNat (blkWord b 0) 31 21 == 0 && fieldNat (blkWord b 1) 31 21 == 0 && fieldNat (blkWord b 2) 31 21 == 0
  && blkWord b 5 == 0 && blkWord b 6 == 0 && fieldNat (blkWord b 7) 30 29 == 0 && fieldNat (blkWord b 7) 23 1 == 0
  && rbRows b != 0 && rbBlocks b != 0 && rbR b % 4 == 0 && rbS b % 4 == 0 && rbC b % 64 == 0
  && decide (rbR b + 4 * rbRows b ≤ 0x1F0000) && decide (rbC b + 512 * rbBlocks b ≤ 0x1F0000) && decide (rbS b + 4 ≤ 0x1F0000)
  && decide (0x00800000 ≤ eps) && decide (eps < 0x7F800000)

/-- Whether a range of a rebuild block lies in a unit that the kernel does not hold or claim. -/
def State.rebuildForeign (s : State) (b : BitVec 256) : Bool :=
  (unitsOf .spad (rbR b) (4 * rbRows b) ++ unitsOf .spad (rbC b) (512 * rbBlocks b) ++ unitsOf .spad (rbS b) 4).any
    (s.tile.unitForeign s.ctx.life.kernel)

/-! ### Blocks read at issue (R513) -/

/-- The n bytes of a block that a bundle reads at issue. -/
def State.block256 (s : State) (a : Nat) : BitVec 256 := BitVec.ofNat 256 (s.tile.read .spad a 32)

/-- The checks of a block's address and bytes: those of a core scratchpad read (R141, R212, R513); an uncorrectable word in it is
poison in an operand of its instruction. -/
def State.blockCheck (s : State) (a n align : Nat) : Option (BitVec 8) :=
  match s.localCheck .spad a n align false with
  | some c => some c
  | none => if s.tile.readBad .spad a n then some 0x02 else none

/-- The checks of a port block in the row order of Table 6-1: the block's address, PORT_PARAM, then the area and the banks of the block and of
its walk (R141, R153). A block with an uncorrectable word is not judged: it is poison. -/
def State.portCheck (s : State) (a : Nat) (ok foreign : BitVec 256 → Bool) : Option (BitVec 8) :=
  let c := s.localCheck .spad a 32 32 false
  let bad := s.tile.readBad .spad a 32
  let b := s.block256 a
  if c = some 0x20 ∨ c = some 0x21 then c
  else if !bad && !ok b then some 0x24
  else if c.isSome then c
  else if bad then some 0x02
  else if foreign b then some 0x28 else none

/-- A block read occupies its bank for one cycle, and counts in the merge rule (R259, R513). -/
def State.planBlock (s : State) (a n : Nat) : State :=
  { s with issue := { s.issue with blockBanks := s.issue.blockBanks ++ banksOf .spad a n } }

/-! ### FCFG and OCFG (R153, R154) -/

/-- FCFG in either mode: the block is read and checked, and the feed starts at its first vector; what it held is dropped. The cycle of the
first read is free (R157). -/
def opFcfg (p : BitVec 2) (f : BitVec 3) (a : BitVec 5) (o : BitVec 15) (rb : Bool) : SlotOp :=
  { slot := 2, pred := p, reads := [.g a], gated := true, consumes := fun s => s.anyPoison [.g a],
    waits := fun s => if s.anyPoison [.g a] then [] else localWaits .spad (s.ea a o) 32 false,
    checks := fun s =>
      s.portCheck (s.ea a o) (if rb then rebuildOk else walkOk) (if rb then s.rebuildForeign else s.walkForeign),
    plan := fun s => s.planBlock (s.ea a o) 32,
    act := fun s =>
      let b := s.block256 (s.ea a o)
      let d := Config.delay s.fresh + 1
      let s := { s with fresh := s.fresh + 1 }
      let q : Feed :=
        { active := true, rebuild := rb, block := b, blockAddr := BitVec.ofNat 32 (s.ea a o), fpc := s.ctx.sys.fpc,
          region := s.ctx.ckpt.opened, readAt := s.now + d }
      (s.useBanks .spad (s.ea a o) 32 1).modCtx (fun c => { c with feeds := c.feeds.setIfInBounds f.toNat q }) }

/-- FCFG (R153). -/
def execFcfg (p : BitVec 2) (f : BitVec 3) (a : BitVec 5) (o : BitVec 15) (s : State) : Result := .next ((opFcfg p f a o false).run s)
/-- FCFG.rb (R228). -/
def execFcfgRb (p : BitVec 2) (f : BitVec 3) (a : BitVec 5) (o : BitVec 15) (s : State) : Result := .next ((opFcfg p f a o true).run s)

/-- OCFG (R153, R154): it waits until an ACTIVE outlet has written what was pushed; the rest of the old walk is dropped. -/
def execOcfg (p o : BitVec 2) (a : BitVec 5) (i : BitVec 15) (s : State) : Result :=
  let port : Fin 4 := ⟨o.toNat, o.isLt⟩
  .next (SlotOp.run
    { slot := 2, pred := p, reads := [.g a], gated := true, consumes := fun s => s.anyPoison [.g a],
      waits := fun s => .outletDrained port :: (if s.anyPoison [.g a] then [] else localWaits .spad (s.ea a i) 32 false),
      checks := fun s =>
        s.portCheck (s.ea a i) walkOk s.walkForeign,
      plan := fun s => s.planBlock (s.ea a i) 32,
      act := fun s =>
        let b := s.block256 (s.ea a i)
        let q : Outlet := { active := true, block := b, blockAddr := BitVec.ofNat 32 (s.ea a i) }
        (s.useBanks .spad (s.ea a i) 32 1).modCtx (fun c => { c with outlets := c.outlets.set port.val q port.isLt }) } s)

/-- OPUSH (R155): the cycle in which the outlet writes the vector is free (R157). -/
def execOpush (p o : BitVec 2) (v : BitVec 5) (s : State) : Result :=
  let port : Fin 4 := ⟨o.toNat, o.isLt⟩
  .next (SlotOp.run
    { slot := 2, pred := p, reads := srcRegs v, pops := srcPops v, gated := true,
      consumes := fun s => s.anyPoison (srcRegs v) || (srcPops v).any (fun f => match (s.ctx.feeds[f]).held with
        | x :: _ => x.poison | [] => false),
      waits := fun _ => [.outletRoom port],
      checks := fun s =>
        let q := s.ctx.outlets[port]
        if !q.active ∨ walkTotal q.block ≤ q.pushed then some 0x62 else none,
      act := fun s =>
        let x := (s.vsrc v).1
        match s.freeDelay with
        | (d, s) => s.modCtx (fun c =>
          let q := c.outlets[port]
          let q := { q with pushed := q.pushed + 1, buf := q.buf ++ [x], writeAt := if q.buf.isEmpty then s.now + d else q.writeAt }
          { c with outlets := c.outlets.set port.val q port.isLt }) } s)

/-! ### What feeds and outlets do (R157, R217, R229) -/

/-- Whether a port's access of n bytes must wait for a lock or for a unit of the plan. -/
def State.portBlocked (s : State) (kernel a n : Nat) (write : Bool) : Bool :=
  !s.tile.lockFree s.now .spad a n write || (unitsOf .spad a n).any (s.tile.unitPending kernel)

/-- A lane of a rebuild vector (R229): v from r, c and S, and its DEN form; the second part is whether it is NaN. -/
def rebuildLane (md : FpMode) (den : Bool) (eps r c t : Nat) : Nat × Bool :=
  let rd (w : Nat) : FVal := Fmt.f32.decodeDaz md.daz w
  let sv := rd t
  let zero : FVal := .num false 0 0
  let v := if sv.isZero then zero else mulV (mulV (rd r) (rd c)) (rcpF sv)
  let v := if v.isNan then v else if v.isZero || v.sign then zero else v
  let v :=
    if !den then v
    else if v.isInf then zero
    else if v.isZero then rcpF (Fmt.f32.decode eps)
    else if v.isNan then v
    else rcpF (addV (mulV v (rsqrtF v)) (Fmt.f32.decode eps))
  (Fmt.f32.encode md 0 v, v.isNan)

/-- The rebuild vector of a feed from the words S and r and the eight beats of c that it has read, and the number of its NaN lanes. -/
def Feed.rebuilt (f : Feed) (beats : List Nat) : Vec × Nat :=
  let md := FpMode.of f.fpc
  let den := (blkWord f.block 7).toNat.testBit 0
  let eps := (blkWord f.block 4).toNat
  let c := leJoin 64 (beats.drop 2)
  let lanes := (List.range 128).map (fun l =>
    rebuildLane md den eps (beats.getD 1 0) ((c >>> (32 * l)) % 2 ^ 32) (beats.getD 0 0))
  (ofLanes (fun l => BitVec.ofNat 32 ((lanes.getD l (0, false)).1)), (lanes.filter (·.2)).length)

/-- The vectors of a feed's walk. -/
def Feed.total (f : Feed) : Nat := if f.rebuild then rbRows f.block * rbBlocks f.block else walkTotal f.block

/-- The feed past a vector that it has read. -/
def Feed.step (f : Feed) (v : HeldVec) : Feed :=
  let f := { f with read := f.read + 1, held := f.held ++ [v], beats := 0, part := [], partBad := false }
  if f.rebuild then
    (if f.i0 + 1 < rbBlocks f.block then { f with i0 := f.i0 + 1 } else { f with i0 := 0, i1 := f.i1 + 1 })
  else
    match walkNext f.block f.i0 f.i1 f.i2 f.i3 with
    | (a, b, c, d) => { f with i0 := a, i1 := b, i2 := c, i3 := d }

/-- The beats that a feed's next vector takes: in rebuild mode the word S, the word r[i] and eight of c (R229), else eight. -/
def Feed.beatCount (f : Feed) : Nat := if f.rebuild then 10 else 8

/-- Address and bytes of beat k of a feed's next vector. -/
def Feed.beatRange (f : Feed) (k : Nat) : Nat × Nat :=
  if !f.rebuild then ((walkAddr f.block f.i0 f.i1 f.i2 f.i3).toNat + 64 * k, 64)
  else if k = 0 then (rbS f.block, 4)
  else if k = 1 then (rbR f.block + 4 * f.i1, 4)
  else (rbC f.block + 512 * f.i0 + 64 * (k - 2), 64)

/-- The vector of all its beats. -/
def Feed.gathered (f : Feed) (beats : List Nat) (bad : Bool) (now : Nat) : HeldVec :=
  if f.rebuild then { val := (f.rebuilt beats).1, poison := bad, due := now + 1, nans := (f.rebuilt beats).2 }
  else { val := BitVec.ofNat 4096 (leJoin 64 beats), poison := bad, due := now + 1 }

/-- A feed after a beat with its data; the last one completes its vector, and the next vector's first beat waits d cycles. -/
def Feed.takeBeat (f : Feed) (data : Nat) (bad : Bool) (now d : Nat) : Feed :=
  let beats := f.part ++ [data]
  let bad := f.partBad || bad
  if f.beats + 1 = f.beatCount then { f.step (f.gathered beats bad now) with readAt := now + d }
  else { f with beats := f.beats + 1, part := beats, partBad := bad, readAt := now + 1 }

/-- Whether a port may move a beat of n bytes at a in this cycle: no lock and no unit is in its way, and the bank serves it (R142, R217). -/
def State.portServed (s : State) (kernel a n : Nat) (write : Bool) : Bool :=
  !s.portBlocked kernel a n write && s.tile.bankServes s.now s.cycle .spad a n

/-- FEED_READ (R157, R229, R286): an ACTIVE feed with room for a vector reads the next beat of its walk's next one, unless a lock, a unit or
the bank makes it wait. The vector can be popped from the cycle after its last beat on. It reads ahead of the pops by two vectors at most:
DESIGN CHOICE, unsafe, log 157. -/
def execFeedRead (c : TileId) (tag : Tag) (f : Fin 8) (s0 : State) : Result :=
  let s := (s0.focus c).focusTag tag
  let x := s.ctx
  let p := x.feeds[f]
  let r := p.beatRange p.beats
  if s.now < p.readAt ∨ x.life.st.latched ∨ !p.active ∨ 2 ≤ p.held.length ∨ p.total ≤ p.read
      ∨ !s.portServed x.life.kernel r.1 r.2 false then .next s0
  else
    let data := s.tile.read .spad r.1 r.2
    let bad := s.tile.readBad .spad r.1 r.2
    match (s.modTile (fun t => (t.takeBeat .spad r.1 r.2).countCorrected .spad r.1 r.2)).freeDelay with
    | (d, s) => .next (s.modCtx (fun x => { x with feeds := x.feeds.set f.val (p.takeBeat data bad s.now d) f.isLt }))

/-- The address of an outlet's oldest pushed vector. -/
def Outlet.addr (p : Outlet) : Nat := (walkAddr p.block p.i0 p.i1 p.i2 p.i3).toNat

/-- The context of an outlet that has written the last beat of its oldest vector: at the end of the walk 1 is added to SEM when SV is 1, and the
outlet goes IDLE (R156). -/
def Context.outletDone (x : Context) (o : Fin 4) (rest : List Vec) (writeAt : Nat) : Context :=
  let p := x.outlets[o]
  let last := decide (walkTotal p.block ≤ p.written + 1)
  let ctl := (blkWord p.block 7)
  let n := walkNext p.block p.i0 p.i1 p.i2 p.i3
  let q := { p with buf := rest, written := p.written + 1, writeAt := writeAt, beats := 0, i0 := n.1, i1 := n.2.1, i2 := n.2.2.1,
                    i3 := n.2.2.2, active := p.active && !last }
  let x := { x with outlets := x.outlets.set o.val q o.isLt }
  if last && ctl.toNat.testBit 31 then x.semAdd (ctl.extractLsb' 24 5) 1 else x

/-- The operations that wait for an outlet's vectors have one fewer to wait for (R170). -/
def RemoteOp.outletWrote (q : RemoteOp) (tag : Tag) (o : Fin 4) : RemoteOp :=
  if q.tag = tag then { q with waitOutlets := q.waitOutlets.filterMap (fun w =>
    if w.1 ≠ o then some w else if w.2 ≤ 1 then none else some (w.1, w.2 - 1)) } else q

/-- OUTLET_WRITE (R157): an outlet writes the next beat of its oldest pushed vector at its walk's next address, unless a lock, a unit or the bank
makes it wait. -/
def execOutletWrite (c : TileId) (tag : Tag) (o : Fin 4) (s0 : State) : Result :=
  let s := (s0.focus c).focusTag tag
  let x := s.ctx
  let p := x.outlets[o]
  let a := p.addr + 64 * p.beats
  match p.buf with
  | [] => .next s0
  | v :: rest =>
    if s.now < p.writeAt ∨ !s.portServed x.life.kernel a 64 true then .next s0
    else
      let s := s.modTile (fun t => (t.takeBeat .spad a 64).write .spad a 64 ((v.toNat >>> (512 * p.beats)) % 2 ^ 512))
      if p.beats < 7 then
        .next (s.modCtx (fun x => { x with outlets := x.outlets.set o.val { p with beats := p.beats + 1 } o.isLt }))
      else
        match s.freeDelay with
        | (d, s) => .next ((s.modTile (fun t => { t with netq := t.netq.map (fun q => q.outletWrote tag o) })).modCtx (fun x =>
            x.outletDone o rest (s.now + d)))

/-- The held vectors of every feed of a context discarded; they are read again (R157, R170, R241). -/
def Feed.discard (f : Feed) : Feed :=
  let n := f.popped
  if f.rebuild then { f with held := [], read := n, beats := 0, part := [], partBad := false, i0 := n % rbBlocks f.block, i1 := n / rbBlocks f.block }
  else
    let c0 := walkCount f.block 0
    let c1 := walkCount f.block 1
    let c2 := walkCount f.block 2
    { f with held := [], read := n, beats := 0, part := [], partBad := false, i0 := n % c0, i1 := n / c0 % c1, i2 := n / (c0 * c1) % c2, i3 := n / (c0 * c1 * c2) }

/-- Every held vector of a context's feeds discarded. -/
def Context.discardFeeds (c : Context) : Context := { c with feeds := c.feeds.map Feed.discard }

/-! ### POPQ (R159) -/

/-- The reason of a q3 fault record: lane 2 [31:16] of its payload (R166). -/
def RqEntry.reason (e : RqEntry) : Nat := match e.data with | some v => fieldNat (lane v 2) 31 16 | none => 0

/-- POPQ in stall mode and in flag mode: r is pd, none in stall mode. -/
def opPopq (p : BitVec 2) (d : BitVec 4) (g : BitVec 5) (q : BitVec 2) (r : Option (BitVec 3)) : SlotOp :=
  let qn : Fin 4 := ⟨q.toNat, q.isLt⟩
  { slot := 2, pred := p,
    waits := fun _ => if r.isNone then [.rqReady qn] else [],
    checks := fun s =>
      match r, s.ctx.rq[qn] with
      | some _, _ => none
      | none, [] => some 0x63
      | none, e :: _ =>
        if e.word.toNat.testBit 30 then (if q = 3 ∧ (e.reason = 1 ∨ e.reason = 6) then some 0x80 else some 0x27) else none,
    act := fun s =>
      let put (s : State) (w : RegWrite) (po : Bool) : State := s.pend 2 (.n 1) w po
      match s.ctx.rq[qn] with
      | [] =>
        let s := put s (.g g 0) false
        match r with | some i => put s (.p i false) false | none => s
      | e :: rest =>
        let s := s.modCtx (fun c => { c with rq := c.rq.set qn.val rest qn.isLt })
        let s := put s (.g g (e.word ||| 0x80000000)) false
        let s := match e.data with
          | some v =>
            let s := put s (.v d v fullMask true) e.poison
            if e.poison then s.modCtx (fun c => c.recordPoison (poisonRecord 0 2 7 c.flow.pc)) else s
          | none => s
        match r with | some i => put s (.p i (!e.word.toNat.testBit 30)) false | none => s }

/-- POPQ (R159). -/
def execPopq (p : BitVec 2) (d : BitVec 4) (g : BitVec 5) (q : BitVec 2) (s : State) : Result := .next ((opPopq p d g q none).run s)
/-- POPQ.flag (R159). -/
def execPopqFlag (p : BitVec 2) (d : BitVec 4) (g : BitVec 5) (q : BitVec 2) (r : BitVec 3) (s : State) : Result :=
  .next ((opPopq p d g q (some r)).run s)

/-! ### h and x registers (R160 to R162) -/

/-- The new value of an h register by HSET (R161). -/
def hsetValue (old : BitVec 96) (t : BitVec 2) (a : Word) : BitVec 96 :=
  match t.toNat with
  | 0 => a.setWidth 96
  | 1 => (old.extractLsb' 64 32 ++ a ++ old.extractLsb' 0 32 : BitVec 96)
  | _ => (a ++ old.extractLsb' 0 64 : BitVec 96)

/-- HSET (R161): lo clears the poison of the register, the other parts keep it. -/
def execHset (p : BitVec 2) (h : BitVec 3) (t : BitVec 2) (a : BitVec 5) (s : State) : Result :=
  .next (SlotOp.run
    { slot := 2, pred := p, reads := if t = 0 then [.g a] else [.g a, .h h],
      act := fun s => s.pend 2 (.n 1) (.h h (hsetValue (s.h h) t (s.g a)))
        (s.anyPoison [.g a] || (t != 0 && s.anyPoison [.h h])) } s)

/-- HGET (R161): top gives [79:64] in [15:0] and the attributes in [31:16]. -/
def execHget (p : BitVec 2) (d : BitVec 5) (h : BitVec 3) (t : BitVec 2) (s : State) : Result :=
  .next (SlotOp.run
    { slot := 2, pred := p, reads := [.h h],
      act := fun s => s.resultG 2 (.n 1) d ((s.h h).extractLsb' (32 * t.toNat) 32) (s.anyPoison [.h h]) } s)

/-- HADD (R161): the attributes stay. -/
def execHadd (p : BitVec 2) (h : BitVec 3) (a : BitVec 5) (s : State) : Result :=
  .next (SlotOp.run
    { slot := 2, pred := p, reads := [.g a, .h h],
      act := fun s =>
        let old := s.h h
        let v : BitVec 96 := (old.extractLsb' 80 16 ++ (old.setWidth 80 + (s.g a).signExtend 80) : BitVec 96)
        s.pend 2 (.n 1) (.h h v) (s.anyPoison [.g a, .h h]) } s)

/-- PARSET (R162). -/
def execParset (p : BitVec 2) (x : BitVec 3) (t : BitVec 2) (a : BitVec 5) (s : State) : Result :=
  .next (SlotOp.run
    { slot := 2, pred := p, reads := if t = 0 then [.g a] else [.g a, .x x],
      act := fun s =>
        let old := (s.ctx.regs.getX x).val
        let v : BitVec 64 := if t = 0 then (s.g a).setWidth 64 else (s.g a ++ old.extractLsb' 0 32 : BitVec 64)
        s.pend 2 (.n 1) (.x x v) (s.anyPoison [.g a] || (t != 0 && s.anyPoison [.x x])) } s)

/-- PARGET (R162). -/
def execParget (p : BitVec 2) (d : BitVec 5) (x : BitVec 3) (t : BitVec 2) (s : State) : Result :=
  .next (SlotOp.run
    { slot := 2, pred := p, reads := [.x x],
      act := fun s => s.resultG 2 (.n 1) d ((s.ctx.regs.getX x).val.extractLsb' (32 * t.toNat) 32) (s.anyPoison [.x x]) } s)

end Sys2Proof.Machine
end

