-- ==== Sys2Proof/Machine/Account.lean ====
section
/-! DEFINITION. The accounting store (R298 to R315): folds, clears, snapshots and the account instructions. The charges of a cycle
are in Cycle. -/

namespace Sys2Proof.Machine

/-! ### Counters -/

/-- The key of a counter: account 0 to 7 a tag, 8 the tile; range; cause. -/
def acctKey (account range cause : Nat) : Nat := account * 2048 + range * 32 + cause

/-- n added to a counter of the store (R298). -/
def Accounts.charge (a : Accounts) (account range cause n : Nat) : Accounts :=
  { a with counts := a.counts.bump (acctKey account range cause) n (2 ^ 64) }

/-- The range of a table that holds a bundle index; 63 for none (R305). -/
def rangeOf (table : List (Nat × Nat × Nat)) (x : Nat) : Nat :=
  match table.find? (fun r => decide (r.2.1 ≤ x) && decide (x < r.2.2)) with
  | some r => r.1
  | none => 63

/-- A fold of a tag's account into the tile account (R300). -/
def Accounts.fold (a : Accounts) (k : Tag) : Accounts :=
  let mine (e : Nat × Nat) : Bool := e.1 / 2048 == k.val
  let moved := (a.counts.filter mine).foldl (fun (c : Counts) e => c.bump (acctKey 8 63 (e.1 % 32)) e.2 (2 ^ 64)) (a.counts.filter (fun e => !mine e))
  { a with counts := moved, loops := a.loops.filter (fun e => e.1 / 32 ≠ k.val) }

/-- A clear at a CYCLE value (R299). -/
def Accounts.clear (a : Accounts) (cycle : BitVec 64) : Accounts :=
  { a with counts := [], snap := [], snapElapsed := 0, loops := [], t0 := cycle }

/-- A program's snapshot at the end of a cycle (R313). -/
def Accounts.takeSnap (a : Accounts) (cycle : BitVec 64) : Accounts := { a with snap := a.counts, snapElapsed := cycle - a.t0 + 1 }

/-! ### Instructions (R310 to R315) -/

/-- The range table of the context's tag. -/
def State.ranges (s : State) : List (Nat × Nat × Nat) := s.tile.acct.ranges[s.tag]

/-- ACRANGE (R312): the entry governs charges from the next cycle on. -/
def execAcrange (p : BitVec 2) (a : BitVec 5) (n : BitVec 6) (s : State) : Result :=
  .next (SlotOp.run
    { slot := 0, pred := p, reads := [.g a], consumes := fun s => s.anyPoison [.g a],
      checks := fun s =>
        let w := s.g a
        let lo := fieldNat w 14 0
        let hi := fieldNat w 30 16
        if w.toNat.testBit 31 ∨ w.toNat.testBit 15 ∨ hi < lo ∨ 16384 < hi then some 0x7C
        else if lo < hi ∧ s.ranges.any (fun r => r.1 != n.toNat && decide (r.2.1 < r.2.2) && decide (lo < r.2.2) && decide (r.2.1 < hi)) then
          some 0x7B
        else none,
      act := fun s => s.atEnd (.range s.tag n.toNat (fieldNat (s.g a) 14 0) (fieldNat (s.g a) 30 16)) } s)

/-- Whether an account is visible to the context in focus (R311). -/
def State.acctVisible (s : State) (account : Nat) : Bool :=
  if 8 ≤ account then true
  else
    let c := s.tile.ctx (Fin.ofNat 8 account)
    c.life.st == .empty || (c.life.kernel == s.ctx.life.kernel && c.life.secure == s.ctx.life.secure)

/-- ACREAD (R313): a poisoned address poisons gd and traps nothing. -/
def execAcread (p : BitVec 2) (d a : BitVec 5) (s : State) : Result :=
  .next (SlotOp.run
    { slot := 0, pred := p, reads := [.g a],
      checks := fun s =>
        if !s.anyPoison [.g a] ∧ (fieldNat (s.g a) 31 16 ≠ 0 ∨ 9 ≤ fieldNat (s.g a) 15 12) then some 0x7D else none,
      act := fun s =>
        let w := s.g a
        let acc := fieldNat w 15 12
        let v := if s.acctVisible acc then s.tile.acct.snap.at (acctKey acc (fieldNat w 11 6) (fieldNat w 5 1)) else 0
        s.resultG 0 (.n 1) d (BitVec.ofNat 32 (if w.toNat.testBit 0 then v / 2 ^ 32 else v)) (s.anyPoison [.g a]) } s)

/-- ACREAD.snap (R313): the snapshot takes the values at the end of the cycle. -/
def execAcreadSnap (p : BitVec 2) (d : BitVec 5) (s : State) : Result :=
  .next (SlotOp.run
    { slot := 0, pred := p, act := fun s => (s.resultG 0 (.n 1) d (s.cycle.setWidth 32) false).atEnd .snapshot } s)

/-- ACREAD.el (R313). -/
def execAcreadEl (p : BitVec 2) (d : BitVec 5) (h : BitVec 1) (s : State) : Result :=
  .next (SlotOp.run
    { slot := 0, pred := p,
      act := fun s =>
        let v := s.tile.acct.snapElapsed
        s.resultG 0 (.n 1) d (if h = 0 then v.extractLsb' 0 32 else v.extractLsb' 32 32) false } s)

/-- ACLOOP (R314): t is the kind, c clears. The issue cycle's own counts land on the zeroed value. -/
def execAcloop (p : BitVec 2) (d : BitVec 5) (c t : BitVec 1) (k l : BitVec 2) (s : State) : Result :=
  .next (SlotOp.run
    { slot := 0, pred := p,
      checks := fun s => if c = 1 ∧ (s.ctx.flow.loops[k.toNat]'(show k.toNat < 4 from k.isLt)).active then some 0x7E else none,
      act := fun s =>
        let key := s.tag.val * 32 + k.toNat * 8 + l.toNat * 2 + t.toNat
        let s' := s.resultG 0 (.n 1) d (BitVec.ofNat 32 (s.tile.acct.loops.at key)) false
        if c = 1 then s'.modTile (fun x => { x with acct := { x.acct with loops := x.acct.loops.put key 0 } }) else s' } s)

/-- ACCLR (R315): the fold acts before the charges of its cycle. -/
def execAcclr (p : BitVec 2) (s : State) : Result :=
  .next (SlotOp.run
    { slot := 0, pred := p, act := fun s => s.modTile (fun t => { t with acct := t.acct.fold s.tag }) } s)

end Sys2Proof.Machine
end

