-- ==== Sys2Proof/Machine/Edge.lean ====
section
/-! DEFINITION. External memory at the edge: handle translation (R427), poisoned pages (R425), and external writes with the pair
buffer of a paired run (R510, R511). -/

namespace Sys2Proof.Machine

/-! ### Edge tiles (R23, R515) -/

/-- The sides of the wafer in the order of the numbers of their edge tiles. -/
inductive WaferSide where
  | north | east | south | west
  deriving DecidableEq, Repr

/-- The side of edge tile e, its position there, the HBM4E stack that it serves a sixteenth of. -/
def edgeSide (e : Fin 512) : WaferSide :=
  if e.val / 128 = 0 then .north else if e.val / 128 = 1 then .east else if e.val / 128 = 2 then .south else .west
def edgePosition (e : Fin 512) : Nat := e.val % 128
def edgeStack (e : Fin 512) : Nat := e.val / 16

/-- The edge tile that serves an external physical address, and the address in its channel group. -/
def edgeOf (pa : Nat) : Fin 512 := Fin.ofNat 512 (pa / 4096)
def channelOffset (pa : Nat) : Nat := pa / 2 ^ 21 * 4096 + pa % 4096

/-- The external physical address at an offset of an edge tile's channel group. -/
def edgeAddress (e : Fin 512) (off : Nat) : Nat := off / 4096 * 2 ^ 21 + e.val * 4096 + off % 4096

/-- The edge tile to whose router a Thaov port attaches. -/
def portEdge (p : PortId) : Nat := 128 * (p.val / 16) + 8 * (p.val % 16) + 4

/-- The physical place of the tile to whose router an edge tile attaches: the outermost one of its row or column. -/
def edgePlace (e : Fin 512) : Nat × Nat :=
  match edgeSide e with
  | .north => (Config.edgeLine e.val % 192, 167)
  | .south => (Config.edgeLine e.val % 192, 0)
  | .east => (191, Config.edgeLine e.val % 168)
  | .west => (0, Config.edgeLine e.val % 168)

/-- A byte of the channel group of an edge tile (R23). Beside it the edge tile holds a walker, whose answer is the wafer's whichever one walks
(Wafer.walk), and its attachment. -/
def Wafer.channelByte (w : Wafer) (e : Fin 512) (off : Nat) : Byte := w.ext.cells.byteAt (edgeAddress e off)

/-! ### Handles and poisoned pages -/

/-- Where a CPYX beat at a virtual address of its handle goes, or why it fails (R425, R427). -/
def State.extCheck (s : State) (handle : Option Handle) (va : Nat) (write : Bool) : Except (BitVec 8) Nat :=
  match handle with
  | none => .error 0x55
  | some h =>
    let sec := h.ctl.toNat.testBit 29
    match s.wafer.walk (fieldNat h.ctl 27 16) sec va with
    | .leaf sh _ pa ty w psec =>
      if psec ≠ sec then .error 0x59
      else if ty = 5 then .error 0x58
      else if ty ≠ 3 ∨ (write ∧ !w) then .error 0x55
      else .ok (pa + va % 2 ^ sh)
    | _ => .error 0x55

/-- Whether a TLB entry maps to a physical byte. -/
def TlbEntry.maps (e : TlbEntry) (pa : Nat) : Bool := decide (e.pa ≤ pa) && decide (pa < e.pa + 2 ^ e.shift)

/-- An uncorrectable error in the data read at a physical byte through a virtual address (R425): 0x99 EDGE_UE is recorded, every tile drops
the TLB entries of the page, and its leaf, if it is still MAPPED or PINNED and maps that byte, becomes POISONED. -/
def State.poisonLeaf (s : State) (asid : Nat) (sec : Bool) (va pa : Nat) : State :=
  let s := (s.mapTiles (fun t => { t with stores := { t.stores with tlb := t.stores.tlb.filter (fun e => !e.maps pa) } })).modWafer
    (fun w => w.hostEvent 0x99)
  match s.wafer.walk asid sec va with
  | .leaf sh ea base ty _ _ =>
    if (ty = 2 ∨ ty = 3) ∧ base + va % 2 ^ sh = pa then
      s.modWafer (fun w => { w with ext := w.ext.writeNat 32 ea 8 (w.ext.readNat ea 8 / 8 * 8 + 5) })
    else s
  | _ => s

/-! ### Paired runs (R510, R511) -/

/-- The tiles of a partition. -/
def PairPart.inside (r : PairPart) (base : BitVec 16) (c : TileId) : Bool :=
  decide (fieldNat base 15 8 ≤ c.x) && decide (c.x < fieldNat base 15 8 + r.w) && decide (fieldNat base 7 0 ≤ c.y)
    && decide (c.y < fieldNat base 7 0 + r.h)

/-- The partition of a tile in a paired run, and its position there: false for the primary. -/
def State.pairSide (s : State) (c : TileId) : Option (Bool × Nat × Nat) :=
  match s.wafer.dbg.part with
  | none => none
  | some r =>
    if r.inside r.primary c then some (false, c.x - fieldNat r.primary 15 8, c.y - fieldNat r.primary 7 0)
    else if r.inside r.shadow c then some (true, c.x - fieldNat r.shadow 15 8, c.y - fieldNat r.shadow 7 0)
    else none

/-- The ordinal of the next external write beat of a tile, and its count raised by n. -/
def State.ordinal (s : State) (c : TileId) : Nat := s.wafer.dbg.ordinals.at (c.y * 256 + c.x)
def State.countOrdinals (s : State) (c : TileId) (n : Nat) : State :=
  if n = 0 ∨ (s.pairSide c).isNone then s
  else s.modWafer (fun w => { w with dbg := { w.dbg with
    ordinals := w.dbg.ordinals.put (c.y * 256 + c.x) (w.dbg.ordinals.at (c.y * 256 + c.x) + n) } })

/-- What became of an external write beat. -/
inductive ExtDone where
  | applied | waits | refused
  deriving DecidableEq, Repr

/-- An external write beat at the edge: applied and acknowledged; or, from a tile of a paired run, put into the pair buffer to
wait for its counterpart; or, after a mismatch, refused. -/
def State.extWrite (s : State) (src : TileId) (ordinal : Nat) (op : Option Nat) (addr : BitVec 80) (pa : Nat) (nt : Bool)
    (len v : Nat) : ExtDone × State :=
  match s.pairSide src with
  | none => (.applied, s.modWafer (fun w => { w with ext := w.ext.writeNat 32 pa len v }))
  | some (shadow, rx, ry) =>
    if s.wafer.dbg.mismatch then (.refused, s)
    else
      let n := s.wafer.nextMsg
      let b : PairBeat :=
        { serial := n, shadow := shadow, rx := rx, ry := ry, ordinal := ordinal, addr := addr, pa := pa, nt := nt, len := len,
          data := v, src := src, op := op }
      let s := s.modWafer (fun w => { w with nextMsg := n + 1, dbg := { w.dbg with beats := w.dbg.beats ++ [b] } })
      (.waits, s.timer s.now (.pairBeatArrival n))

end Sys2Proof.Machine
end

