-- ==== Sys2Proof/Machine/Wire.lean ====
section
/-! DEFINITION. The messages of the on-wafer network (R26, R440) and the sending side of a Thaov port: flits, the operation header,
numbering, the replay buffer (R473, R474, R478). -/

namespace Sys2Proof.Machine

/-! ### The on-wafer network -/

/-- A message put into the network d cycles from its arrival. -/
def State.postIn (s : State) (d : Nat) (src dst : TileId) (body : MsgBody) (poison : Bool) : State :=
  let n := s.wafer.nextMsg
  let m : Msg := { serial := n, due := s.now + d, src := src, dst := dst, body := body, poison := poison }
  (s.modWafer (fun w => { w with net := w.net ++ [m], nextMsg := n + 1 })).timer (s.now + d) (.message n)

/-- The links of the shorter way round a ring of n from a to b. -/
def ringGap (n a b : Nat) : Nat := min ((b % n + n - a % n) % n) ((a % n + n - b % n) % n)

/-- The logical hops from one tile to another over the folded torus (R26, R402). -/
def Wafer.hops (w : Wafer) (a b : TileId) : Nat := ringGap 180 a.x b.x + ringGap (max 1 w.gridH) a.y b.y

/-- The channel and the kernel that an item belongs to, and whether it goes to a send end. -/
def MsgBody.chanItem : MsgBody → Option (Nat × Nat × Bool)
  | .chanMsg o => some (o.kernel, o.channel.toNat, false)
  | .grant k c _ => some (k, c, true)
  | .credit k c => some (k, c, true)
  | .openNotice k c => some (k, c, false)
  | .closeNotice k c => some (k, c, false)
  | .revoke k c => some (k, c, true)
  | _ => none

/-- Whether x lies on the way round a ring of n from a to b, the shorter way, up when both are equal (R402). -/
def onArc (n a b x : Nat) : Bool :=
  let up := (b + n - a) % n
  if 2 * up ≤ n then decide ((x + n - a) % n ≤ up) else decide ((a + n - x) % n ≤ n - up)

/-- Whether a channel of a kernel is routed Y first (R402). -/
def Wafer.yFirst (w : Wafer) (kernel ch : Nat) : Bool := (w.imageOf kernel).any (fun i => i.channels.any (fun d => d.n == ch && d.yFirst))

/-- Whether the router of a tile lies on the way from a to b, X first or Y first (R402). -/
def Wafer.onRoute (w : Wafer) (yFirst : Bool) (a b t : TileId) : Bool :=
  let h := max 1 w.gridH
  if yFirst then (t.x == a.x && onArc h a.y b.y t.y) || (t.y == b.y && onArc 180 a.x b.x t.x)
  else (t.y == a.y && onArc 180 a.x b.x t.x) || (t.x == b.x && onArc h a.y b.y t.y)

/-- Whether what one tile sends another passes the router of a tile: what a channel's send end sends takes the channel's route, what its
receive end sends the reverse of it; all else goes X first (R402). -/
def Wafer.wayHolds (w : Wafer) (src dst : TileId) (body : MsgBody) (t : TileId) : Bool :=
  match body.chanItem with
  | some (k, c, toSend) => if toSend then w.onRoute (w.yFirst k c) dst src t else w.onRoute (w.yFirst k c) src dst t
  | none => w.onRoute false src dst t
def Wafer.passes (w : Wafer) (m : Msg) (t : TileId) : Bool := w.wayHolds m.src m.dst m.body t

/-- The cycles of the way from one tile to another (R26, R431): two for each logical hop, and two for each physical link where a rewrite has
written the neighbour path. -/
def Wafer.wayCycles (w : Wafer) (src dst : TileId) (body : MsgBody) : Nat :=
  let on := w.paths.filter (fun p => w.wayHolds src dst body p.at' && w.wayHolds src dst body p.far
    && decide (w.hops src p.at' < w.hops src p.far))
  on.foldl (fun n p => n + 2 * p.links - 2 * p.span) (2 * w.hops src dst)

/-- A message put into the network whose way is not known: when it arrives is free. -/
def State.postFree (s : State) (src dst : TileId) (body : MsgBody) : State :=
  match s.freeDelay with
  | (d, s) => s.postIn d src dst body false

/-- A message put into the network: it takes the cycles of its way (R26, R431); what it waits for on its way beyond them is free (R23). -/
def State.post (s : State) (src dst : TileId) (body : MsgBody) : State :=
  match s.freeDelay with
  | (d, s) => s.postIn (d + (s.wafer.wayCycles src dst body - 1)) src dst body false

/-- The message n, when it is due. -/
def State.msg? (s : State) (n : Nat) : Option Msg := s.wafer.net.find? (fun m => m.serial == n && !m.held && decide (m.due ≤ s.now))

/-- A message leaves the network. -/
def State.dropMsg (s : State) (n : Nat) : State := s.modWafer (fun w => { w with net := w.net.filter (fun m => m.serial ≠ n) })

/-- A message of the network changed by f. -/
def State.modMsg (s : State) (n : Nat) (f : Msg → Msg) : State :=
  s.modWafer (fun w => { w with net := w.net.map (fun m => if m.serial = n then f m else m) })

/-- A message that has work left arrives again after d cycles. -/
def State.again (s : State) (m : Msg) (d : Nat) : State :=
  (s.modMsg m.serial (fun x => { x with due := s.now + d })).timer (s.now + d) (.message m.serial)

/-- Whether arrivals at a coordinate are refused: from the first flit of its migration's copy until its resume (R440). -/
def Wafer.refuses (w : Wafer) (c : TileId) : Bool :=
  match w.migration with
  | some g => g.c == c && g.phase != .settle && !g.retireOnly
  | none => false

/-- Whether an earlier message that p selects is still under way to the same place: ordered traffic waits for it (R165, R403). -/
def Wafer.behind (w : Wafer) (m : Msg) (p : MsgBody → Bool) : Bool :=
  w.net.any (fun x => decide (x.serial < m.serial) && x.dst == m.dst && p x.body)

/-! ### Flits (R473, Table 21-1) -/

/-- CRC-32C of the first 124 bytes of a flit. -/
def flitCrc (f : BitVec 1024) : BitVec 32 := crcBytes f 124 0 0xFFFFFFFF ^^^ 0xFFFFFFFF

/-- The fields of a flit. -/
def flitKind (f : BitVec 1024) : Nat := fieldNat f 31 28
def flitRseq (f : BitVec 1024) : BitVec 16 := f.extractLsb' 32 16
def flitAck (f : BitVec 1024) : BitVec 16 := f.extractLsb' 48 16
def flitPayload (f : BitVec 1024) : Nat := fieldNat f 991 64

/-- A flit of a kind with a payload, without RSEQ, ACK and CRC. -/
def flitOf (kind payload : Nat) : BitVec 1024 := BitVec.ofNat 1024 (kind * 2 ^ 28 + (payload % 2 ^ 928) * 2 ^ 64)

/-- A flit as it leaves: its RSEQ and ACK set, its CRC computed. -/
def flitSeal (f : BitVec 1024) (rseq ack : BitVec 16) : BitVec 1024 :=
  let body : BitVec 1024 := BitVec.ofNat 1024 (fieldNat f 31 0 + rseq.toNat * 2 ^ 32 + ack.toNat * 2 ^ 48 + flitPayload f * 2 ^ 64)
  body ||| BitVec.ofNat 1024 ((flitCrc body).toNat * 2 ^ 992)

/-- Whether flits of a kind are replayed (Table 21-2). -/
def replayedKind (k : Nat) : Bool := k == 1 || k == 3 || k == 4 || k == 5 || k == 7 || k == 8

/-- The wavelengths of a port in one of some states, as a mask. -/
def Port.maskOf (p : Port) (sts : List WaveSt) : BitVec 8 :=
  BitVec.ofNat 8 ((List.finRange 8).foldl (fun n w => if sts.contains (p.waves[w]).st then n + 2 ^ w.val else n) 0)

/-- The wavelengths that carry the port's next flit (R475): its stripe set, less what has failed. -/
def Port.set (p : Port) : BitVec 8 := p.txMask &&& ~~~ (p.maskOf [.failed])

/-- Whether the port can put a flit on the fibre. -/
def Port.lit (p : Port) : Bool := p.st == .training || ((p.st == .active || p.st == .degraded) && p.set != 0)

/-- The wavelength that carries beat b of flit f under a stripe set (R475): slot (8f + b) mod n of the set's wavelengths in rising
order. -/
def beatWave (set : BitVec 8) (f : BitVec 32) (b : Nat) : Option (Fin 8) :=
  let ws := (List.finRange 8).filter (fun w => set.toNat.testBit w.val)
  if ws.isEmpty then none else ws[(8 * f.toNat + b) % ws.length]?

/-- A flit put on the fibre: it takes the next transmission number. A RESTRIPE names as E the number after its own, and its set
begins there (R476). -/
def Port.emit (p : Port) (f : BitVec 1024) (rseq : BitVec 16) : Port :=
  if p.st = .training then { p with fibre := p.fibre ++ [{ num := 0, set := 0, flit := flitSeal f rseq p.rxAck }] }
  else
    let f := if flitKind f = 3 then flitOf 3 (flitPayload f % 2 ^ 32 + (p.txNum + 1).toNat * 2 ^ 32) else f
    { p with txNum := p.txNum + 1, fibre := p.fibre ++ [{ num := p.txNum, set := p.set, flit := flitSeal f rseq p.rxAck }],
             txMask := if flitKind f = 3 then BitVec.ofNat 8 (flitPayload f) else p.txMask }

/-- The count of cycles and the time that a port measures by. -/
structure Clock where
  now : Nat
  time : Nat
  deriving DecidableEq, Repr

/-- The clock of the wafer's ports. -/
def State.clock (s : State) : Clock := { now := s.now, time := s.wafer.time }

/-- A replayed flit sent for the first time. -/
def Port.sendNew (p : Port) (o : OutFlit) (t : Clock) : Port :=
  { p.emit o.flit p.txSeq with
    txSeq := p.txSeq + 1, ackAt := if p.replay.isEmpty then t.time else p.ackAt,
    replay := p.replay ++ [{ rseq := p.txSeq, flit := o.flit, since := t.now, last := t.time, set := p.txMask, op := o.op }] }

/-- Waiting flits leave while the replay buffer has room (512 flits) and the peer has not paused (R478, R480). -/
def Port.pump (p : Port) (t : Clock) : List OutFlit → Port
  | [] => { p with sendq := [] }
  | f :: r => if p.replay.length < 512 ∧ !p.paused ∧ p.lit then (p.sendNew f t).pump t r else { p with sendq := f :: r }

/-- Replayed flits given to a port to send. -/
def Port.send (p : Port) (fs : List (BitVec 1024)) (t : Clock) (op : Option Nat := none) : Port :=
  let all := p.sendq ++ fs.map (fun f => { flit := f, op := op })
  ({ p with sendq := [] }).pump t all

/-- A flit that is not replayed, sent at once. -/
def Port.sendNow (p : Port) (kind payload : Nat) : Port := if p.lit then p.emit (flitOf kind payload) 0 else p

/-- A port of the wafer changed by f. -/
def Wafer.modPort (w : Wafer) (p : PortId) (f : Port → Port) : Wafer :=
  { w with links := { w.links with ports := w.links.ports.set p.val (f w.links.ports[p]) p.isLt } }
def State.modPort (s : State) (p : PortId) (f : Port → Port) : State := s.modWafer (fun w => w.modPort p f)
def State.port (s : State) (p : PortId) : Port := s.wafer.links.ports[p]

/-! ### Refusals (R440, R480, R488) -/

/-- The operation that a message carries, with the port through which it came from another wafer. -/
def MsgBody.foreignOp : MsgBody → Option (RemoteOp × PortId)
  | .op o => o.via.map (fun p => (o, p))
  | .chanMsg o => o.via.map (fun p => (o, p))
  | .hmsg o => o.via.map (fun p => (o, p))
  | _ => none

/-- The DATA flits that an operation came in. -/
def RemoteOp.flitCount (o : RemoteOp) : Nat :=
  let beats := match o.kind with | .rget => 0 | .ramo => 1 | .hmsg => o.units | _ => 8
  (32 + 64 * beats + 115) / 116

/-- The flits of operations in a port's hold store. -/
def Wafer.holdStore (w : Wafer) (p : PortId) : Nat :=
  (w.net.filter (·.held)).foldl (fun n m => match m.body.foreignOp with | some (o, q) => if q = p then n + o.flitCount else n | none => n) 0

/-- A port whose hold store is full (256 flits) pauses its peer; below 128 flits it lets it go on (R480). -/
def State.holdCheck (s : State) (p : PortId) : State :=
  let n := s.wafer.holdStore p
  let x := s.port p
  if 256 ≤ n ∧ !x.pausedPeer then s.modPort p (fun x => { (x.sendNow 9 0) with pausedPeer := true })
  else if n < 128 ∧ x.pausedPeer then s.modPort p (fun x => { (x.sendNow 10 0) with pausedPeer := false })
  else s

/-- A refused message stays with its source, which a hold notice tells (R440); one that came from another wafer stays with its port
(R488). -/
def State.refuse (s : State) (m : Msg) : State :=
  let s := s.modMsg m.serial (fun x => { x with held := true })
  match m.body.foreignOp with
  | some (_, p) => s.holdCheck p
  | none => s.post m.dst m.src (.hold m.dst m.serial)

/-! ### Operations between wafers (R474, Table 21-3) -/

/-- The operation header as a number of 32 bytes. -/
structure WireOp where
  addr : BitVec 80
  wafer : Nat
  x : Nat
  y : Nat
  scope : Nat := 0
  acq : Bool := false
  rel : Bool := false
  tag : Nat := 0
  kind : Nat
  beats : Nat := 0
  sec : Bool := false
  nt : Bool := false
  col : Bool := false
  fn : Nat := 0
  word : Nat := 0
  pc : Nat := 0
  serial : Nat
  deriving DecidableEq, Repr

/-- A Bool as a number. -/
def bnat (b : Bool) : Nat := if b then 1 else 0

/-- The bytes of an operation header. -/
def WireOp.number (o : WireOp) : Nat :=
  o.addr.toNat + (o.wafer % 65536) * 2 ^ 80 + (o.x % 256) * 2 ^ 96 + (o.y % 256) * 2 ^ 104
    + ((o.scope % 8) * 32 + bnat o.acq * 16 + bnat o.rel * 8 + o.tag % 8) * 2 ^ 112 + (o.kind % 256) * 2 ^ 120
    + (o.beats % 65536) * 2 ^ 128 + (bnat o.sec * 4 + bnat o.nt * 2 + bnat o.col) * 2 ^ 144 + (o.fn % 256) * 2 ^ 152
    + (o.word % 2 ^ 32) * 2 ^ 160 + (o.pc % 2 ^ 32) * 2 ^ 192 + (o.serial % 2 ^ 32) * 2 ^ 224

/-- An operation header read from 32 bytes. -/
def WireOp.read (n : Nat) : WireOp :=
  let f (lo w : Nat) : Nat := n / 2 ^ lo % 2 ^ w
  { addr := BitVec.ofNat 80 n, wafer := f 80 16, x := f 96 8, y := f 104 8, scope := f 117 3, acq := f 116 1 == 1,
    rel := f 115 1 == 1, tag := f 112 3, kind := f 120 8, beats := f 128 16, sec := f 146 1 == 1, nt := f 145 1 == 1,
    col := f 144 1 == 1, fn := f 152 8, word := f 160 32, pc := f 192 32, serial := f 224 32 }

/-- The DATA flits of an operation: 116 payload bytes each, the header first, then its data. -/
def dataFlits (n : Nat) : Nat → List (BitVec 1024)
  | 0 => []
  | k + 1 => flitOf 1 (n % 2 ^ 928) :: dataFlits (n / 2 ^ 928) k

/-- The flits of an operation with its data (a number of 64 x beats bytes). -/
def WireOp.flits (o : WireOp) (data : Nat) : List (BitVec 1024) :=
  dataFlits (o.number + data * 2 ^ 256) ((32 + 64 * o.beats + 115) / 116)

/-- An operation leaves through a port; own is the serial of one that this wafer waits for. -/
def State.sendWire (s : State) (p : PortId) (o : WireOp) (data : Nat) (own : Option Nat) : State :=
  s.modPort p (fun x => ({ x with carried := true }).send (o.flits data) s.clock own)

end Sys2Proof.Machine
end

