-- ==== Sys2Proof/Machine/Remote.lean ====
section
/-! DEFINITION. Remote operations (R163 to R170, R231 to R249): issue, release, injection, what they do at their target, their
results and failures, DRAIN and FENCE, hold and resume notices (R440), host writes (R247). -/

namespace Sys2Proof.Machine

/-! ### The network command queue (R164) -/

/-- The operation of a tile's queue with a serial number. -/
def Tile.net? (t : Tile) (serial : Nat) : Option RemoteOp := t.netq.find? (fun o => o.serial == serial)

/-- The operations of a tile's queue with a serial number changed by f. -/
def State.modNet (s : State) (c : TileId) (serial : Nat) (f : RemoteOp → RemoteOp) : State :=
  s.modTileAt c (fun t => { t with netq := t.netq.map (fun o => if o.serial = serial then f o else o) })

/-- An operation leaves its tile's queue. -/
def State.dropNet (s : State) (c : TileId) (serial : Nat) : State :=
  s.modTileAt c (fun t => { t with netq := t.netq.filter (fun o => o.serial ≠ serial) })

/-- The 64 KiB granules of the virtual addresses of n bytes at va. -/
def granules (va n : Nat) : List Nat := if va >>> 16 = (va + n - 1) >>> 16 then [va >>> 16] else [va >>> 16, (va + n - 1) >>> 16]

/-- The bytes that an operation touches. -/
def RemoteOp.span (o : RemoteOp) : Nat := match o.kind with | .ramo => 4 | .rget => 512 * o.units | _ => 512

/-- Whether an operation is external on the modelled wafer. -/
def State.opExternal (s : State) (o : RemoteOp) : Bool := gaSpace o.addr == 8 && s.ownWafer o.addr

/-- The TLB entries that an external operation finds at its issue (R423). -/
def State.tlbHits (s : State) (o : RemoteOp) : List (Nat × TlbEntry) :=
  if s.opExternal o then
    (granules (gaVa o.addr) o.span).filterMap (fun g => (s.tile.tlbFind o.asid o.secure (g * 65536)).map (fun e => (g, e)))
  else []

/-! ### Issue (R163 to R165, R239, R241, R245, R336) -/

/-- An operation as it enters the queue: what it waits for, what its release covers, the TLB entries it uses. -/
def State.enqueue (s : State) (o : RemoteOp) : State :=
  let n := s.wafer.nextMsg
  let c := s.ctx
  let lies := s.liesIn o.addr
  let e := max o.scope lies
  let rel := o.ord == 1
  let ordered := o.kind == .ramo && o.ord != 0
  let hits := s.tlbHits o
  let o := { o with
    serial := n, tag := s.tag, pc := pcIndex c.flow.pc, pcFull := c.flow.pc, kernel := c.life.kernel, lies := lies, scope := e,
    pr := c.sys.prio, enq := s.now,
    covers := if rel then ((s.tile.opsOf s.tag).filter (fun x => decide (x.lies ≤ e))).map (·.serial) else [],
    waitOutlets := if rel then (List.finRange 4).filterMap (fun k =>
      let b := (c.outlets[k]).buf.length; if b = 0 then none else some (k, b)) else [],
    doomed := rel && (c.remote.failed.any (fun f => decide (f.2 ≤ e))
      || (s.tile.opsOf s.tag).any (fun x => x.failing && decide (x.lies ≤ e))),
    after := if ordered then ((s.tile.opsOf s.tag).filter (fun x => x.kind == .ramo && x.ord != 0)).map (·.serial) else [],
    ready := !rel && o.kind != .hmsg,
    ordinal := s.ordinal s.tile.at',
    hits := hits.map (fun p => (p.1, p.2.phys (p.1 * 65536), p.2.w)), spans := hits.map (fun p => (p.1, p.2.shift)) }
  let s := if s.opExternal o && o.kind == .rst then s.countOrdinals s.tile.at' 8 else s
  let s := s.modWafer (fun w => { w with nextMsg := n + 1 })
  let s := s.modTile (fun t => hits.foldl (fun t p => t.tlbUse p.2) { t with netq := t.netq ++ [o] })
  if o.ord = 2 then s.modCtx (fun c => { c with remote := { c.remote with acquire := some n } }) else s

/-- The form of RST, RADD, RGET and RAMO: rs are the registers read beside h and ga, pops a popped source, spaces and align those
of Table 6-8, mk the operation from its address. -/
def opRemote (p : BitVec 2) (h : BitVec 3) (a : BitVec 5) (rs : List RegRef) (pops : List (Fin 8)) (spaces : List Nat)
    (len align units : Nat) (mk : State → BitVec 80 → RemoteOp) : SlotOp :=
  let regs := .h h :: .g a :: rs
  let made (s : State) : RemoteOp :=
    let o := mk s (s.remoteAddr h a)
    { o with secure := hSec (s.h h), nt := hNt (s.h h), asid := s.asid, units := units }
  let broken (s : State) : List TlbEntry := ((s.tlbHits (made s)).map Prod.snd).filter (·.bad)
  { slot := 2, pred := p, reads := regs, pops := pops, gated := true,
    consumes := fun s => s.anyPoison regs || pops.any (fun f => match (s.ctx.feeds[f]).held with | x :: _ => x.poison | [] => false),
    waits := fun _ => [.injectable, .netRoom, .q3Room units],
    checks := fun s =>
      match s.globalCheck (s.h h) (s.remoteAddr h a) len align spaces false with
      | some c => some c
      | none => if (broken s).isEmpty then none else some 0x87,
    note := fun s => { s with issue := { s.issue with tlbDrop := s.issue.tlbDrop ++ broken s } },
    act := fun s => s.enqueue (made s) }

/-- The scope of a suffix: the least level it waits at, 0 without one. -/
def suffixScope (ord : BitVec 2) (sc : BitVec 3) : Nat := if ord = 0 then 0 else scopeLevel sc

/-- RST (R165): 512 bytes of src read at issue. -/
def execRst (p : BitVec 2) (h : BitVec 3) (a r : BitVec 5) (c : BitVec 3) (o : BitVec 2) (s : State) : Result :=
  .next ((opRemote p h a (srcRegs r) (srcPops r) [0, 1, 8] 512 64 1 (fun s addr =>
    { serial := 0, kind := .rst, tag := 0, pc := 0, addr := addr, data := (s.vsrc r).1, ord := o, scope := suffixScope o c })).run s)

/-- RADD (R165): w selects I32. -/
def execRadd (p : BitVec 2) (h : BitVec 3) (a r : BitVec 5) (w : BitVec 1) (c : BitVec 3) (o : BitVec 2) (k : BitVec 1) (s : State) :
    Result :=
  .next ((opRemote p h a (srcRegs r) (srcPops r) [1] 512 512 1 (fun s addr =>
    { serial := 0, kind := .radd, tag := 0, pc := 0, addr := addr, data := (s.vsrc r).1, isI32 := w == 1, col := k == 1, ord := o,
      scope := suffixScope o c })).run s)

/-- RGET (R165): l + 1 units. -/
def execRget (p : BitVec 2) (h : BitVec 3) (a b : BitVec 5) (c : BitVec 3) (o : BitVec 2) (l : BitVec 6) (s : State) : Result :=
  .next ((opRemote p h a [.g b] [] [0, 1, 2, 8] (512 * (l.toNat + 1)) 64 (l.toNat + 1) (fun s addr =>
    { serial := 0, kind := .rget, tag := 0, pc := 0, addr := addr, tagLow := (s.g b).setWidth 16, ord := o,
      scope := suffixScope o c })).run s)

/-- RAMO (R165). -/
def execRamo (p : BitVec 2) (h : BitVec 3) (a b : BitVec 5) (c : BitVec 3) (o : BitVec 2) (f : BitVec 4) (s : State) : Result :=
  .next ((opRemote p h a (amoRegs f b) [] [1, 8] 4 4 1 (fun s addr =>
    { serial := 0, kind := .ramo, tag := 0, pc := 0, addr := addr, fn := f, b0 := s.g b, b1 := s.g (b + 1), ord := o,
      scope := suffixScope o c })).run s)

/-- DRAIN and FENCE (R169, R170): they wait at their scope, trap when a covered operation has failed, and a FENCE discards what
the context's feeds hold. -/
def opDrain (p : BitVec 2) (sc : BitVec 3) (fence : Bool) : SlotOp :=
  let failed (s : State) : Bool := s.ctx.remote.failed.any (fun f => decide (f.2 ≤ scopeLevel sc))
  { slot := 2, pred := p, gated := true, waits := fun _ => [.performed sc fence],
    checks := fun s => if failed s then some 0x27 else none,
    note := fun s => { s with issue := { s.issue with unmark := true } },
    act := fun s => if fence then s.modCtx Context.discardFeeds else s }

/-- DRAIN (R169). -/
def execDrain (p : BitVec 2) (c : BitVec 3) (s : State) : Result := .next ((opDrain p c false).run s)
/-- FENCE (R170). -/
def execFence (p : BitVec 2) (c : BitVec 3) (s : State) : Result := .next ((opDrain p c true).run s)

/-! ### Failures (R166, R240) -/

/-- The KIND of an operation's fault record (Table 6-5, R415). -/
def NetKind.faultKind : NetKind → Nat
  | .rst => 2 | .radd => 3 | .ramo => 4 | .rget => 5 | .chsend => 6 | _ => 7

/-- An operation's fault record with a reason (R166, R415); that of an RGET names its failing unit and gb (Table 6-5). -/
def RemoteOp.faultRecord (o : RemoteOp) (reason : Nat) : RqEntry :=
  let a := o.addr.toNat
  let wafer := gaWafer o.addr
  let ws := if o.kind = .chsend then [o.channel.toNat, 0, wafer + reason * 2 ^ 16, o.pcFull.toNat]
    else [a % 2 ^ 32, a / 2 ^ 32 % 2 ^ 32, wafer + reason * 2 ^ 16, o.pcFull.toNat]
  let tag := if o.kind = .rget then o.part / 8 * 2 ^ 16 + o.tagLow.toNat else o.pc.toNat
  { word := rqWord true true o.kind.faultKind tag, data := some (lanesOf ws) }

/-- The releases of a tile that cover a failed operation will not be applied (R240). -/
def Tile.doom (t : Tile) (serial : Nat) : Tile :=
  { t with netq := t.netq.map (fun o => if o.covers.contains serial then { o with doomed := true } else o) }

/-- Whether an operation is an acquire: it is performed for its waiters d cycles from now (R241). -/
def State.acquireDone (s : State) (c : TileId) (o : RemoteOp) : State :=
  if o.ord = 2 then s.timer (s.now + 1) (.acquirePerformed c o.tag) else s

/-- An operation of this wafer has failed: its fault record returns to its source. -/
def State.failOp (s : State) (at' src : TileId) (o : RemoteOp) (reason : Nat) : State :=
  let s := (s.modNet src o.serial (fun x => { x with failing := true })).modTileAt src (fun t => t.doom o.serial)
  (s.acquireDone src o).post at' src (.done o.tag o.serial (some (o.faultRecord reason)))

/-- An answer to another wafer leaves by its route: the address names that wafer, X and Y the source tile. -/
def State.answerWire (s : State) (m : Msg) (o : RemoteOp) (kind beats data fn : Nat) : State :=
  match o.foreign with
  | none => s
  | some w =>
    match s.wafer.portTo w with
    | none => s
    | some p => s.sendWire p
        { addr := BitVec.ofNat 80 (w * 2 ^ 64 + o.addr.toNat % 2 ^ 64), wafer := s.wafer.links.wafer.toNat, x := m.src.x, y := m.src.y,
          tag := o.tag.val, kind := kind, beats := beats, fn := fn, pc := o.pcFull.toNat, serial := o.wire } data none

/-- An operation fails at its target with a reason. -/
def State.opFail (s : State) (m : Msg) (o : RemoteOp) (reason : Nat) : State :=
  let s := s.dropMsg m.serial
  if o.foreign.isSome then s.answerWire m o 8 1 (((o.faultRecord reason).data.getD 0).toNat % 2 ^ 512) 0
  else s.failOp m.dst m.src o reason

/-! ### Performing (R164, R166, R167, R231) -/

/-- An operation has been performed: one without a result leaves its queue; an acquire ends its wait. -/
def State.opDone (s : State) (m : Msg) (o : RemoteOp) : State :=
  let s := s.dropMsg m.serial
  if o.foreign.isSome then (if o.kind == .rst || o.kind == .radd then s.answerWire m o 7 0 0 0 else s)
  else
    let s := match o.kind with
      | .rget => s.modNet m.src o.serial (fun x => { x with performed := true })
      | .ramo => s.modNet m.src o.serial (fun x => { x with performed := true })
      | _ => s.dropNet m.src o.serial
    s.acquireDone m.src o

/-- A result returns to an operation's source: an RGET unit or a RAMO's old value. -/
def State.sendResult (s : State) (m : Msg) (o : RemoteOp) (unit : Nat) (v : Vec) (poison : Bool) (last : Bool) : State :=
  if o.foreign.isSome then s.answerWire m o 7 (if o.kind == .rget then 8 else 1) v.toNat unit
  else
    let word := if o.kind == .rget then rqWord false true 0 (unit * 2 ^ 16 + o.tagLow.toNat) else rqWord false true 1 o.pc.toNat
    s.post m.dst m.src (.unit o.tag o.serial { word := word, data := some v, poison := poison } last)

/-- The next beat of an operation's work at its target arrives after a free time. -/
def State.opNext (s : State) (m : Msg) (o : RemoteOp) : State :=
  match s.freeDelay with
  | (d, s) => (s.modMsg m.serial (fun x => { x with body := .op o })).again m d

/-- Why an operation (or the RGET unit it has reached) fails at the tile in focus; none when it goes on. -/
def State.opReason (s : State) (o : RemoteOp) : Option Nat :=
  let t := s.tile
  let sp := gaSpace o.addr
  let off := gaOff o.addr + (if o.kind == .rget then 512 * (o.part / 8) else 0)
  if t.life.st = .retired ∨ t.life.st = .spare ∨ s.wafer.gridH ≤ t.at'.y then some 3
  else if !o.secure ∧ (t.life.secure ∨ (sp = 2 ∧ (banksOf .wst off 512).any (fun b => t.life.wssec.toNat.testBit b))) then some 2
  else if sp = 2 ∧ t.kernels.any (·.writeMode) then some 4
  else if sp = 0 ∧ 0x1F0000 < off + 512 then some 5
  else none

/-- The data of beat k of an operation. -/
def RemoteOp.beat (o : RemoteOp) (k : Nat) : Nat := (o.data.toNat >>> (512 * k)) % 2 ^ 512

/-- A beat that an RGET has read: the unit leaves with its last one, and the operation is performed with the last unit. -/
def State.rgetBeat (s : State) (m : Msg) (o : RemoteOp) (v : Nat) (bad : Bool) : State :=
  let k := o.part % 8
  let o := { o with data := if k = 0 then BitVec.ofNat 4096 v else o.data ||| BitVec.ofNat 4096 (v <<< (512 * k)),
                    poison := (k != 0 && o.poison) || bad, part := o.part + 1 }
  let last := decide (8 * o.units ≤ o.part)
  let s := if k = 7 then s.sendResult m o (o.part / 8 - 1) o.data o.poison last else s
  if last then s.opDone m o else s.opNext m o

/-- Whether a beat of 64 bytes at a that the network brings may use its bank in this cycle (R142, R217). -/
def State.netServed (s : State) (sp : Space) (a : Nat) : Bool := s.tile.bankServes s.now s.cycle sp a 64

/-- One beat of a RADD. A coloured beat whose colour differs from its region's in this cycle is discarded; an operation counts one discard (R148). -/
def State.raddBeat (s : State) (m : Msg) (o : RemoteOp) (a : Nat) : RemoteOp × State :=
  if s.tile.colourAt a = o.col then
    (o, s.modTile (fun t =>
      let t := t.accUpdates a (fun k w =>
        let x := (o.beat o.part >>> (32 * k)) % 2 ^ 32
        if o.isI32 then (w + x) % 2 ^ 32 else addF32 w x) 16
      if m.poison then t.spoil .acc a 64 else t))
  else ({ o with dropped := true }, if o.dropped then s else s.modTile Tile.dropColour)

/-- One beat of an operation on the memories of the tile in focus; one that its bank does not serve waits for the next cycle (R217). -/
def State.opBeat (s : State) (m : Msg) (o : RemoteOp) : State :=
  let sp : Space := if gaSpace o.addr = 0 then .spad else if gaSpace o.addr = 1 then .acc else .wst
  let a := gaOff o.addr + 64 * o.part
  let next (o : RemoteOp) (s : State) : State := if 8 ≤ o.part + 1 then s.opDone m o else s.opNext m { o with part := o.part + 1 }
  let again (s : State) : State := (s.modMsg m.serial (fun x => { x with body := .op o })).again m 1
  match o.kind with
  | .rst =>
    if !s.netServed sp a then again s
    else next o (s.modTile (fun t => (t.netWrite sp a (o.beat o.part) m.poison).netUe (m.poison && o.part == 0)))
  | .radd =>
    match s.raddBeat m o a with
    | (o, s) => next o (s.modTile (fun t => t.netUe (m.poison && o.part == 0)))
  | .rget =>
    if !s.netServed sp a then again s
    else
      let bad := s.tile.readBad sp a 64
      let v := s.tile.read sp a 64
      (s.modTile (fun t => ((t.takeBeat sp a 64).countCorrected sp a 64).netUe bad)).rgetBeat m o v bad
  | _ =>
    let x := gaOff o.addr
    let w := s.tile.read .acc x 4
    let bad := s.tile.readBad .acc x 4
    let s := s.modTile (fun t => (t.countCorrected .acc x 4).write .acc x 4 (amoNew o.fn w o.b0.toNat o.b1.toNat))
    (s.sendResult m o 0 (lanesOf [w]) bad true).opDone m o

/-! ### External operations (R423 to R425, R511) -/

/-- A granule of an operation translated by a walk: its physical address and W, or the reason of its failure. An INVALID leaf is
marked and reported; an uncorrectable entry is reported (R423, R424). -/
def State.translate (s : State) (src : TileId) (o : RemoteOp) (g : Nat) : RemoteOp × State :=
  let va := if g = gaVa o.addr >>> 16 then gaVa o.addr else g * 65536
  let write := o.kind != .rget
  let e := s.wafer.walk o.asid o.secure va
  let s := s.markWalk e va o.asid o.secure src
  let s := if e = .bad then s.modWafer (fun w => w.report o.kernel 0x86 src o.tag o.pc false s.now) else s
  match walkReason e o.secure write, e with
  | some r, _ => ({ o with faults := o.faults ++ [(g, r)] }, s)
  | none, .leaf sh _ pa ty w sec =>
    let s := if o.foreign.isSome then s else s.modTileAt src (fun t => t.tlbUse (tlbOf o.asid o.secure va sh pa ty w sec))
    ({ o with hits := o.hits ++ [(g, pa + (g * 65536) % 2 ^ sh, w)], spans := o.spans ++ [(g, sh)] }, s)
  | none, _ => ({ o with faults := o.faults ++ [(g, 1)] }, s)

/-- The granules that an operation needs for its next beat: all before its first, and for an RGET those of its unit. -/
def RemoteOp.needs (o : RemoteOp) : List Nat :=
  match o.kind with
  | .rget => granules (gaVa o.addr + 512 * (o.part / 8)) 512
  | _ => granules (gaVa o.addr) o.span

/-- A walk for an operation begins; the operation stays with its source until it ends (R423). -/
def State.walkFor (s : State) (m : Msg) (o : RemoteOp) (g : Nat) : State :=
  match s.freeDelay with
  | (d, s) =>
    let n := s.wafer.nextMsg
    let w : Walk :=
      { serial := n, due := s.now + d, who := .op m.src o.serial, va := BitVec.ofNat 80 (g * 65536), asid := o.asid,
        secWorld := o.secure, write := o.kind != .rget, src := m.src }
    let s := (s.dropMsg m.serial).modNet m.src o.serial (fun x =>
      { x with part := o.part, hits := o.hits, spans := o.spans, faults := o.faults, data := o.data, poison := o.poison })
    (s.modWafer (fun x => { x with walks := x.walks ++ [w], nextMsg := n + 1 })).timer (s.now + d) (.pageWalk n)

/-- The walk of a remote operation is made; the operation goes on (R423). -/
def State.opWalk (s : State) (w : Walk) (src : TileId) (serial : Nat) : State :=
  match (s.tileAt src).net? serial with
  | none => s
  | some o =>
    match s.translate src o (gaVa w.va >>> 16) with
    | (o, s) => (s.modNet src serial (fun x => { x with hits := o.hits, spans := o.spans, faults := o.faults })).post src src (.op o)

/-- One write beat of an RST has been acknowledged at the edge. -/
def State.ackBeat (s : State) (m : Msg) (o : RemoteOp) : State :=
  if o.foreign.isSome then s else s.modNet m.src o.serial (fun x => { x with unitDone := x.unitDone + 1 })

/-- One beat of an operation on external memory. An RST is performed when every beat is acknowledged. -/
def State.extBeatOp (s : State) (m : Msg) (o : RemoteOp) (hits : List (Nat × Nat × Bool)) : State :=
  let va := gaVa o.addr + 64 * o.part
  let at' (v : Nat) : Nat := match assocGet (hits.map (fun h => (h.1, h.2.1))) (v >>> 16) with | some b => b + v % 65536 | none => 0
  let pa := at' va
  let w := s.wafer.ext
  let spoiled (s : State) : State := (s.poisonLeaf o.asid o.secure va pa).opFail m o 6
  match o.kind with
  | .rget => if w.badIn 32 pa 64 then spoiled s else s.rgetBeat m o (w.readNat pa 64) false
  | .ramo =>
    if w.badIn 32 pa 4 then spoiled s
    else
      let old := w.readNat pa 4
      let s := s.modWafer (fun w => { w with ext := w.ext.writeNat 32 pa 4 (amoNew o.fn old o.b0.toNat o.b1.toNat) })
      (s.sendResult m o 0 (lanesOf [old]) false true).opDone m o
  | _ =>
    let step (s : State) (acked : Bool) : State :=
      let s := if acked then s.ackBeat m o else s
      if o.part + 1 < 8 then s.opNext m { o with part := o.part + 1 }
      else if o.foreign.isSome || ((s.tileAt m.src).net? o.serial).all (fun x => decide (8 ≤ x.unitDone)) then s.opDone m o
      else s.dropMsg m.serial
    if o.foreign.isSome then
      step (s.modWafer (fun x => { x with ext := x.ext.writeNat 32 pa 64 (o.beat o.part) })) true
    else
      match s.extWrite m.src (o.ordinal + o.part) (some o.serial) (o.addr + BitVec.ofNat 80 (64 * o.part)) pa o.nt 64 (o.beat o.part) with
      | (.applied, s) => step s true
      | (.waits, s) => step s false
      | (.refused, s) => s.opFail m o 11

/-- An external operation at the edge: its translations, its checks, one beat. -/
def State.extArrive (s : State) (m : Msg) (o : RemoteOp) : State :=
  let missing (o : RemoteOp) : Option Nat :=
    o.needs.find? (fun g => !(o.hits.any (·.1 == g)) && !(o.faults.any (·.1 == g)))
  let go (s : State) (o : RemoteOp) : State :=
    match o.needs.filterMap (fun g => assocGet o.faults g) with
    | r :: _ => s.opFail m o r
    | [] =>
      let write := o.kind != .rget
      if write ∧ o.needs.any (fun g => o.hits.any (fun h => h.1 == g && !h.2.2)) then s.opFail m o 1
      else if write ∧ s.wafer.dbg.mismatch ∧ (s.pairSide m.src).isSome ∧ o.foreign.isNone ∧ o.part = 0 then s.opFail m o 11
      else s.extBeatOp m o o.hits
  if o.foreign.isSome then
    match o.needs.foldl (fun (acc : RemoteOp × State) g =>
        if acc.1.hits.any (·.1 == g) || acc.1.faults.any (·.1 == g) then acc else acc.2.translate m.src acc.1 g) (o, s) with
    | (o, s) => go s o
  else
    match missing o with
    | some g => s.walkFor m o g
    | none => go s o

/-- REMOTE_OPERATION_ARRIVAL (R164): the next beat of an operation is performed at its target; a migrating target refuses it
(R440). -/
def execRemoteOperationArrival (n : Nat) (s : State) : Result :=
  match s.msg? n with
  | none => .next s
  | some m =>
    match m.body with
    | .op o =>
      if gaSpace o.addr = 8 then .next (s.extArrive m o)
      else if s.wafer.refuses m.dst then .next (s.refuse m)
      else
        let s := s.focus m.dst
        match (if o.part % 8 = 0 then s.opReason o else none) with
        | some r => .next (s.opFail m o r)
        | none => .next (s.opBeat m o)
    | _ => .next s

/-! ### Results (R165, R166, R336) -/

/-- A result or a fault record given to its operation: it takes the q3 entry that the operation reserved. A barrier request that is answered so has
failed: it has no KIND, and only marks its context (R166, R415): DEDUCED, unsafe, log 169. -/
def State.takeResult (s : State) (c : TileId) (k : Tag) (serial : Nat) (e : Option RqEntry) (fault : Bool) : State :=
  match (s.tileAt c).net? serial with
  | none => s
  | some o =>
    let s := match e with | some e => s.modTileAt c (fun t => t.rqAppend k 3 e) | none => s
    if fault then
      (s.dropNet c serial).modTileAt c (fun t => t.modCtx k (fun x =>
        { x with remote := { x.remote with failed := x.remote.failed ++ [(serial, o.lies)] } }))
    else if o.kind = .barrier then
      (s.dropNet c serial).modTileAt c (fun t => t.modCtx k (fun x => if x.asked.barReq = some serial then
        { x with asked := { x.asked with barReq := none }, remote := { x.remote with failed := x.remote.failed ++ [(serial, o.lies)] } } else x))
    else
      let done := o.unitDone + 1
      if o.kind = .rget ∧ done < o.units then s.modNet c serial (fun x => { x with unitDone := done }) else s.dropNet c serial

/-- REMOTE_RESULT_ARRIVAL (R165, R166): the results of one operation enter q3 in the order they left. -/
def execRemoteResultArrival (n : Nat) (s : State) : Result :=
  match s.msg? n with
  | none => .next s
  | some m =>
    let mine (serial : Nat) : MsgBody → Bool := fun b =>
      match b with | .unit _ x _ _ => x == serial | .done _ x _ => x == serial | _ => false
    match m.body with
    | .unit k serial e _ =>
      if s.wafer.refuses m.dst then .next (s.refuse m)
      else if s.wafer.behind m (mine serial) then .next (s.again m 1)
      else .next ((s.dropMsg n).takeResult m.dst k serial (some e) false)
    | .done k serial e =>
      if s.wafer.refuses m.dst then .next (s.refuse m)
      else if s.wafer.behind m (mine serial) then .next (s.again m 1)
      else .next ((s.dropMsg n).takeResult m.dst k serial e e.isSome)
    | _ => .next s

/-- ACQUIRE_PERFORMED (R241): in the cycle after an acquire is performed its wait ends, and the context's feeds discard what they
hold. -/
def execAcquirePerformed (c : TileId) (tag : Tag) (s0 : State) : Result :=
  let s := s0.focus c
  match (s.tile.ctx tag).remote.acquire with
  | none => .next s0
  | some n =>
    if s.tile.netq.any (fun o => o.serial == n && !o.performed && !o.failing) then .next s0
    else .next (s.modTile (fun t => t.modCtx tag (fun x => { x.discardFeeds with remote := { x.remote with acquire := none } })))

/-! ### Release and injection (R239, R333) -/

/-- Whether the wait of a release has ended: what it covers is performed, what its outlets had been given is written. -/
def Tile.covered (t : Tile) (o : RemoteOp) : Bool :=
  o.waitOutlets.isEmpty && o.covers.all (fun n => t.netq.all (fun x => x.serial != n || x.performed))

/-- RELEASE_SEND (R239, R240): a release whose wait has ended may be injected; one whose covered operation failed fails with
reason 7. -/
def execReleaseSend (c : TileId) (serial : Nat) (s0 : State) : Result :=
  let s := s0.focus c
  match s.tile.net? serial with
  | none => .next s0
  | some o =>
    if o.ready ∨ o.failing ∨ o.ord ≠ 1 ∨ !s.tile.covered o then .next s0
    else if o.doomed then .next (s.failOp c c o 7)
    else .next (s.modNet c serial (fun x => { x with ready := true }))

/-- The next beat that an HMSG reads of its source (R416), where the unit is not pending for its kernel (Table 14-8) and the bank serves it; with its
last one it may be injected. -/
def State.hmsgRead (s : State) : State :=
  match s.tile.netq.find? (fun o => o.kind == .hmsg && decide (o.bytes.length < o.units)) with
  | none => s
  | some o =>
    let a := o.b0.toNat + 64 * o.bytes.length
    if (unitsOf .spad a 64).any (s.tile.unitPending o.kernel) ∨ !s.tile.bankServes s.now s.cycle .spad a 64 then s
    else
      let v : BitVec 512 := BitVec.ofNat 512 (s.tile.read .spad a 64)
      let bad := s.tile.readBad .spad a 64
      let s := s.modTile (fun t => ((t.takeBeat .spad a 64).countCorrected .spad a 64).netUe bad)
      s.modNet s.tile.at' o.serial (fun x =>
        { x with bytes := x.bytes ++ [v], spoiled := if bad then x.spoiled ++ [o.bytes.length] else x.spoiled,
                 ready := decide (o.bytes.length + 1 = o.units) })

/-- Bytes of beats as one number. -/
def beatsNat : List (BitVec 512) → Nat
  | [] => 0
  | b :: r => b.toNat + 2 ^ 512 * beatsNat r

/-- The operation header and the data of an operation that leaves the wafer (Table 21-3). -/
def State.wireOf (s : State) (o : RemoteOp) : WireOp × Nat :=
  let base : WireOp :=
    { addr := o.addr, wafer := s.wafer.links.wafer.toNat, x := s.tile.at'.x, y := s.tile.at'.y, scope := o.scope,
      acq := o.ord == 2, rel := o.ord == 1, tag := o.tag.val, kind := 0, sec := o.secure, nt := o.nt, col := o.col,
      pc := o.pcFull.toNat, serial := o.serial }
  match o.kind with
  | .rst => ({ base with beats := 8 }, o.data.toNat)
  | .radd => ({ base with kind := if o.isI32 then 2 else 1, beats := 8 }, o.data.toNat)
  | .rget => ({ base with kind := 3, fn := o.units - 1 }, 0)
  | .ramo => ({ base with kind := 4, fn := o.fn.toNat, beats := 1 }, o.b0.toNat + o.b1.toNat * 2 ^ 32)
  | .chsend => ({ base with kind := 5, beats := 8, word := o.channel.toNat }, o.data.toNat)
  | _ => ({ base with kind := 6, beats := o.units, word := o.handler.toNat }, beatsNat o.bytes)

/-- An operation injected into the network: to its tile, to the edge, or to the port of another wafer (R485, R487). -/
def State.inject (s : State) (o : RemoteOp) : State :=
  let c := s.tile.at'
  let s := s.modNet c o.serial (fun x => { x with injected := true })
  let o := { o with injected := true }
  if s.ownWafer o.addr then
    match o.kind with
    | .chsend => s.post c o.dst (.chanMsg o)
    | .hmsg => s.post c (gaTile o.addr) (.hmsg o)
    | _ => s.post c (if gaSpace o.addr = 8 then c else gaTile o.addr) (.op o)
  else
    match s.wafer.portTo (gaWafer o.addr) with
    | none => s.failOp c c o 3
    | some p =>
      if (s.port p).regs.sec ∧ !o.secure then s.failOp c c o 2
      else
        match s.wireOf o with
        | (w, data) =>
          let b : Outbound := { src := c, tag := o.tag, serial := o.serial, wire := o.serial % 2 ^ 32 }
          (s.sendWire p w data (some o.serial)).modPort p (fun x => { x with outbound := x.outbound ++ [b] })

/-- Whether a channel message may be injected: those of its channel that were sent before it have been, and so has the open notice to a peer on
another wafer (R403). -/
def State.chanTurn (s : State) (o : RemoteOp) : Bool :=
  o.kind != .chsend
  || (s.tile.netq.all (fun x => !(x.kind == .chsend && x.kernel == o.kernel && x.channel == o.channel && decide (x.serial < o.serial)
        && !x.injected && !x.failing))
      && (s.ownWafer o.addr || s.wafer.net.all (fun m => m.src != s.tile.at' || m.body != .openNotice o.kernel o.channel.toNat)))

/-- NETWORK_INJECTION (R333, R416, R436): an HMSG reads a beat, and the tile injects the operation of the highest effective
priority, the oldest among equals, of those that may go. A quiesced tile injects none. -/
def execNetworkInjection (c : TileId) (s0 : State) : Result :=
  let s := s0.focus c
  if s.tile.life.st ≠ .live ∧ (s.tile.life.st ≠ .migrating ∨ s.wafer.refuses c) then .next s0
  else
    let s := s.hmsgRead
    let t := s.tile
    let free := t.netq.filter (fun o => o.ready && !o.injected && !o.failing && o.kind != .barrier && s.chanTurn o
      && o.after.all (fun n => t.netq.all (fun x => x.serial != n || x.performed)))
    match firstBest (fun o => agedPrio o.pr (s.now - o.enq)) free with
    | none => .next s
    | some o => .next (s.inject o)

/-! ### Hold and resume notices (R440) -/

/-- HOLD_NOTICE (R440): the source of a refused message holds it until the resume notice reaches it. -/
def execHoldNotice (n : Nat) (s : State) : Result :=
  match s.msg? n with
  | none => .next s
  | some m =>
    match m.body with
    | .hold c serial =>
      let s := s.dropMsg n
      .next (s.modTileAt m.dst (fun t => { t with netq := t.netq.map (fun o =>
        if s.wafer.net.any (fun x => x.serial == serial && x.held && x.dst == c && (match x.body with
            | .op y => y.serial == o.serial | .chanMsg y => y.serial == o.serial | .hmsg y => y.serial == o.serial | _ => false))
        then { o with held := true } else o) }))
    | _ => .next s

/-- RESUME_NOTICE (R440): the source sends every message that it holds for the coordinate again in the next cycle, in the original order; each takes the
cycles of its way again. -/
def execResumeNotice (n : Nat) (s : State) : Result :=
  match s.msg? n with
  | none => .next s
  | some m =>
    match m.body with
    | .resume c =>
      match (s.dropMsg n).freeDelay with
      | (d, s) =>
        let mine := s.wafer.net.filter (fun x => x.held && x.src == m.dst && x.dst == c)
        let s := s.modTileAt m.dst (fun t => { t with netq := t.netq.map (fun o => { o with held := false }) })
        let s := mine.foldl (fun s x => (s.modMsg x.serial (fun y => { y with held := false })).again x (d + s.wafer.wayCycles x.src x.dst x.body)) s
        .next (mine.foldl (fun s x => match x.body.foreignOp with | some (_, p) => s.holdCheck p | none => s) s)
    | _ => .next s

/-! ### Host writes (R247) -/

/-- HOST_MEMORY_WRITE (R247): a host write of up to 64 bytes that arrives on a host link is applied; those of one link arrive in
their order. External memory ends at 1.5 TiB (R420). -/
def execHostMemoryWrite (_link : Fin 4) (addr len : Nat) (data : BitVec 512) (s : State) : Result :=
  if 64 < len then .next s
  else if extLimit < addr + len then .fault (.noSuchAddress addr)
  else .next (s.modWafer (fun w => { w with ext := w.ext.writeNat 32 addr len data.toNat }))

end Sys2Proof.Machine
end

