-- ==== Sys2Proof/Machine/Channel.lean ====
section
/-! DEFINITION. Channels and handler messages (R402 to R419): the ends of a channel on a tile, what passes between them, CHOPEN,
CHCLOSE, CHSTAT, CHWIN, CHSEND, CHRECV, HMSG. -/

namespace Sys2Proof.Machine

/-! ### Ends and their items (R404, R405) -/

/-- An end of the tile in focus changed by f. -/
def State.modEnd (s : State) (kernel ch : Nat) (send : Bool) (f : ChanEnd → ChanEnd) : State :=
  s.modTile (fun t => { t with stores := { t.stores with chans := t.stores.chans.map (fun e =>
    if e.kernel = kernel ∧ e.n = ch ∧ e.send = send then f e else e) } })

/-- Whether the peer of an end lies on another wafer. -/
def State.farEnd (s : State) (e : ChanEnd) : Bool := e.peerWafer != 0xFFFF && e.peerWafer != s.wafer.links.wafer.toNat

/-- An item of a channel sent by an end of the tile in focus to its peer; what goes to another wafer stands at the tile itself until
that wafer has taken it (R407). -/
def State.sendItem (s : State) (e : ChanEnd) (b : MsgBody) : State :=
  s.post s.tile.at' (if s.farEnd e then s.tile.at' else e.peer) b

/-- Whether an item must wait for an earlier one of its channel on the same way (R403). -/
def State.itemBehind (s : State) (m : Msg) : Bool :=
  s.wafer.net.any (fun x => decide (x.serial < m.serial) && x.dst == m.dst && x.src == m.src
    && m.body.chanItem.isSome && x.body.chanItem == m.body.chanItem)

/-- The code of an end's state (Table 17-3). -/
def EndState.code : EndState → Nat
  | .closed => 1 | .opened => 2 | .revoked => 3 | .peerClosed => 3 | .lost => 4

/-- The end that an item came from, where its peer is on another wafer: the item stands at its own tile. -/
def State.farSource (s : State) (m : Msg) : Option ChanEnd :=
  match m.body.chanItem with
  | some (k, c, toSend) => (s.tile.chanEnd k c (!toSend)).bind (fun e => if !m.far ∧ s.farEnd e ∧ m.src = s.tile.at' then some e else none)
  | none => none

/-- An end enters LOST: its bound tag takes the deferred 0x70 (R405, R413). -/
def State.loseEnd (s : State) (e : ChanEnd) : State :=
  if e.st = .lost then s
  else
    let s := s.modEnd e.kernel e.n e.send (fun x => { x with st := .lost })
    match e.tag with | some k => s.defer k 0x70 | none => s

/-- Ends of the tile in focus lose their peers; what is in flight to a lost peer, or waits to go to another wafer for it, fails with reason 3
(R413). -/
def State.losePeers (s : State) (es : List ChanEnd) : State :=
  let c := s.tile.at'
  let flying := s.wafer.net.filter (fun m => m.src == c && !m.far && es.any (fun e => m.body.chanItem == some (e.kernel, e.n, !e.send)))
  let gone := s.tile.netq.filter (fun o => o.kind == .chsend && !o.performed && !o.failing
    && es.any (fun e => e.send && s.farEnd e && e.kernel == o.kernel && e.n == o.channel.toNat))
  let s := flying.foldl (fun s m =>
    let s := s.dropMsg m.serial
    match m.body with | .chanMsg o => s.failOp c c o 3 | _ => s) (es.foldl State.loseEnd s)
  (gone.foldl (fun s o => s.failOp c c o 3) s).modWafer (fun w => { w with links := { w.links with ports := w.links.ports.map (fun x =>
    { x with outbound := x.outbound.filter (fun b => !(b.src == c && gone.any (fun o => o.serial == b.serial))) }) } })

/-- An item for another wafer: that wafer takes it, or returns it, which is free; an item returned is sent again after 4,096 cycles,
256 times at the most, and then its peer is lost (R407, R413). -/
def State.farItem (s : State) (m : Msg) (e : ChanEnd) : State :=
  match s.freeVal 1 with
  | (f, s) =>
    if (s.wafer.portTo e.peerWafer).isNone then (s.dropMsg m.serial).losePeers [e]
    else if f = 0 then s.dropMsg m.serial
    else if 255 ≤ m.returned then (s.dropMsg m.serial).losePeers [e]
    else (s.modMsg m.serial (fun x => { x with returned := x.returned + 1, due := s.now + 4096 })).timer (s.now + 4096)
      (.channelItemResend m.serial)

/-- What the peer of an end on another wafer sends next, if anything, and the end as it then knows its peer: a free choice f among the items
that Table 17-2 lets that peer send. A peer's kernel that has completed binds the end no more (R407). -/
def ChanEnd.farAct (e : ChanEnd) (f : BitVec 2) : Option MsgBody × ChanEnd :=
  if f = 1 then
    match e.send, e.farOpen with
    | true, true => (some (.revoke e.kernel e.n), { e with farOpen := false, farTaken := 0 })
    | true, false => (some (.grant e.kernel e.n e.win), { e with farOpen := true })
    | false, true => (some (.closeNotice e.kernel e.n), { e with farOpen := false })
    | false, false => (some (.openNotice e.kernel e.n), { e with farOpen := true })
  else if f = 2 then
    if e.send then (if e.farOpen ∧ 0 < e.farTaken then (some (.credit e.kernel e.n), { e with farTaken := e.farTaken - 1 }) else (none, e))
    else (none, if e.farOpen then e else { e with farKernel := none })
  else (none, e)

/-- The next act of an end's peer on another wafer, at a free time. -/
def State.farLater (s : State) (c : TileId) (kernel ch : Nat) (send : Bool) : State := s.postFree c c (.farTurn kernel ch send)

/-- The peers on other wafers of a kernel's ends on a tile begin to act: the spec gives their items no form on a link (log 164). -/
def State.farBegin (s : State) (c : TileId) (kernel : Nat) : State :=
  ((s.tileAt c).stores.chans.filter (fun e => e.kernel == kernel && s.farEnd e)).foldl (fun s e => s.farLater c kernel e.n e.send) s

/-- An act of an end's peer on another wafer: what it sends arrives in a later cycle. -/
def State.farTurn (s0 : State) (n : Nat) : State :=
  match s0.msg? n with
  | none => s0
  | some m =>
    match m.body with
    | .farTurn k c send =>
      let s := (s0.dropMsg n).focus m.dst
      match s.tile.chanEnd k c send with
      | none => s
      | some e =>
        if e.st = .lost then s
        else
          match s.freeVal 2 with
          | (f, s) =>
            let s := s.modEnd k c send (fun e => (e.farAct f).2)
            let s := match (e.farAct f).1 with
              | none => s
              | some b =>
                let n := s.wafer.nextMsg
                (s.postFree m.dst m.dst b).modMsg n (fun x => { x with far := true })
            s.farLater m.dst k c send
    | _ => s0

/-- Whether a notice for another wafer must wait for the messages of its channel that went before it (R403). -/
def State.farBehind (s : State) (m : Msg) : Bool :=
  match m.body with
  | .closeNotice k c => (s.farSource m).isSome && s.tile.netq.any (fun o =>
      o.kind == .chsend && o.kernel == k && o.channel.toNat == c && !o.performed && !o.failing)
  | _ => false

/-- The common way of a channel item's arrival: refused by a migrating coordinate, behind an earlier item, or taken by f in the
focus of its tile. -/
def State.itemArrives (s0 : State) (n : Nat) (sel : MsgBody → Bool) (f : Msg → State → State) : State :=
  match s0.msg? n with
  | none => s0
  | some m =>
    if !sel m.body then s0
    else if s0.wafer.refuses m.dst then s0.refuse m
    else if s0.itemBehind m then s0.again m 1
    else
      let s := s0.focus m.dst
      if s.farBehind m then s.again m 1
      else
      match s.farSource m with
      | some e => s.farItem m e
      | none => f m (s.dropMsg n)

/-- CHANNEL_GRANT_ARRIVAL (R405). -/
def execChannelGrantArrival (n : Nat) (s : State) : Result :=
  .next (s.itemArrives n (fun b => match b with | .grant .. => true | _ => false) (fun m s =>
    match m.body with
    | .grant k c flits => s.modEnd k c true (fun e =>
        if e.st = .lost then e else { e with credit := e.credit + flits, st := if e.st = .revoked then .opened else e.st })
    | _ => s))

/-- CREDIT_RETURN_ARRIVAL (R405): four flits of credit, in any state. -/
def execCreditReturnArrival (n : Nat) (s : State) : Result :=
  .next (s.itemArrives n (fun b => match b with | .credit .. => true | _ => false) (fun m s =>
    match m.body with
    | .credit k c => s.modEnd k c true (fun e => { e with credit := e.credit + 4 })
    | _ => s))

/-- CHANNEL_OPEN_NOTICE (R405, R406). -/
def execChannelOpenNotice (n : Nat) (s : State) : Result :=
  .next (s.itemArrives n (fun b => match b with | .openNotice .. => true | _ => false) (fun m s =>
    match m.body with
    | .openNotice k c => s.modEnd k c false (fun e => { e with st := if e.st = .peerClosed then .opened else e.st })
    | _ => s))

/-- CHANNEL_CLOSE_NOTICE (R405, R406). -/
def execChannelCloseNotice (n : Nat) (s : State) : Result :=
  .next (s.itemArrives n (fun b => match b with | .closeNotice .. => true | _ => false) (fun m s =>
    match m.body with
    | .closeNotice k c => s.modEnd k c false (fun e => { e with st := if e.st = .opened then .peerClosed else e.st })
    | _ => s))

/-- CHANNEL_REVOKE (R405, R406). -/
def execChannelRevoke (n : Nat) (s : State) : Result :=
  .next (s.itemArrives n (fun b => match b with | .revoke .. => true | _ => false) (fun m s =>
    match m.body with
    | .revoke k c => s.modEnd k c true (fun e =>
        match e.st with
        | .opened => { e with st := .revoked, credit := 0 }
        | .closed => { e with credit := 0 }
        | _ => e)
    | _ => s))

/-- CHANNEL_ITEM_RESEND (R407): a returned item is sent again, 4,096 cycles after its last send. -/
def execChannelItemResend (n : Nat) (s : State) : Result :=
  match s.msg? n with
  | none => .next s
  | some m => if m.returned = 0 ∨ m.body.chanItem.isNone then .next s else .next (s.itemArrives n (fun _ => true) (fun m s => s.again m 1))

/-- PEER_LOST (R413): an end whose peer's tile is retired with no spare, or whose peer's wafer is unreachable, enters LOST; what is in
flight to the peer fails with reason 3. -/
def execPeerLost (c : TileId) (kernel ch : Nat) (s0 : State) : Result :=
  let s := s0.focus c
  let gone (e : ChanEnd) : Bool :=
    if s.farEnd e then (s.wafer.portTo e.peerWafer).isNone else s.wafer.map.all (fun m => m.1 != e.peer)
  let mine := s.tile.stores.chans.filter (fun e => e.kernel == kernel && e.n == ch && gone e && e.st != .lost)
  if mine.isEmpty then .next s0 else .next (s.losePeers mine)

/-- The receive end that a message from another wafer is for (R407): of a kernel of the sender's GANG that declares the end; with GANG 0 the one
bound to the sender's kernel, else the earliest dispatched that is bound to none. -/
def State.farRecvEnd (s : State) (src : TileId) (o : RemoteOp) (w : Nat) : Option ChanEnd :=
  let es := s.tile.stores.chans.filter (fun e => e.n == o.channel.toNat && !e.send && e.peer == src && e.peerWafer == w
    && (s.wafer.kernel? e.kernel).any (fun k => recGang k.record == o.gang))
  if o.gang ≠ 0 then es.head?
  else match es.find? (fun e => e.farKernel == some o.kernel) with
    | some e => some e
    | none => es.find? (fun e => e.farKernel.isNone)

/-- CHANNEL_MESSAGE_ARRIVAL (R405, R407, R412): one from another wafer is for the end that R407 names, and is tried again
every 4,096 cycles while there is none, 256 times; a message is held at an OPEN or PEER_CLOSED receive end and performed; a CLOSED end drops
it, counts it and fails it with reason 10. -/
def execChannelMessageArrival (n : Nat) (s : State) : Result :=
  .next (s.itemArrives n (fun b => match b with | .chanMsg _ => true | _ => false) (fun m s =>
    match m.body with
    | .chanMsg o =>
      let ch := o.channel.toNat
      let far := o.foreign.bind (s.farRecvEnd m.src o)
      let k := if o.foreign.isSome then (far.map (·.kernel)).getD 0 else o.kernel
      let fail (s : State) (reason : Nat) : State :=
        if o.foreign.isSome then s.answerWire m o (if reason = 10 then 9 else 8) 1 (((o.faultRecord reason).data.getD 0).toNat % 2 ^ 512) 0
        else s.failOp m.dst m.src o reason
      let done (s : State) : State := if o.foreign.isSome then s.answerWire m o 7 0 0 0 else s.dropNet m.src o.serial
      let s := s.modTile (fun t => t.netUe m.poison)
      let s := if far.isSome then s.modEnd k ch false (fun e => { e with farKernel := some o.kernel }) else s
      if s.tile.life.st = .retired ∨ s.tile.life.st = .spare then fail s 3
      else if s.tile.life.secure ∧ !o.secure then fail s 2
      else if o.foreign.isSome ∧ far.isNone then
        if 255 ≤ m.returned then fail s 3
        else
          let m := { m with returned := m.returned + 1, due := s.now + 4096 }
          (s.modWafer (fun w => { w with net := w.net ++ [m] })).timer (s.now + 4096) (.message m.serial)
      else
        match s.tile.chanEnd k ch false with
        | none => done s
        | some e =>
          match e.st with
          | .opened => done (s.modEnd k ch false (fun e => { e with held := e.held ++ [{ data := o.data, poison := m.poison }] }))
          | .peerClosed => done (s.modEnd k ch false (fun e => { e with held := e.held ++ [{ data := o.data, poison := m.poison }] }))
          | .closed => fail (s.modEnd k ch false (fun e => { e with drops := if e.drops = 0xFFFF then e.drops else e.drops + 1 })) 10
          | _ => fail s 3
    | _ => s))

/-! ### The ends of a freed tag (Table 17-2) -/

/-- The ends bound to a tag of the tile in focus close: held messages are discarded; a send end sends a close notice, a receive end a
revoke. -/
def State.closeEnds (s : State) (k : Tag) : State :=
  let mine := s.tile.stores.chans.filter (fun e => e.tag == some k)
  mine.foldl (fun s e =>
    let s := s.modEnd e.kernel e.n e.send (fun e => { e with st := .closed, tag := none, held := [] })
    s.sendItem e (if e.send then .closeNotice e.kernel e.n else .revoke e.kernel e.n)) s

/-! ### CHOPEN, CHCLOSE, CHSTAT, CHWIN (R408 to R411) -/

/-- The ends of channel ch of the issuing kernel on the tile. -/
def State.myEnds (s : State) (ch : BitVec 12) : List ChanEnd :=
  s.tile.stores.chans.filter (fun e => e.kernel == s.ctx.life.kernel && e.n == ch.toNat)

/-- CHOPEN (R409). -/
def execChopen (p : BitVec 2) (c : BitVec 12) (s : State) : Result :=
  .next (SlotOp.run
    { slot := 0, pred := p,
      waits := fun s => if !(s.myEnds c).isEmpty && (s.myEnds c).all (fun e => e.st == .closed) then [.injectable] else [],
      checks := fun s =>
        let es := s.myEnds c
        if es.isEmpty then some 0x6E
        else if es.any (fun e => e.st != .closed) then some 0x71
        else if es.any (fun e => !e.send && decide (s.tile.q3Free s.tag < e.win / 4)) then some 0x6F else none,
      act := fun s => (s.myEnds c).foldl (fun s e =>
        let s := s.modEnd e.kernel e.n e.send (fun x => { x with st := .opened, tag := some s.tag })
        s.sendItem e (if e.send then .openNotice e.kernel e.n else .grant e.kernel e.n e.win)) s } s)

/-- Whether CHCLOSE of an end sends something to its peer: a close notice from an OPEN send end, a revoke from a receive end that has not lost its
peer (R405). -/
def ChanEnd.closesOut (e : ChanEnd) : Bool := if e.send then e.st == .opened else e.st == .opened || e.st == .peerClosed

/-- CHCLOSE (R409, R411): a CLOSED end stays. -/
def execChclose (p : BitVec 2) (c : BitVec 12) (s : State) : Result :=
  .next (SlotOp.run
    { slot := 0, pred := p,
      waits := fun s =>
        let mine := (s.myEnds c).all (fun e => e.tag.isNone || e.tag == some s.tag)
        (if (s.myEnds c).any (fun e => e.send && e.st == .opened) && mine then [.chanSent c] else [])
          ++ (if mine && (s.myEnds c).any ChanEnd.closesOut then [.injectable] else []),
      checks := fun s =>
        let es := s.myEnds c
        if es.isEmpty then some 0x6E
        else if es.any (fun e => e.tag.isSome && e.tag != some s.tag) then some 0x71
        else if es.any (fun e => !e.send && !e.held.isEmpty) then some 0x71 else none,
      act := fun s => (s.myEnds c).foldl (fun s e =>
        if e.st = .closed then s
        else
          let s := s.modEnd e.kernel e.n e.send (fun x => { x with st := .closed, tag := none })
          if e.closesOut then s.sendItem e (if e.send then .closeNotice e.kernel e.n else .revoke e.kernel e.n) else s) s } s)

/-- The tag of an end, 0 when it is unbound. -/
def ChanEnd.tagCode (e : ChanEnd) : Nat := match e.tag with | some k => k.val | none => 0

/-- CHSTAT (R410). -/
def execChstat (p : BitVec 2) (d : BitVec 5) (c : BitVec 12) (s : State) : Result :=
  .next (SlotOp.run
    { slot := 0, pred := p,
      act := fun s =>
        let k := s.ctx.life.kernel
        let snd := s.tile.chanEnd k c.toNat true
        let rcv := s.tile.chanEnd k c.toNat false
        let code (e : Option ChanEnd) : Nat := match e with | some e => e.st.code | none => 0
        let tag (e : Option ChanEnd) : Nat := match e with | some e => e.tagCode | none => 0
        s.resultG 0 (.n 1) d (BitVec.ofNat 32 (code snd * 2 ^ 29 + code rcv * 2 ^ 26 + tag snd * 2 ^ 23 + tag rcv * 2 ^ 20
          + ((rcv.map ChanEnd.drops).getD 0).toNat)) false } s)

/-- CHWIN (R410). -/
def execChwin (p : BitVec 2) (d : BitVec 5) (c : BitVec 12) (s : State) : Result :=
  .next (SlotOp.run
    { slot := 0, pred := p,
      act := fun s =>
        let k := s.ctx.life.kernel
        let credit := ((s.tile.chanEnd k c.toNat true).map (·.credit)).getD 0
        let held := ((s.tile.chanEnd k c.toNat false).map (·.held.length)).getD 0
        s.resultG 0 (.n 1) d (BitVec.ofNat 32 (credit * 2 ^ 16 + 4 * held)) false } s)

/-! ### CHSEND and CHRECV (R412, R414) -/

/-- The global address of a tile on a wafer, space 0. -/
def tileAddr (wafer : Nat) (c : TileId) : BitVec 80 := BitVec.ofNat 80 (wafer * 2 ^ 64 + c.x * 2 ^ 40 + c.y * 2 ^ 32)

/-- CHSEND (R412). -/
def execChsend (p : BitVec 2) (n : BitVec 12) (r : BitVec 5) (o : BitVec 2) (c : BitVec 3) (s : State) : Result :=
  let mine (s : State) : Option ChanEnd := s.tile.chanEnd s.ctx.life.kernel n.toNat true
  .next (SlotOp.run
    { slot := 2, pred := p, reads := srcRegs r, pops := srcPops r, gated := true,
      consumes := fun s => s.anyPoison (srcRegs r) || (srcPops r).any (fun f => match (s.ctx.feeds[f]).held with
        | x :: _ => x.poison | [] => false),
      waits := fun s => match mine s with
        | some e => if e.st = .opened ∧ e.tag = some s.tag then [.injectable, .netRoom, .q3Room 1, .window n 4] else []
        | none => [],
      checks := fun s => match mine s with
        | none => some 0x6E
        | some e => if e.st ≠ .opened then some 0x6D else if e.tag ≠ some s.tag then some 0x71 else none,
      act := fun s => match mine s with
        | none => s
        | some e =>
          let s := s.modEnd e.kernel e.n true (fun e => { e with credit := e.credit - 4 })
          s.enqueue { serial := 0, kind := .chsend, tag := 0, pc := 0, addr := tileAddr e.peerWafer e.peer, secure := s.ctx.life.secure,
                      data := (s.vsrc r).1, ord := o, scope := suffixScope o c, channel := n, dst := e.peer } } s)

/-- CHRECV in stall mode and in flag mode: r is pd, none in stall mode. -/
def opChrecv (p : BitVec 2) (n : BitVec 12) (d : BitVec 4) (r : Option (BitVec 3)) : SlotOp :=
  let mine (s : State) : Option ChanEnd := s.tile.chanEnd s.ctx.life.kernel n.toNat false
  { slot := 2, pred := p, gated := true,
    waits := fun s => match mine s with
      | some e =>
        (if r.isNone ∧ e.st = .opened ∧ e.tag = some s.tag then [.message n] else [])
          ++ (if e.tag = some s.tag ∧ (e.st = .opened ∨ e.st = .peerClosed) ∧ !e.held.isEmpty then [.injectable] else [])
      | none => [],
    checks := fun s => match mine s with
      | none => some 0x6E
      | some e =>
        if e.st = .closed then some 0x6D
        else if e.tag ≠ some s.tag then some 0x71
        else if e.held.isEmpty ∧ r.isNone then some 0x6D else none,
    act := fun s => match mine s with
      | none => s
      | some e =>
        match e.held with
        | [] => match r with | some i => s.pend 2 (.n 1) (.p i false) false | none => s
        | x :: rest =>
          let s := s.modEnd e.kernel e.n false (fun e => { e with held := rest })
          let s := s.pend 2 (.n 1) (.v d x.data fullMask true) x.poison
          let s := if x.poison then s.modCtx (fun c => c.recordPoison (poisonRecord 0 2 7 c.flow.pc)) else s
          let s := match r with | some i => s.pend 2 (.n 1) (.p i true) false | none => s
          if e.st = .lost then s else s.sendItem e (.credit e.kernel e.n) }

/-- CHRECV (R414). -/
def execChrecv (p : BitVec 2) (n : BitVec 12) (d : BitVec 4) (s : State) : Result := .next ((opChrecv p n d none).run s)
/-- CHRECV.flag (R414). -/
def execChrecvFlag (p : BitVec 2) (n : BitVec 12) (d : BitVec 4) (r : BitVec 3) (s : State) : Result :=
  .next ((opChrecv p n d (some r)).run s)

/-! ### Handler messages (R416 to R418) -/

/-- The checks of HMSG in the order of R416 and R517; its source is a local range of its kernel (R141, R354). -/
def State.hmsgCheck (s : State) (h : BitVec 96) (a : BitVec 80) (src n : Nat) : Option (BitVec 8) :=
  let sp := gaSpace a
  let size := match sp with | 0 => 0x200000 | 1 => 0x40000 | _ => 0x1000000
  let bank (x : Nat) : Bool := decide (x / 0x20000 ≠ (x + n - 1) / 0x20000)
  if fieldNat h 93 80 ≠ 0 ∨ (hSec h ∧ !s.tile.life.secure) then some 0x26
  else if (3 ≤ sp ∧ sp ≠ 8) ∨ (sp ≤ 2 ∧ (fieldNat a 59 48 ≠ 0 ∨ fieldNat a 31 24 ≠ 0)) then some 0x2A
  else if hNt h ∧ sp ≠ 8 then some 0x2B
  else if sp ≠ 8 ∧ (180 ≤ gaX a ∨ (s.ownWafer a ∧ s.wafer.gridH ≤ gaY a) ∨ size < gaOff a + n) then some 0x20
  else if sp ≠ 0 then some 0x22
  else if gaOff a % 64 ≠ 0 ∨ src % 64 ≠ 0 then some 0x21
  else if 0x200000 < src + n then some 0x20
  else if 0x1F0000 < src + n then some 0x25
  else if (unitsOf .spad src n).any (s.tile.unitForeign s.ctx.life.kernel) then some 0x28
  else if bank src || bank (gaOff a) then some 0x72
  else none

/-- HMSG (R416): the source beats are read after issue; l is the number of beats. -/
def execHmsg (p : BitVec 2) (h : BitVec 3) (a b : BitVec 5) (l : BitVec 8) (s : State) : Result :=
  let rs : List RegRef := [.h h, .g a, .g b, .g (b + 1)]
  .next (SlotOp.run
    { slot := 2, pred := p, reads := rs, gated := true, consumes := fun s => s.anyPoison rs,
      waits := fun _ => [.injectable, .netRoom, .q3Room 1],
      checks := fun s => s.hmsgCheck (s.h h) (s.remoteAddr h a) (s.g b).toNat (64 * l.toNat),
      act := fun s => s.enqueue
        { serial := 0, kind := .hmsg, tag := 0, pc := 0, addr := s.remoteAddr h a, secure := hSec (s.h h), b0 := s.g b,
          units := l.toNat, handler := s.g (b + 1) } } s)

/-- Why an HMSG is not accepted at the tile in focus, with the cause that its kernel's fault report takes: a retired tile (R435), then the order of R417. -/
def State.hmsgReason (s : State) (o : RemoteOp) : Option (Nat × BitVec 8) :=
  let t := s.tile
  let win := ((s.programOf o.kernel).map (fun p => p.bundles.length)).getD 0
  if t.life.st = .retired ∨ t.life.st = .spare then some (3, 0)
  else if t.kernels.all (fun k => k.kernel != o.kernel) ∨ win ≤ fieldNat o.handler 15 0 then some (8, 0x73)
  else if t.life.secure ∧ !o.secure then some (2, 0)
  else if 0x1F0000 < gaOff o.addr + 64 * o.units then some (5, 0)
  else if 16 ≤ t.stores.handlers.length then some (9, 0x74)
  else none

/-- HMSG_ARRIVAL (R417): its fate is decided with its first flit; an accepted one writes its beats in order, and with the last its
entry may start a handler. -/
def execHmsgArrival (n : Nat) (s0 : State) : Result :=
  match s0.msg? n with
  | none => .next s0
  | some m =>
    match m.body with
    | .hmsg o =>
      if s0.wafer.refuses m.dst then .next (s0.refuse m)
      else
        let s := s0.focus m.dst
        match (if o.part = 0 then s.hmsgReason o else none) with
        | some (r, code) =>
          let s := if code = 0 then s else s.modWafer (fun w => w.report o.kernel code m.dst o.tag o.pc false s.now)
          .next (s.opFail m o r)
        | none =>
          let a := gaOff o.addr + 64 * o.part
          if !s.netServed .spad a then .next (s.again m 1)
          else
          let entry : HandlerEntry :=
            { kernel := o.kernel, pc := BitVec.ofNat 32 (16 * fieldNat o.handler 15 0),
              g1 := BitVec.ofNat 32 (m.src.x * 2 ^ 24 + m.src.y * 2 ^ 16 + (o.foreign.getD s.wafer.links.wafer.toNat) % 65536),
              g2 := BitVec.ofNat 32 (gaOff o.addr), g3 := BitVec.ofNat 32 (64 * o.units), g4 := o.handler, ready := false,
              serial := m.serial }
          let s := if o.part = 0 then s.modTile (fun t => { t with stores := { t.stores with handlers := t.stores.handlers ++ [entry] } }) else s
          let bad := m.poison || o.spoiled.contains o.part
          let s := s.modTile (fun t => (t.netWrite .spad a (o.bytes.getD o.part 0).toNat bad).netUe (m.poison && o.part == 0))
          if o.part + 1 < o.units then
            match s.freeDelay with
            | (d, s) => .next ((s.modMsg n (fun x => { x with body := .hmsg { o with part := o.part + 1 } })).again m d)
          else
            let s := (s.dropMsg n).modTile (fun t => { t with stores := { t.stores with handlers := t.stores.handlers.map (fun e =>
              if e.serial = m.serial then { e with ready := true, since := s.now } else e) } })
            let s := s.timer (s.now + 1) (.handlerStart m.dst)
            .next (if o.foreign.isSome then s.answerWire m o 7 0 0 0 else s.dropNet m.src o.serial)
    | _ => .next s0

end Sys2Proof.Machine
end

