-- ==== Sys2Proof/Machine/Context.lean ====
section
/-! DEFINITION. Contexts: starting one, freeing its tag, PARK, YIELD, ARM, SPRIO, CSTART, CSTOP, CKILL (R250 to R274); TRAP, RETT,
CTOPEN, CTCLOSE, SEGCHK (R283 to R293). -/

namespace Sys2Proof.Machine

/-! ### Tags and starts (R250, R251, R308, R387) -/

/-- The lowest tag that no context of the tile outside EMPTY holds. -/
def Tile.freeTag (t : Tile) : Option Tag := (List.finRange 8).find? (fun k => (t.ctx k).life.st == .empty)

/-- The tag of the context that holds a resident number. -/
def Tile.numbered (t : Tile) (n : Fin 4) : Option Tag :=
  (List.finRange 8).find? (fun k => (t.ctx k).life.st != .empty && (t.ctx k).life.num == some n)

/-- A context from EMPTY (R251) of kernel seq at a PC and a priority, in a state and with a number. -/
def freshContext (seq : Nat) (secure : Bool) (pc : BitVec 32) (prio : BitVec 2) (st : CtxState) (num : Option (Fin 4)) : Context :=
  { flow := { pc := pc, npc := pc + 16 }, sys := { prio := prio }, life := { st := st, num := num, kernel := seq, secure := secure } }

/-- A tag given to a fresh context: its account takes the ranges of its program (R308) and its views start at 0 (R387). -/
def State.giveTag (s : State) (k : Tag) (c : Context) : State :=
  let seq := c.life.kernel
  let ranges := ((s.programOf seq).map (·.ranges)).getD []
  let bars := ((s.wafer.imageOf seq).map (·.barriers)).getD []
  s.modTile (fun t => { (t.modCtx k (fun _ => c)) with
    acct := { t.acct with ranges := t.acct.ranges.set k.val ranges k.isLt },
    stores := { t.stores with bars := { t.stores.bars with
      views := t.stores.bars.views.filter (fun v => v.tag ≠ k) ++ bars.map (fun b => { kernel := seq, tag := k, n := b.1 }) } } })

/-- A tag is freed: its ends close, its result queues empty, its account folds at the end of the cycle, and a barrier
request of it is answered to no one (Table 17-2, R270, R300, R394). -/
def State.freeTag (s : State) (k : Tag) : State :=
  let s := s.closeEnds k
  let s := s.modCore (fun c => { c.leave k with slotBusy := c.slotBusy.map (fun o => if o = some k then none else o) })
  let s := s.modTile (fun t => { (t.modCtx k (fun _ => {})) with pushes := t.pushes.filter (fun p => p.tag ≠ k),
                                                                  netq := t.netq.map (fun o =>
                                                                    if o.tag = k ∧ o.kind = .barrier then { o with doomed := true } else o) })
  s.atEnd (.fold k)

/-! ### PARK, YIELD, ARM, SPRIO (R270 to R273) -/

/-- PARK (R270): it waits for the context's commands, operations and outlets; then pending writes land, ports go IDLE, the seat is
left, and the context is DORMANT when ARMED, else EMPTY. -/
def execPark (p : BitVec 2) (s : State) : Result :=
  .next (SlotOp.run
    { slot := 0, pred := p, waits := fun _ => [.parkReady],
      plan := fun s => { s with issue := { s.issue with parks := true } },
      late := fun s =>
        let s := s.modCtx (fun c =>
          { c.landedAll with feeds := c.feeds.map (fun f => { f with active := false, held := [] }),
                             outlets := c.outlets.map (fun o => { o with active := false, buf := [] }) })
        if s.ctx.sys.armed then s.leaveSeat .dormant else s.freeTag s.tag } s)

/-- YIELD (R271): the seat is left; with n at 0 the context is READY, else BLOCKED until CYCLE is n + 1 past the issue. -/
def execYield (p : BitVec 2) (n : BitVec 12) (s : State) : Result :=
  .next (SlotOp.run
    { slot := 0, pred := p,
      late := fun s =>
        let until' : Option (BitVec 64) := if n = 0 then none else some (s.cycle + n.setWidth 64 + 1)
        (s.modCtx (fun c => { c with life := { c.life with yielded := true, waits := [], yieldUntil := until' } })).leaveSeat
          (if n = 0 then .ready else .blocked) } s)

/-- ARM (R272): from the next cycle. -/
def execArm (p : BitVec 2) (n : BitVec 12) (s : State) : Result :=
  .next (SlotOp.run { slot := 0, pred := p, act := fun s => s.atEnd (.arm s.tag (n == 1)) } s)

/-- SPRIO (R273): from the next cycle. -/
def execSprio (p : BitVec 2) (n : BitVec 12) (s : State) : Result :=
  .next (SlotOp.run { slot := 0, pred := p, act := fun s => s.atEnd (.prio s.tag (n.setWidth 2)) } s)

/-! ### CSTART, CSTOP, CKILL (R274) -/

/-- State codes (Table 10-7). -/
def CtxState.code : CtxState → Nat
  | .empty => 0 | .dormant => 1 | .ready => 2 | .issuing => 3 | .blocked => 4 | .staged => 5 | .spilling => 6 | .saved => 7
  | .halted => 8 | .faulted => 9 | .killing => 10

/-- The state in which an instruction of the cycle finds a tag: a handler start and a displacement of the cycle come after it (R254). -/
def Tile.found (t : Tile) (k : Tag) : CtxState :=
  if t.core.log.begun.any (·.1 == k) then .dormant
  else if t.core.log.displaced = some k then .issuing else (t.ctx k).life.st

/-- The state of resident number n. -/
def Tile.stateOf (t : Tile) (n : Fin 4) : CtxState := match t.numbered n with | some k => t.found k | none => .empty

/-- Whether the context of number n is foreign to the one in focus. -/
def State.foreign (s : State) (n : Fin 4) : Bool :=
  match s.tile.numbered n with
  | some k => let c := s.tile.ctx k; c.life.kernel != s.ctx.life.kernel || c.life.secure != s.ctx.life.secure
  | none => false

/-- What CSTART, CSTOP and CKILL share: act answers DONE and the state after the action; kills says that it ends the context named, so that
a context that names itself needs no next PC (R62). -/
def opControl (p : BitVec 2) (d : BitVec 5) (n : BitVec 12) (rs : List RegRef) (kills : Bool) (chk : State → Option (BitVec 8))
    (act : Fin 4 → State → Bool × State) : SlotOp :=
  let num : Fin 4 := Fin.ofNat 4 n.toNat
  { slot := 0, pred := p, reads := rs, consumes := fun s => s.anyPoison rs,
    checks := fun s => if s.foreign num then none else chk s,
    plan := fun s => if kills && s.tile.numbered num == some s.tag then { s with issue := { s.issue with parks := true } } else s,
    act := fun s =>
      if s.foreign num then s.resultG 0 (.n 1) d 0x10 false
      else
        let st := s.tile.stateOf num
        match act num s with
        | (done, s) => s.resultG 0 (.n 1) d (BitVec.ofNat 32 ((if done then 2 ^ 31 else 0) + st.code)) false }

/-- CSTART (R274). -/
def execCstart (p : BitVec 2) (d a : BitVec 5) (n : BitVec 12) (s : State) : Result :=
  .next ((opControl p d n [.g a] false (fun s => s.badTarget (s.g a).toNat) (fun num s =>
    match s.tile.numbered num with
    | none =>
      match s.tile.freeTag with
      | some k => (true, s.giveTag k (freshContext s.ctx.life.kernel s.ctx.life.secure (s.g a) s.ctx.sys.prio .ready (some num)))
      | none => (false, s)
    | some k =>
      if (s.tile.ctx k).life.st = .halted then
        (true, s.modTile (fun t => t.modCtx k (fun c => { c with life := { c.life with st := .ready } })))
      else (false, s))).run s)

/-- CSTOP (R274): the halt holds from the next cycle. -/
def execCstop (p : BitVec 2) (d : BitVec 5) (n : BitVec 12) (s : State) : Result :=
  .next ((opControl p d n [] false (fun _ => none) (fun num s =>
    match s.tile.numbered num with
    | none => (false, s)
    | some k =>
      let st := s.tile.found k
      if st = .ready ∨ st = .issuing ∨ st = .blocked then (true, s.atEnd (.halt k)) else (false, s))).run s)

/-- CKILL (R274): the kill begins in the next cycle. -/
def execCkill (p : BitVec 2) (d : BitVec 5) (n : BitVec 12) (s : State) : Result :=
  .next ((opControl p d n [] true (fun _ => none) (fun num s =>
    match s.tile.numbered num with
    | none => (false, s)
    | some k =>
      let st := s.tile.found k
      if st = .dormant ∨ st = .ready ∨ st = .issuing ∨ st = .blocked ∨ st = .halted ∨ st = .faulted then
        (true, s.atEnd (.killBegin k (if k = s.tag then none else some s.tag) false))
      else (false, s))).run s)

/-! ### TRAP and RETT (R283, R284) -/

/-- TRAP (R283): its bundle commits, then the context traps with code 0x08 + n at the next bundle. -/
def execTrap (p : BitVec 2) (n : BitVec 12) (s : State) : Result :=
  .next (SlotOp.run { slot := 0, pred := p, late := fun s => s.trapHere (0x08 + n.setWidth 8) 0 } s)

/-- RETT (R284). -/
def execRett (p : BitVec 2) (s : State) : Result :=
  .next (SlotOp.run
    { slot := 0, pred := p, checks := fun s => if s.ctx.sys.inHandler then none else some 0x03,
      plan := fun s => { s with issue := { s.issue with rett := true } },
      act := fun s => s.trace s.tag 3 (0#14 ++ s.ctx.sys.epc.extractLsb' 4 14 ++ 0#4 : BitVec 32) 0 0 (pcIndex s.ctx.flow.pc),
      late := fun s => s.modCtx Context.retFromTrap } s)

/-! ### Containment regions and segments (R288 to R293) -/

/-- The commands and feeds of a tag that no open region holds any more. -/
def Tile.outOfRegion (t : Tile) (k : Tag) : Tile :=
  let blk (e : BlockEngine) : BlockEngine :=
    { queue := e.queue.map (fun c => if c.tag = k then { c with region := false } else c),
      run := e.run.map (fun r => if r.cmd.tag = k then { r with cmd := { r.cmd with region := false } } else r) }
  let off (c : MatrixCmd) : MatrixCmd := if c.tag = k then { c with region := false } else c
  { (t.modCtx k (fun c => { c with feeds := c.feeds.map (fun f => { f with region := false }) })) with
    row := blk t.row, cpy := blk t.cpy,
    mx := { t.mx with queue := t.mx.queue.map off, run := t.mx.run.map (fun r => { r with cmd := off r.cmd }),
                      saved := t.mx.saved.map (fun x => { x with cmd := off x.cmd }) } }

/-- CTOPEN (R288): the checkpoint is g and p as at issue; commands of an earlier CTOPEN are no longer of the region. -/
def execCtopen (p : BitVec 2) (o : BitVec 12) (s : State) : Result :=
  .next (SlotOp.run
    { slot := 0, pred := p, checks := fun s => s.badTarget (s.relTarget o),
      act := fun s => s.modCtx (fun c => { c with ckpt :=
        { c.ckpt with g := c.regs.g, p := c.regs.p, handler := BitVec.ofInt 32 (s.relTarget o) } }),
      late := fun s => (s.modTile (fun t => t.outOfRegion s.tag)).modCtx (fun c => { c with ckpt := { c.ckpt with opened := true } }) } s)

/-- CTCLOSE (R288). -/
def execCtclose (p : BitVec 2) (s : State) : Result :=
  .next (SlotOp.run
    { slot := 0, pred := p, late := fun s => s.modCtx (fun c => { c with ckpt := { c.ckpt with opened := false } }) } s)

/-- The segment table of the context's program (R291). -/
def State.segments (s : State) : List (Nat × Nat × BitVec 32) := (s.program.map (·.segments)).getD []

/-- SEGCHK (R293): it issues no sooner than two cycles after the context's previous bundle. -/
def execSegchk (p : BitVec 2) (i : BitVec 12) (s : State) : Result :=
  .next (SlotOp.run
    { slot := 0, pred := p, waits := fun _ => [.segSpaced],
      checks := fun s =>
        match s.segments[i.toNat]? with
        | none => some 0x07
        | some (_, n, crc) =>
          if s.ctx.segN.toNat ≠ n then some 0xA2 else if s.ctx.segC ^^^ 0xFFFFFFFF ≠ crc then some 0xA3 else none,
      plan := fun s => { s with issue := { s.issue with segchk := true } } } s)

end Sys2Proof.Machine
end

