-- ==== Sys2Proof/Machine/Kernel.lean ====
section
/-! DEFINITION. Kernels on their tiles (chapter 14): launch records, placement, claims and hand-over of units, the start of contexts,
leaving a tile, the ends that come from outside (R326, R327, R378), completion, and BANKREL, BANKTST, KEND, KSEQ. -/

namespace Sys2Proof.Machine

/-! ### Launch records (Table 13-2) -/

/-- Word k of a launch record. -/
def recWord (r : BitVec 512) (k : Nat) : BitVec 32 := r.extractLsb' (32 * k) 32
def recImage (r : BitVec 512) : Nat := fieldNat (recWord r 0) 31 16
def recPrio (r : BitVec 512) : BitVec 2 := (recWord r 0).extractLsb' 14 2
/-- The contexts that a placed tile starts. -/
def recContexts (r : BitVec 512) : Nat := fieldNat (recWord r 0) 11 10 + 1
/-- The semaphore that the record's completion increments. -/
def recSig (r : BitVec 512) : Option (BitVec 6) := if (recWord r 7).toNat.testBit 15 then some ((recWord r 7).extractLsb' 8 6) else none
/-- The semaphores that the record's valid waits name. -/
def recWaits (r : BitVec 512) : List (BitVec 6) :=
  let w := recWord r 7
  (if w.toNat.testBit 31 then [w.extractLsb' 24 6] else []) ++ (if w.toNat.testBit 23 then [w.extractLsb' 16 6] else [])
/-- g1 to g5 of the context of an index that the record starts, as one number (R322). -/
def recLaunch (r : BitVec 512) (index : Nat) : BitVec 160 :=
  (BitVec.ofNat 32 index ++ recWord r 11 ++ recWord r 10 ++ recWord r 9 ++ recWord r 8 : BitVec 160)
/-- Width and height that the record gives for group level n, 1 to 4. -/
def recLevel (r : BitVec 512) (n : Nat) : Nat × Nat :=
  let w := recWord r (12 + (n - 1) / 2)
  if n % 2 = 1 then (fieldNat w 15 8, fieldNat w 7 0) else (fieldNat w 31 24, fieldNat w 23 16)

/-! ### Placement and units (R348, R352) -/

/-- The logical tiles that an image places. -/
def Image.placed (i : Image) : List TileId :=
  i.programs.flatMap (fun p => (List.range (p.yb + 1 - p.ya)).flatMap (fun y => (List.range (p.xb + 1 - p.xa)).map (fun x =>
    (⟨p.xa + x, p.ya + y⟩ : TileId))))

/-- The units that an image plans on every placed tile. -/
def Image.units (i : Image) : List Nat :=
  let regs := i.buffers.filter (fun b => b.bank == 16)
  (List.range 16).filter (fun b => i.buffers.any (fun f => f.bank == b))
    ++ (if regs.isEmpty then List.range 64
        else (List.range 64).filter (fun g => regs.any (fun f => decide (g * 4096 < f.offset + f.size) && decide (f.offset < (g + 1) * 4096)))).map (· + 16)

/-- The sizes of group level n (2 to 5): the record's, else the image's (R370). -/
def Image.level (i : Image) (r : BitVec 512) (n : Nat) : Nat × Nat :=
  let own := (i.scopes.find? (fun e => e.1 == n)).map (·.2)
  let given := recLevel r (n - 1)
  (if given.1 = 0 then (own.map (·.1)).getD 0 else given.1, if given.2 = 0 then (own.map (·.2)).getD 0 else given.2)

/-- Whether a unit is owned on a tile, or on its way to an owner. -/
def Tile.unitTaken (t : Tile) (u : Nat) : Bool :=
  t.kernels.any (fun k => match assocGet k.units u with | some .held => true | some (.zeroing _) => true | _ => false)

/-- Whether a kernel holds scratchpad banks on a tile (R27). -/
def TileKernel.holdsBanks (k : TileKernel) : Bool :=
  k.units.any (fun u => decide (u.1 < 16) && (match u.2 with | .held => true | .zeroing _ => true | _ => false))

/-! ### Hand-over (R360, R361) -/

/-- The claims of a kernel that is dispatched, and its parts of the barrier and channel stores (R360, R387, R404). -/
def Tile.claim (t : Tile) (seq order : Nat) (i : Image) (wafer : Nat) : Tile :=
  let units : List (Nat × UnitState) := i.units.map (fun u => (u, if t.unitTaken u then .pending else .held))
  let mk (d : ChannelDecl) (send : Bool) : List ChanEnd :=
    let own := if send then d.sw else d.rw'
    let at' : TileId := if send then ⟨d.sx, d.sy⟩ else ⟨d.rx, d.ry⟩
    if (own = 0xFFFF ∨ own = wafer) ∧ at' = t.at' then
      [{ kernel := seq, n := d.n, send := send, win := d.win, peer := if send then ⟨d.rx, d.ry⟩ else ⟨d.sx, d.sy⟩,
         peerWafer := if send then d.rw' else d.sw }]
    else []
  let bars := t.stores.bars
  { t with
    kernels := t.kernels ++ [{ kernel := seq, units := units, order := order, writeMode := i.writeMode, secure := i.secure }],
    stores := { t.stores with
      chans := t.stores.chans ++ i.channels.flatMap (fun d => mk d true ++ mk d false),
      bars := if i.barriers.isEmpty then bars
        else { bars with kernels := bars.kernels ++ [seq], mirrors := bars.mirrors ++ i.barriers.map (fun b => { kernel := seq, n := b.1 }) } } }

/-- n bytes at a of a store written with zeros, their error marks cleared; g is the size of its protected words. -/
def Store.zero (m : Store) (g a n : Nat) : Store :=
  let inside (x : Nat) : Bool := decide (a ≤ x) && decide (x < a + n)
  { m with cells := m.cells.filter (fun c => !inside c.1), bad := m.bad.filter (fun k => !inside (g * k)),
           weak := m.weak.filter (fun k => !inside (g * k)) }

/-- A unit written with zeros; a region's colour becomes 0 (R361). -/
def Tile.zeroUnit (t : Tile) (u : Nat) : Tile :=
  if u < 16 then t.setStore .spad ((t.store .spad).zero Space.spad.word (u * 0x20000) 0x20000)
  else
    let t := t.setStore .acc ((t.store .acc).zero Space.acc.word ((u - 16) * 4096) 4096)
    { t with mem := { t.mem with colours := t.mem.colours &&& ~~~(1#64 <<< (u - 16)) } }

/-- The state of a unit for a kernel on a tile set. -/
def Tile.setUnit (t : Tile) (seq u : Nat) (x : UnitState) : Tile :=
  { t with kernels := t.kernels.map (fun k => if k.kernel = seq then { k with units := assocPut k.units u x } else k) }

/-- The present kernel with the earliest claim on a unit. -/
def Tile.nextClaim (t : Tile) (u : Nat) : Option TileKernel :=
  (t.kernels.filter (fun k => assocGet k.units u == some .pending)).foldl (fun b k =>
    match b with | some x => if k.order < x.order then some k else b | none => some k) none

/-- A unit given up at the end of a cycle passes to its next claimant: at once within a world, after zeroing between worlds. -/
def State.passUnit (s : State) (c : TileId) (secure : Bool) (u : Nat) : State :=
  match (s.tileAt c).nextClaim u with
  | none => s
  | some k =>
    if k.secure = secure then s.modTileAt c (fun t => t.setUnit k.kernel u .held)
    else
      let until' := s.now + (if u < 16 then 2049 else 65)
      (s.modTileAt c (fun t => (t.zeroUnit u).setUnit k.kernel u (.zeroing until'))).timer until' (.unitZeroingDone c u)

/-- Units of a kernel released on a tile at the end of a cycle (R361, R365). -/
def State.releaseUnits (s : State) (c : TileId) (seq : Nat) (us : List Nat) : State :=
  us.foldl (fun s u =>
    match (s.tileAt c).kernels.find? (fun k => k.kernel == seq) with
    | none => s
    | some k =>
      let was := assocGet k.units u
      let s := s.modTileAt c (fun t => t.setUnit seq u .released)
      match was with
      | some .held => s.passUnit c k.secure u
      | some (.zeroing _) => s.passUnit c k.secure u
      | _ => s) s

/-- UNIT_ZEROING_DONE (R361): a unit zeroed for a claimant of another world becomes HELD. -/
def execUnitZeroingDone (c : TileId) (unit : Nat) (s : State) : Result :=
  .next (s.modTileAt c (fun t => { t with kernels := t.kernels.map (fun k =>
    match (assocGet k.units unit : Option UnitState) with
    | some (UnitState.zeroing n) => if n ≤ s.now then { k with units := assocPut k.units unit .held } else k
    | _ => k) }))

/-! ### Starting contexts (R322, R356, R387) -/

/-- A context that a launch starts, with g1 to g5 (R322). -/
def launched (seq : Nat) (secure : Bool) (pc : BitVec 32) (prio : BitVec 2) (launch : BitVec 160) (st : CtxState)
    (num : Option (Fin 4)) : Context :=
  let c := freshContext seq secure pc prio st num
  let r := (List.range 5).foldl (fun r k => Regs.write r (.g (BitVec.ofNat 5 (k + 1)) (launch.extractLsb' (32 * k) 32)) false) c.regs
  { c with regs := r }

/-- How low a context ranks, for the choice of the outgoing ones (R258): priority, then a YIELD, then its number. -/
def Context.rank (c : Context) : Nat :=
  (3 - c.sys.prio.toNat) * 16 + (if c.life.yielded then 8 else 0) + (c.life.num.map (·.val)).getD 0

/-- The resident numbers that are EMPTY and that no swap request has taken. -/
def Tile.emptyNumbers (t : Tile) : List (Fin 4) :=
  (List.finRange 4).filter (fun n => (t.numbered n).isNone && !(t.core.swap.any (fun w => w.out == n))
    && !t.core.swapWaiting.any (fun w => w.1 == n))

/-- An element put into a list that falls by rank. -/
def insertBy {α : Type} (rank : α → Nat) (x : α) : List α → List α
  | [] => [x]
  | y :: r => if rank y ≤ rank x then x :: y :: r else y :: insertBy rank x r

/-- The resident contexts below a priority that a swap can take out, the lowest-ranked first. -/
def Tile.swappable (t : Tile) (prio : BitVec 2) : List (Fin 4) :=
  let ok (n : Fin 4) : Bool := match t.numbered n with
    | some k =>
      let c := t.ctx k
      (c.life.st == .ready || c.life.st == .issuing || c.life.st == .blocked || c.life.st == .halted)
        && decide (c.sys.prio.toNat < prio.toNat)
    | none => false
  let rank (n : Fin 4) : Nat := match t.numbered n with | some k => (t.ctx k).rank | none => 0
  let free := (List.finRange 4).filter (fun n => ok n && !(t.core.swap.any (fun w => w.out == n)) && !t.core.swapWaiting.any (fun w => w.1 == n))
  free.foldr (insertBy rank) []

/-- Whether a tile may start the contexts of a kernel that it holds (R356, R387). -/
def Tile.mayStart (t : Tile) (k : TileKernel) : Bool :=
  !k.started && t.life.st == .live
  && t.kernels.all (fun x => decide (k.order ≤ x.order) || x.writeMode == k.writeMode)
  && (match t.stores.bars.kernels.idxOf? k.kernel with | some n => decide (n < 8) | none => true)

/-- The contexts of a kernel started on the tile in focus: EMPTY numbers first, the lowest first, then fresh-start swap requests;
none when they cannot all start yet. -/
def State.startContexts (s : State) (k : Kernel) : Option State :=
  let t := s.tile
  let n := recContexts k.record
  let prio := recPrio k.record
  let empties := t.emptyNumbers.take n
  let rest := (t.swappable prio).take (n - empties.length)
  let tags := (List.finRange 8).filter (fun g => (t.ctx g).life.st == .empty)
  if empties.length + rest.length < n ∨ tags.length < empties.length then none
  else
    let direct := (empties.zip tags).zip (List.range n)
    let s := direct.foldl (fun s e =>
      s.giveTag e.1.2 (launched k.seq k.secure 0 prio (recLaunch k.record e.2) .ready (some e.1.1))) s
    let swaps := (rest.zip ((List.range n).drop empties.length)).map (fun e =>
      (e.1, SwapIn.fresh k.seq 0 prio (recLaunch k.record e.2)))
    let s := s.modCore (fun c => { c with swapWaiting := c.swapWaiting ++ swaps })
    some (s.modTile (fun t => { t with kernels := t.kernels.map (fun x => if x.kernel = k.seq then { x with started := true } else x) }))

/-- Whether a swap request is for a fresh context of a kernel. -/
def freshOf (w : SwapIn) (seq : Nat) : Bool := match w with | .fresh k .. => k == seq | .saved _ => false

/-- Whether contexts of a kernel are still to come on a tile by a swap. -/
def Tile.swapPending (t : Tile) (seq : Nat) : Bool :=
  t.core.swapWaiting.any (fun w => freshOf w.2 seq) || (t.core.swap.any (fun w => freshOf w.incoming seq))

/-! ### Leaving a tile, and the end of a kernel (R323, R358, R360) -/

/-- Whether a kernel still has its share of a tile: it has not started there, or a context of it is not EMPTY or yet to come. -/
def Tile.shares (t : Tile) (k : TileKernel) : Bool := !k.started || !(t.tagsOf k.kernel).isEmpty || t.swapPending k.kernel

/-- A kernel leaves a tile at the end of a cycle: its units pass on. With its last tile it ends, and completes in the next cycle. -/
def State.leaveTile (s : State) (c : TileId) (k : TileKernel) : State :=
  let s := s.releaseUnits c k.kernel (k.units.map (·.1))
  let s := s.modTileAt c (fun t => { t with kernels := t.kernels.filter (fun x => x.kernel ≠ k.kernel) })
  if s.tiles.any (fun t => t.kernels.any (fun x => x.kernel == k.kernel)) then s
  else (s.modWafer (fun w => w.modKernel k.kernel (fun x => { x with endCycle := w.cycle }))).timer (s.now + 1) (.kernelComplete k.kernel)

/-- Every kernel whose share of a tile has ended leaves it. -/
def State.leaveAll (s : State) : State :=
  (s.tiles.flatMap (fun t => (t.kernels.filter (fun k => !t.shares k)).map (fun k => (t.at', k)))).foldl (fun s e => s.leaveTile e.1 e.2) s

/-- A kill of one tag of a tile begins (R253, R294). -/
def Tile.beginKill (t : Tile) (k : Tag) (byTag : Option Tag) (byHost : Bool) (now : Nat) : Tile :=
  t.modCtx k (fun c =>
    if c.life.st = .empty ∨ c.life.st = .killing then c
    else { c with life := { c.life with st := .killing }, kill := { step := 1, began := now, byTag := byTag, byHost := byHost } })

/-- A swap withdrawn before its decision (R253): a context read from its slot is SAVED again, a fresh one EMPTY with its slot free, and the
shadow bank is free. -/
def Tile.withdrawSwap (t : Tile) : Tile :=
  match t.core.swap with
  | some w =>
    if w.decided.isSome then t
    else
      let t := { t with core := { t.core with swap := none } }
      match w.inTag, w.incoming with
      | some k, .saved _ => t.modCtx k (fun x => if x.life.st = .staged then { x with life := { x.life with st := .saved } } else x)
      | some k, .fresh .. =>
        if (t.ctx k).life.st = .staged then
          { (t.modCtx k (fun _ => {})) with
            core := { t.core with slotBusy := t.core.slotBusy.map (fun o => if o = some k then none else o) } }
        else t
      | none, _ => t
  | none => t

/-- A tile that has not started the kernel's contexts starts none; swaps for them, waiting or before their decision, are withdrawn (R253, R326,
R358). -/
def Tile.endShare (t : Tile) (seq : Nat) : Tile :=
  let t := if t.core.swap.any (fun w => freshOf w.incoming seq) then t.withdrawSwap else t
  { t with kernels := t.kernels.map (fun k => if k.kernel = seq then { k with started := true } else k),
           core := { t.core with swapWaiting := t.core.swapWaiting.filter (fun w => !freshOf w.2 seq) } }

/-- The kill of every context of a kernel begins in cycle at' (R326, R327, R378); byHost says that the host's abort has called for it. -/
def State.killKernel (s : State) (seq at' : Nat) (byHost : Bool) : State :=
  s.mapTiles (fun t => (t.tagsOf seq).foldl (fun t k => t.beginKill k none byHost at') (t.endShare seq))

/-- The kills that fault reports and expired graces have called for begin in the next cycle. -/
def State.dueKills (s : State) : State :=
  (s.wafer.kernels.filter (fun k => k.killAt.isSome)).foldl (fun s k =>
    (s.killKernel k.seq (s.now + 1) (k.status == 5 && !k.late)).modWafer (fun w => w.modKernel k.seq (fun x => { x with killAt := none }))) s

/-- A running kernel ends from outside with status ABORTED: its contexts take a deferred trap, its shares not yet started end, and
after ABORTGRACE cycles what is left is killed (R327, R378). -/
def State.abortKernel (s : State) (seq : Nat) (code : BitVec 8) (group : GroupState) (late : Bool) : State :=
  let s := s.modWafer (fun w => w.modKernel seq (fun k => { k with st := .ending, status := 5, group := group, late := late }))
  let s := s.mapTiles (fun t => t.endShare seq)
  let all := s.tiles.flatMap (fun t => (t.tagsOf seq).map (fun k => (t.at', k)))
  let here := s.tile.at'
  let tag := s.tag
  let s := (all.foldl (fun s e => (s.focus e.1).defer e.2 code) s).focus here
  let s := { s with tag := tag }
  let grace : Nat := s.wafer.host.abortGrace.toNat
  if grace = 0 then s.modWafer (fun w => w.modKernel seq (fun k => { k with killAt := some s.now }))
  else s.timer (s.now + grace) (.abortGraceExpiry seq)

/-- The group state of a kernel that a host ends (Table 15-4). -/
def GroupState.stopped (g : GroupState) : GroupState := match g with | .gangWait => .abandoned | .gangStarting => .abandoned | g => g

/-- ABORT (R327): the second write aborts the running kernel that the two name; no other write has an effect. -/
def execAbort (high : BitVec 32) (s : State) : Result :=
  s.hostWrites 0x508 fun s =>
  let seq := (high ++ s.wafer.host.abortLo : BitVec 64).toNat
  match s.wafer.kernel? seq with
  | some k => if k.st = .running then .next (s.abortKernel seq 0x90 k.group.stopped false) else .next s
  | none => .next s

/-- ABORT_GRACE_EXPIRY (R327, R378): the contexts of an aborted kernel that are not EMPTY are killed. -/
def execAbortGraceExpiry (kernel : Nat) (s : State) : Result :=
  match s.wafer.kernel? kernel with
  | some k =>
    if k.st = .ending ∧ k.status = 5 then .next (s.modWafer (fun w => w.modKernel kernel (fun x => { x with killAt := some s.now })))
    else .next s
  | none => .next s

/-! ### Instructions (R364 to R368) -/

/-- The units that a BANKREL names: banks from bit 0, or regions 32h to 32h + 31. -/
def relUnits (acc : Option Nat) (w : Word) : List Nat :=
  match acc with
  | none => (List.range 16).filter (fun b => w.toNat.testBit b)
  | some h => ((List.range 32).filter (fun b => w.toNat.testBit b)).map (fun b => 16 + 32 * h + b)

/-- BANKREL in either form (R365): the check of BANK_NOTHELD comes before the wait. -/
def opBankrel (p : BitVec 2) (a : BitVec 5) (acc : Option Nat) : SlotOp :=
  let bad (s : State) : Bool := (acc.isNone && decide (0xFFFF < (s.g a).toNat))
    || (relUnits acc (s.g a)).any (s.tile.unitForeign s.ctx.life.kernel)
  { slot := 0, pred := p, reads := [.g a], consumes := fun s => s.anyPoison [.g a],
    waits := fun s => if s.anyPoison [.g a] || bad s || s.g a == 0 then [] else [.kernelQuiet],
    checks := fun s => if bad s then some 0x75 else none,
    act := fun s => s.atEnd (.release s.ctx.life.kernel (relUnits acc (s.g a))) }

/-- BANKREL (R365). Bits of ga above 15 name no unit. -/
def execBankrel (p : BitVec 2) (a : BitVec 5) (s : State) : Result := .next ((opBankrel p a none).run s)
/-- BANKREL.acc (R365). -/
def execBankrelAcc (p : BitVec 2) (a : BitVec 5) (h : BitVec 1) (s : State) : Result := .next ((opBankrel p a (some h.toNat)).run s)

/-- BANKTST (R366). -/
def execBanktst (p : BitVec 2) (d : BitVec 5) (sel : BitVec 12) (s : State) : Result :=
  .next (SlotOp.run
    { slot := 0, pred := p,
      act := fun s =>
        let k := s.ctx.life.kernel
        let bits (first n : Nat) (f : Nat → Bool) : Nat := (List.range n).foldl (fun v b => if f (first + b) then v + 2 ^ b else v) 0
        let held (u : Nat) : Bool := s.tile.unitState k u == some .held
        let v := if sel = 0 then bits 0 16 held + 2 ^ 16 * bits 0 16 (s.tile.unitPending k)
          else if sel = 1 then bits 16 32 held else bits 48 32 held
        s.resultG 0 (.n 1) d (BitVec.ofNat 32 v) false } s)

/-- KEND (R367): the check of KEND_PENDING comes before the wait. -/
def execKend (p : BitVec 2) (s : State) : Result :=
  let others (s : State) : Bool := (s.tile.tagsOf s.ctx.life.kernel).any (fun k => k != s.tag)
  let units (s : State) : List Nat := match s.tile.kernels.find? (fun k => k.kernel == s.ctx.life.kernel) with
    | some k => (k.units.filter (fun u => u.2 != .released)).map (·.1)
    | none => []
  .next (SlotOp.run
    { slot := 0, pred := p, waits := fun s => if others s then [] else [.kernelQuiet],
      checks := fun s => if others s then some 0x76 else none,
      act := fun s => s.atEnd (.release s.ctx.life.kernel (units s)) } s)

/-- KSEQ 0 and 1 (R368): the number of the context's own kernel. -/
def execKseq (p : BitVec 2) (d : BitVec 5) (sel : BitVec 12) (s : State) : Result :=
  .next (SlotOp.run
    { slot := 0, pred := p,
      act := fun s => s.resultG 0 (.n 1) d (BitVec.ofNat 32 (s.ctx.life.kernel / 2 ^ (32 * (sel.toNat % 2)))) false } s)

/-- KSEQ 2 and 3 (R368): the number of the kernel that last completed from queue ga. A poisoned ga poisons gd and traps nothing. -/
def execKseqQueue (p : BitVec 2) (d a : BitVec 5) (sel : BitVec 12) (s : State) : Result :=
  .next (SlotOp.run
    { slot := 0, pred := p, reads := [.g a],
      checks := fun s => if !s.anyPoison [.g a] ∧ 16 ≤ (s.g a).toNat then some 0x77 else none,
      act := fun s =>
        let q : QueueId := Fin.ofNat 16 (s.g a).toNat
        s.resultG 0 (.n 1) d (BitVec.ofNat 32 ((s.wafer.queues[q]).lastDone / 2 ^ (32 * (sel.toNat % 2)))) (s.anyPoison [.g a]) } s)

end Sys2Proof.Machine
end

