-- ==== Sys2Proof/Machine/Queue.lean ====
section
/-! DEFINITION. Launch queues (chapter 13): records and their checks, launch semaphores, dispatch, condition reads, completion, the
host's commands to queues, page walks by who asked for them, and LAUNCH, QSTAT, QPRIO, QCANCEL. -/

namespace Sys2Proof.Machine

/-! ### Queues (R316, R329, R330) -/

/-- A launch queue of the wafer changed by f. -/
def Wafer.modQueue (w : Wafer) (q : QueueId) (f : LaunchQueue → LaunchQueue) : Wafer :=
  { w with queues := w.queues.set q.val (f w.queues[q]) q.isLt }
def State.modQueue (s : State) (q : QueueId) (f : LaunchQueue → LaunchQueue) : State := s.modWafer (fun w => w.modQueue q f)
def State.queue (s : State) (q : QueueId) : LaunchQueue := s.wafer.queues[q]

/-- The dispatched kernels of a queue that have not completed. -/
def Wafer.runningOf (w : Wafer) (q : QueueId) : List Kernel := w.kernels.filter (fun k => k.queue == q.val && k.st != .complete)

/-- State codes of LQSTAT. -/
def QState.code : QState → Nat
  | .disabled => 0 | .opened => 1 | .stopped => 2 | .flushing => 3

/-- LQSTAT of a queue (Table 13-5). -/
def Wafer.lqstat (w : Wafer) (q : QueueId) : BitVec 32 :=
  BitVec.ofNat 32 (w.queues[q].st.code * 2 ^ 28 + w.queues[q].recs.length * 2 ^ 16 + (w.runningOf q).length * 2 ^ 8)

/-- LQSTAT is kept as it stood at the start of the cycle before what changes it within the cycle. -/
def State.keepStat (s : State) (q : QueueId) : State :=
  s.modQueue q (fun x => if x.was.any (fun p => p.1 == s.now) then x else { x with was := some (s.now, s.wafer.lqstat q) })

/-- LQHEAD: the slot of the head record, or the tail where none is queued. -/
def LaunchQueue.head (x : LaunchQueue) : BitVec 8 := match x.recs with | r :: _ => r.idx | [] => x.tail

/-- Whether a queue is full. -/
def LaunchQueue.full (x : LaunchQueue) : Bool := x.tail + 1 == x.head

/-- A host function without SEC may not touch a secure queue: the write is ignored and HOST_WORLD recorded. -/
def State.queueDenied (s : State) (q : QueueId) (secureFn : Bool) : Bool := (s.queue q).sec && !secureFn

/-! ### Launch semaphores (R319) -/

/-- n added to a launch semaphore: past 65,535 it stays there and LSOVF is set. -/
def Wafer.lsAdd (w : Wafer) (k : Fin 64) (n : Nat) : Wafer :=
  let v := w.ls[k].toNat + n
  { w with ls := w.ls.set k.val (BitVec.ofNat 16 (min v 65535)) k.isLt,
           host := { w.host with hstatLsovf := w.host.hstatLsovf || decide (65535 < v) } }

/-- The increments that arrived in the cycle that ends. -/
def Wafer.lsFold (w : Wafer) : Wafer :=
  let w' := (List.finRange 64).foldl (fun x k => if w.lsInc[k] = 0 then x else x.lsAdd k w.lsInc[k]) w
  { w' with lsInc := Vector.replicate 64 0 }

/-- An increment of a launch semaphore that arrives in this cycle. -/
def State.lsSignal (s : State) (n : BitVec 6) : State :=
  let k : Fin 64 := n.toFin
  s.modWafer (fun w => { w with lsInc := w.lsInc.set k.val (w.lsInc[k] + 1) k.isLt })

/-- LSV_WRITE (R319). -/
def execLsvWrite (n : Fin 64) (value : BitVec 16) (s : State) : Result :=
  s.hostWrites (0x400 + 4 * n.val) fun s =>
  .next (s.modWafer (fun w => w.lsAdd n value.toNat))

/-! ### Completion (R323 to R325) -/

/-- A completion entry (Table 13-3). -/
def entryOf (seq status : Nat) (df : Bool) (fcause : BitVec 8) (faults disc : Nat) (c : TileId) (tag : Nat) (pc : BitVec 14)
    (endAt : BitVec 64) : BitVec 256 :=
  BitVec.ofNat 256 (seq % 2 ^ 64 + (faults % 2 ^ 16 + fcause.toNat * 2 ^ 16 + bnat df * 2 ^ 27 + status % 16 * 2 ^ 28) * 2 ^ 64
    + (disc % 2 ^ 16 + c.y % 256 * 2 ^ 16 + c.x % 256 * 2 ^ 24) * 2 ^ 96 + (pc.toNat + tag * 2 ^ 29) * 2 ^ 128 + endAt.toNat * 2 ^ 192)

/-- The completion entry of a kernel. -/
def Kernel.entry (k : Kernel) : BitVec 256 :=
  match k.first with
  | some (code, c, tag, pc, df) => entryOf k.seq k.status.toNat df code k.faults k.disc c tag.val pc k.endCycle
  | none => entryOf k.seq k.status.toNat false (if k.late && k.group == .abandoned then 0x78 else 0) k.faults k.disc ⟨0, 0⟩ 0 0 k.endCycle

/-- A record that completes without starting a context, in this cycle: its entry and its increment follow in the next (R318,
R324). -/
def State.finishRecord (s : State) (q : QueueId) (r : Queued) (status : Nat) (fcause : BitVec 8) : State :=
  let e := entryOf r.seq status false fcause 0 0 ⟨0, 0⟩ 0 0 s.wafer.cycle
  let d : Completion := { seq := r.seq, entry := some e, readyAt := s.now + 1, sig := recSig r.record }
  (s.modQueue q (fun x => { x with due := x.due ++ [d] })).timer (s.now + 1) (.completionEntryWrite q)

/-- What a queue has to do for the records that have completed before this cycle: every SIG increment still to be made, and the
oldest entry, if its record has completed. -/
def State.writeEntry (s : State) (q : QueueId) : State :=
  let ready (d : Completion) : Bool := d.entry.isSome && decide (d.readyAt ≤ s.now)
  let s := ((s.queue q).due.filter ready).foldl (fun s d => match d.sig with | some n => s.lsSignal n | none => s) s
  let s := s.modQueue q (fun x => { x with due := x.due.map (fun d => if ready d then { d with sig := none } else d) })
  match (s.queue q).due with
  | d :: rest =>
    match d.entry, ready d with
    | some e, true =>
      let s := s.modQueue q (fun x =>
        { x with due := rest, cring := assocPut x.cring x.ctail.toNat e, ctail := x.ctail + 1 })
      if rest.isEmpty then s else s.timer (s.now + 1) (.completionEntryWrite q)
    | _, _ => s
  | [] => s

/-- COMPLETION_ENTRY_WRITE (R325): entries leave in dispatch order, one in a cycle. -/
def execCompletionEntryWrite (q : QueueId) (s : State) : Result := .next (s.writeEntry q)

/-- A FLUSHING queue with nothing left to end becomes DISABLED (Table 13-4). -/
def State.settleFlush (s : State) (q : QueueId) : State :=
  if (s.queue q).st = .flushing ∧ (s.wafer.runningOf q).isEmpty ∧ (s.queue q).recs.isEmpty then
    s.modQueue q (fun x => { x with st := .disabled })
  else s

/-- KERNEL_COMPLETE (R323): in the cycle after the last context of the kernel has become EMPTY, it is COMPLETE; its increment is
made and its entry written, or held for an earlier one; its parts of the barrier and channel stores are discarded. -/
def execKernelComplete (kernel : Nat) (s : State) : Result :=
  match s.wafer.kernel? kernel with
  | none => .next s
  | some k =>
    if k.st = .complete ∨ s.tiles.any (fun t => t.kernels.any (fun x => x.kernel == kernel)) then .next s
    else
      let q : QueueId := Fin.ofNat 16 k.queue
      let s := s.modWafer (fun w => w.modKernel kernel (fun x => { x with st := .complete, group := .ended, killAt := none }))
      let s := s.mapTiles (fun t =>
        let b := t.stores.bars
        { t with stores := { t.stores with
            chans := t.stores.chans.filter (fun e => e.kernel ≠ kernel),
            handlers := t.stores.handlers.filter (fun h => h.kernel ≠ kernel),
            bars := { kernels := b.kernels.filter (· ≠ kernel), homes := b.homes.filter (fun h => h.kernel ≠ kernel),
                      mirrors := b.mirrors.filter (fun m => m.kernel ≠ kernel), views := b.views.filter (fun v => v.kernel ≠ kernel),
                      requests := b.requests.filter (fun r => r.kernel ≠ kernel) } } })
      let s := s.modQueue q (fun x => { x with lastDone := kernel, due := x.due.map (fun d =>
        if d.seq = kernel then { d with entry := some k.entry, readyAt := s.now, sig := recSig k.record } else d) })
      .next ((s.writeEntry q).settleFlush q)

/-! ### Dispatch (R318, R320, R321, R371) -/

/-- The condition address of a record. -/
def recCond (r : BitVec 512) : BitVec 80 := (recWord r 4).extractLsb' 16 16 ++ (r.extractLsb' 64 64 : BitVec 64)

/-- Whether a record is malformed by itself (R318). -/
def recMalformed (r : BitVec 512) : Bool :=
  let w0 := (recWord r 0).toNat
  let w4 := recWord r 4
  let w7 := (recWord r 7).toNat
  w0 % 256 != 0 || w0.testBit 12 || w0.testBit 13 || recWord r 1 != 0 || fieldNat w4 15 4 != 0
    || w7 % 256 != 0 || w7.testBit 14 || w7.testBit 22 || w7.testBit 30
    || decide (6 ≤ fieldNat w4 2 0) || decide (2 ≤ fieldNat (recWord r 0) 9 8)
    || (w4.toNat.testBit 3 && !([0, 1, 8].contains (gaSpace (recCond r)) && (recCond r).toNat % 4 == 0))

/-- Whether the group levels of a record over an image break R371. -/
def levelsBad (i : Image) (r : BitVec 512) : Bool :=
  let ls := [2, 3, 4, 5].map (i.level r)
  let declared := ls.filter (fun l => l.1 != 0 && l.2 != 0)
  ls.any (fun l => (l.1 == 0) != (l.2 == 0)) || ls.any (fun l => decide (180 < l.1) || decide (168 < l.2))
    || (declared.zip declared.tail).any (fun p => p.2.1 % p.1.1 != 0 || p.2.2 % p.1.2 != 0)

/-- Why a record is refused at the head: status 6 MALFORMED or 7 IMAGE_FAIL; none where it can start (R318, R350, R371). -/
def Wafer.refusal (w : Wafer) (r : Queued) : Option Nat :=
  if r.hostBad ∨ recMalformed r.record then some 6
  else
    match w.image? (recImage r.record) with
    | none => some 7
    | some i => if w.gridH < i.gridH then some 7 else if levelsBad i r.record then some 6 else none

/-- Whether the conditions of R320 hold for the head of a queue; banks says whether the fourth is applied. -/
def State.canDispatch (s : State) (q : QueueId) (r : Queued) (banks : Bool) : Bool :=
  let ws := recWaits r.record
  let x := s.queue q
  decide ((s.wafer.runningOf q).length ≤ 1)
    && ws.all (fun n => decide (ws.count n ≤ (s.wafer.ls[n.toFin]).toNat))
    && decide ((x.ctail - x.chead).toNat + 3 ≤ 256)
    && (!banks || (match s.wafer.image? (recImage r.record) with
      | some i => i.placed.all (fun c => decide (((s.tileAt c).kernels.filter TileKernel.holdsBanks).length ≤ 1))
      | none => true))

/-- The head leaves its queue; its waits are decremented. -/
def State.takeHead (s : State) (q : QueueId) (r : Queued) : State :=
  let s := (s.keepStat q).modQueue q (fun x => { x with recs := x.recs.tail, cond := none, dispatchedAt := some s.now })
  (recWaits r.record).foldl (fun s n => s.modWafer (fun w =>
    { w with ls := w.ls.set n.toNat (w.ls[n.toFin] - 1) (show n.toNat < 64 from n.isLt) })) s

/-- The record of a queue's head starts its kernel (R322, R360); a gang slice waits for its GANG value (R375). -/
def State.startKernel (s : State) (q : QueueId) (r : Queued) (i : Image) : State :=
  let gang := recGang r.record
  let order := s.wafer.nextOrder
  let size (f : Nat × Nat → Nat) : Vector Nat 4 := Vector.ofFn (fun n => f (i.level r.record (n.val + 2)))
  let k : Kernel :=
    { seq := r.seq, queue := q.val, image := i.handle, record := r.record, asid := (s.queue q).asid, secure := i.secure, order := order,
      widths := size (·.1), heights := size (·.2), group := if gang = 0 then .bound else .gangWait, gangGrace := s.wafer.host.gangGrace }
  let s := s.modWafer (fun w => { w with kernels := w.kernels ++ [k], nextOrder := order + 1 })
  let s := s.modQueue q (fun x => { x with due := x.due ++ [{ seq := r.seq }] })
  let wafer := s.wafer.links.wafer.toNat
  let s := i.placed.foldl (fun s c => (s.modTileAt c (fun t => t.claim r.seq order i wafer)).farBegin c r.seq) s
  if i.placed.isEmpty then
    (s.modWafer (fun w => w.modKernel r.seq (fun x => { x with endCycle := w.cycle }))).timer (s.now + 1) (.kernelComplete r.seq)
  else if gang = 0 then
    i.placed.foldl (fun s c => match s.freeDelay with | (d, s) => s.timer (s.now + d) (.contextLaunchStart c r.seq)) s
  else s

/-- The head of a queue is dispatched and starts, or completes where its image has gone meanwhile. -/
def State.runHead (s : State) (q : QueueId) (r : Queued) : State :=
  let s := s.takeHead q r
  match s.wafer.image? (recImage r.record) with
  | some i => s.startKernel q r i
  | none => s.finishRecord q r 7 0

/-- Whether a condition address fails when its read is issued (R321): X, Y or offset beyond their space. -/
def State.condRange (s : State) (a : BitVec 80) : Bool :=
  let sp := gaSpace a
  let size := if sp = 0 then 0x200000 else 0x40000
  if sp = 8 then decide (2 ^ 57 ≤ gaVa a)
  else decide (180 ≤ gaX a) || (s.ownWafer a && decide (s.wafer.gridH ≤ gaY a)) || decide (size < gaOff a + 4)
    || fieldNat a 59 48 != 0 || fieldNat a 31 24 != 0

/-- What a condition read finds at its location: its word, or none where it fails for a reason of Table 6-7. On another wafer the word, and whether it fails there, are free; the
word is free where it has an uncorrectable error. -/
def State.condWord (s : State) (q : QueueId) (a : BitVec 80) (c : CondRead) : Option (BitVec 32) × State :=
  let sec := (s.queue q).sec
  let sp := gaSpace a
  if c.failed then (none, s)
  else if !s.ownWafer a then
    match s.wafer.portTo (gaWafer a) with
    | none => (none, s)
    | some p =>
      if (s.port p).regs.sec && !sec then (none, s)
      else match s.freeVal 33 with | (v, s) => (if v.getLsbD 32 then none else some (v.setWidth 32), s)
  else if sp = 8 then
    match c.pa with
    | none => (none, s)
    | some pa =>
      if s.wafer.ext.badIn 32 pa 4 then (none, s.poisonLeaf (s.queue q).asid sec (gaVa a) pa)
      else (some (BitVec.ofNat 32 (s.wafer.ext.readNat pa 4)), s)
  else
    let t := s.tileAt (gaTile a)
    let m : Space := if sp = 0 then .spad else .acc
    if t.life.st = .retired ∨ t.life.st = .spare ∨ (!sec ∧ t.life.secure) ∨ (sp = 0 ∧ 0x1F0000 < gaOff a + 4) then (none, s)
    else if t.readBad m (gaOff a) 4 then match s.freeVal 32 with | (v, s) => (some v, s)
    else (some (BitVec.ofNat 32 (t.read m (gaOff a) 4)), s)

/-- Whether a condition holds (Table 13-2). -/
def condHolds (r : BitVec 512) (word : BitVec 32) : Bool :=
  let x := word &&& recWord r 6
  let v := recWord r 5
  match fieldNat (recWord r 4) 2 0 with
  | 0 => x == v | 1 => x != v | 2 => x.ult v | 3 => !x.ult v | 4 => x.slt v | _ => !x.slt v

/-- The condition read of a queue's head is performed in this cycle (R321, Table 14-7). A queue that is no longer OPEN dispatches nothing (R329). -/
def State.condPerformed (s : State) (q : QueueId) : State :=
  match (s.queue q).recs, (s.queue q).cond with
  | r :: _, some c =>
    if (s.queue q).st = .flushing then
      let s := (s.keepStat q).modQueue q (fun x => { x with recs := x.recs.tail, cond := none })
      (s.finishRecord q r 2 0).settleFlush q
    else if (s.queue q).st ≠ .opened ∨ !s.canDispatch q r true then s.modQueue q (fun x => { x with cond := none })
    else
      match s.condWord q (recCond r.record) c with
      | (none, s) => (s.takeHead q r).finishRecord q r 4 0x67
      | (some w, s) => if condHolds r.record w then s.runHead q r else (s.takeHead q r).finishRecord q r 1 0
  | _, _ => s

/-- CONDITION_READ_PERFORMED (R321): a tile that refuses arrivals is asked again. -/
def execConditionReadPerformed (q : QueueId) (s : State) : Result :=
  match (s.queue q).recs, (s.queue q).cond with
  | r :: _, some c =>
    let a := recCond r.record
    if c.walk.isSome ∨ s.now < c.due then .next s
    else if !c.failed ∧ gaSpace a ≠ 8 ∧ s.ownWafer a ∧ s.wafer.refuses (gaTile a) then
      .next ((s.modQueue q (fun x => { x with cond := some { c with due := s.now + 1 } })).timer (s.now + 1) (.conditionReadPerformed q))
    else .next (s.condPerformed q)
  | _, _ => .next s

/-- The condition read of a head is issued. -/
def State.issueCond (s : State) (q : QueueId) (a : BitVec 80) : State :=
  if s.condRange a then (s.modQueue q (fun x => { x with cond := some { due := s.now, failed := true } })).condPerformed q
  else
    match s.freeDelay with
    | (d, s) =>
      if gaSpace a = 8 ∧ s.ownWafer a then
        let n := s.wafer.nextMsg
        let w : Walk :=
          { serial := n, due := s.now + d, who := .cond q, va := a, asid := (s.queue q).asid, secWorld := (s.queue q).sec,
            write := false, src := ⟨0, 0⟩ }
        let s := s.modWafer (fun x => { x with walks := x.walks ++ [w], nextMsg := n + 1 })
        (s.modQueue q (fun x => { x with cond := some { due := s.now + d, walk := some n } })).timer (s.now + d) (.pageWalk n)
      else (s.modQueue q (fun x => { x with cond := some { due := s.now + d } })).timer (s.now + d) (.conditionReadPerformed q)

/-- DISPATCH (R320, R321): the head of an OPEN queue, once in a cycle. A refused record completes; a conditional one issues its
read; another starts. -/
def execDispatch (q : QueueId) (s : State) : Result :=
  let x := s.queue q
  match x.recs with
  | [] => .next s
  | r :: _ =>
    if x.st ≠ .opened ∨ x.cond.isSome ∨ x.dispatchedAt = some s.now then .next s
    else
      match s.wafer.refusal r with
      | some status => if s.canDispatch q r false then .next ((s.takeHead q r).finishRecord q r status 0) else .next s
      | none =>
        if !s.canDispatch q r true then .next s
        else if (recWord r.record 4).toNat.testBit 3 then .next ((s.keepStat q).issueCond q (recCond r.record))
        else .next (s.runHead q r)

/-! ### Page walks, by who asked (R421, R423, R429) -/

/-- The walk of a condition read is made; the word is read after a free time. A walk that finds no page fails the read, which is then performed
in this cycle. An uncorrectable entry is recorded in HSTAT, since no kernel runs yet: DESIGN CHOICE, unsafe, log 167. -/
def State.condWalk (s : State) (w : Walk) (q : QueueId) : State :=
  match (s.queue q).cond with
  | none => s
  | some c =>
    if c.walk ≠ some w.serial then s
    else
      let va := gaVa w.va
      let e := s.wafer.walk w.asid w.secWorld va
      let s := s.markWalk e va w.asid w.secWorld w.src
      match walkReason e w.secWorld false, e, s.freeDelay with
      | none, .leaf sh _ pa _ _ _, (d, s) =>
        (s.modQueue q (fun x => { x with cond := some { due := s.now + d, pa := some (pa + va % 2 ^ sh), va := va, shift := sh } })).timer
          (s.now + d) (.conditionReadPerformed q)
      | _, _, (_, s) =>
        let s := if e = .bad then s.hostEvent 0x86 else s
        (s.modQueue q (fun x => { x with cond := some { due := s.now, failed := true } })).timer s.now (.conditionReadPerformed q)

/-- PAGE_WALK (R424). The walk of a page instruction of a tile that refuses arrivals waits for its resume (R440). -/
def execPageWalk (n : Nat) (s0 : State) : Result :=
  match s0.wafer.walks.find? (fun w => w.serial == n && decide (w.due ≤ s0.now)) with
  | none => .next s0
  | some w =>
    let probes : Bool := match w.who with | .probe .. => true | _ => false
    if probes ∧ s0.wafer.refuses w.src then .next (s0.timer (s0.now + 1) (.pageWalk n))
    else
    let s := s0.modWafer (fun x => { x with walks := x.walks.filter (fun y => y.serial ≠ n) })
    match w.who with
    | .op src serial => .next (s.opWalk w src serial)
    | .probe src tag touch _ => .next (s.probeWalk w src tag touch)
    | .cond q => .next (s.condWalk w q)

/-! ### The host's commands (R329 to R331) -/

/-- A write of LQCTL sets its fields beside the command (Table 13-5). -/
def LaunchQueue.control (x : LaunchQueue) (value : BitVec 32) : LaunchQueue :=
  { x with devApp := value.toNat.testBit 29, sec := value.toNat.testBit 28, asid := fieldNat value 27 16 }

/-- LQ_OPEN (R329). -/
def execLqOpen (q : QueueId) (value : BitVec 32) (secureFn : Bool) (s : State) : Result :=
  s.hostWrites (0x40 * q.val) fun s =>
  if s.queueDenied q secureFn then .next (s.hostEvent 0x96)
  else .next (s.modQueue q (fun x =>
    { x.control value with st := match x.st with | .disabled => .opened | .stopped => .opened | st => st }))

/-- LQ_STOP (R329). -/
def execLqStop (q : QueueId) (value : BitVec 32) (secureFn : Bool) (s : State) : Result :=
  s.hostWrites (0x40 * q.val) fun s =>
  if s.queueDenied q secureFn then .next (s.hostEvent 0x96)
  else .next (s.modQueue q (fun x => { x.control value with st := if x.st = .opened then .stopped else x.st }))

/-- LQ_FLUSH (R329): queued records complete CANCELLED, one whose condition is being read when that read is performed; running kernels
are aborted. -/
def execLqFlush (q : QueueId) (value : BitVec 32) (secureFn : Bool) (s : State) : Result :=
  s.hostWrites (0x40 * q.val) fun s =>
  if s.queueDenied q secureFn then .next (s.hostEvent 0x96)
  else
    let x := s.queue q
    if x.st ≠ .opened ∧ x.st ≠ .stopped then .next (s.modQueue q (fun x => x.control value))
    else
      let kept := if x.cond.isSome then x.recs.take 1 else []
      let gone := if x.cond.isSome then x.recs.drop 1 else x.recs
      let s := if x.recs.isEmpty then s else s.hostEvent 0x95
      let s := s.modQueue q (fun x => { x.control value with st := .flushing, recs := kept })
      let s := gone.foldl (fun s r => s.finishRecord q r 2 0) s
      let s := ((s.wafer.runningOf q).filter (fun k => k.st == .running)).foldl (fun s k => s.abortKernel k.seq 0x90 k.group.stopped false) s
      .next (s.settleFlush q)

/-- A record appended at the tail of a queue with the next kernel sequence number (R322). -/
def State.append (s : State) (q : QueueId) (r : BitVec 512) (by' : Option Nat) (bad : Bool) : State :=
  let seq := s.wafer.nextSeq
  let s := s.modWafer (fun w => { w with nextSeq := seq + 1 })
  s.modQueue q (fun x => { x with tail := x.tail + 1,
                                  recs := x.recs ++ [{ seq := seq, record := r, byKernel := by', hostBad := bad, idx := x.tail }] })

/-- LQTAIL_WRITE (R322, R329, R330): the records from the old tail up to the new one are appended in ring order. -/
def execLqtailWrite (q : QueueId) (value : BitVec 8) (secureFn : Bool) (s : State) : Result :=
  s.hostWrites (0x40 * q.val + 8) fun s =>
  let x := s.queue q
  if s.queueDenied q secureFn then .next (s.hostEvent 0x96)
  else if x.st = .disabled ∨ x.st = .flushing then .next (s.hostEvent 0x95)
  else if 255 < (x.tail - x.head).toNat + (value - x.tail).toNat then .next (s.hostEvent 0x93)
  else
    .next ((List.range (value - x.tail).toNat).foldl (fun s k =>
      let slot := (x.tail + BitVec.ofNat 8 k).toNat
      let bad := x.ringBad.contains slot
      (if bad then s.hostEvent 0x92 else s).append q ((assocGet x.ring slot).getD 0) none bad) s)

/-- HSTAT_READ (R330): the read returns HSTAT and clears it. -/
def execHstatRead (s : State) : Result :=
  let h := s.wafer.host
  let v : BitVec 64 := BitVec.ofNat 64 (h.hstatCount * 2 ^ 16 + bnat h.hstatLsovf * 2 ^ 15 + h.hstatLast.toNat)
  .next (s.modWafer (fun w => { w with host := { h with hstatCount := 0, hstatLsovf := false, hstatLast := 0, readOut := v } }))

/-- HOST_LINK_DOWN (R331). -/
def execHostLinkDown (_link : Fin 4) (s : State) : Result := .next (s.hostEvent 0x91)
/-- HOST_TIMEOUT (R331). -/
def execHostTimeout (s : State) : Result := .next (s.hostEvent 0x93)

/-! ### Instructions (R338 to R342) -/

/-- The access checks of LAUNCH and QCANCEL (R339, R342). -/
def State.queueShut (s : State) (q : QueueId) : Bool :=
  let x := s.queue q
  (x.st != .opened && x.st != .stopped) || !x.devApp || x.sec != s.ctx.life.secure

/-- LAUNCH (R339, R513): the record is read at issue, once every earlier access is performed at wafer scope. -/
def execLaunch (p : BitVec 2) (d a : BitVec 5) (q : BitVec 4) (s : State) : Result :=
  let rec' (s : State) : BitVec 512 := BitVec.ofNat 512 (s.tile.read .spad (s.g a).toNat 64)
  let q' : QueueId := q.toFin
  .next (SlotOp.run
    { slot := 0, pred := p, reads := [.g a], gated := true, consumes := fun s => s.anyPoison [.g a],
      waits := fun s => (if s.anyPoison [.g a] then [] else localWaits .spad (s.g a).toNat 64 false) ++ [.performed 6 false],
      checks := fun s =>
        match s.blockCheck (s.g a).toNat 64 64 with
        | some c => some c
        | none => if s.queueShut q' || recMalformed (rec' s) then some 0x66 else if (s.queue q').full then some 0x65 else none,
      watch := fun s => if s.anyPoison [.g a] then none else some (1, 1, (s.g a).toNat, 64),
      plan := fun s => s.planBlock (s.g a).toNat 64,
      act := fun s =>
        let r := rec' s
        let seq := s.wafer.nextSeq
        let by' := s.ctx.life.kernel
        let s := (s.useBanks .spad (s.g a).toNat 64 1).modTile (fun t => t.countCorrected .spad (s.g a).toNat 64)
        ((s.keepStat q').append q' r (some by') false).resultG 0 (.n 1) d (BitVec.ofNat 32 seq) false } s)

/-- QSTAT (R340): LQSTAT as at the start of the cycle; a non-secure context reads 0 of a secure queue. -/
def execQstat (p : BitVec 2) (d : BitVec 5) (q : BitVec 4) (s : State) : Result :=
  let q' : QueueId := q.toFin
  .next (SlotOp.run
    { slot := 0, pred := p,
      act := fun s =>
        let v := match (s.queue q').was with | some (n, w) => if n = s.now then w else s.wafer.lqstat q' | none => s.wafer.lqstat q'
        s.resultG 0 (.n 1) d (if (s.queue q').sec && !s.ctx.life.secure then 0 else v) false } s)

/-- QSTAT.ls (R340). -/
def execQstatLs (p : BitVec 2) (d : BitVec 5) (n : BitVec 6) (s : State) : Result :=
  .next (SlotOp.run
    { slot := 0, pred := p, act := fun s => s.resultG 0 (.n 1) d ((s.wafer.ls[n.toFin]).setWidth 32) false } s)

/-- QPRIO (R341): the entries still queued at the end of the cycle change, and gd takes their number. -/
def execQprio (p : BitVec 2) (d : BitVec 5) (e n : BitVec 2) (s : State) : Result :=
  .next (SlotOp.run { slot := 0, pred := p, act := fun s => s.atEnd (.reprio s.tag e n d s.ctx.serial) } s)

/-- The end of a QPRIO's cycle: how many entries of the tag changed, and the tile after it. -/
def Tile.reprio (t : Tile) (k : Tag) (e n : BitVec 2) : Nat × Tile :=
  let blk (q : List BlockCmd) : List BlockCmd := q.map (fun c => if c.tag = k then { c with pr := n } else c)
  match e.toNat with
  | 0 => ((t.mx.queue.filter (·.tag == k)).length,
      { t with mx := { t.mx with queue := t.mx.queue.map (fun c => if c.tag = k then { c with pr := n } else c) } })
  | 1 => ((t.row.queue.filter (·.tag == k)).length, { t with row := { t.row with queue := blk t.row.queue } })
  | 2 => ((t.cpy.queue.filter (·.tag == k)).length, { t with cpy := { t.cpy with queue := blk t.cpy.queue } })
  | _ =>
    let mine (o : RemoteOp) : Bool := o.tag == k && !o.injected && o.kind != .barrier
    ((t.netq.filter mine).length, { t with netq := t.netq.map (fun o => if mine o then { o with pr := n } else o) })

/-- QCANCEL (R342): the records that contexts of the kernel launched and that are not dispatched complete CANCELLED. -/
def execQcancel (p : BitVec 2) (d : BitVec 5) (q : BitVec 4) (s : State) : Result :=
  let q' : QueueId := q.toFin
  .next (SlotOp.run
    { slot := 0, pred := p, checks := fun s => if s.queueShut q' then some 0x66 else none,
      act := fun s =>
        let k := s.ctx.life.kernel
        let reading := if (s.queue q').cond.isSome then ((s.queue q').recs.take 1).map (·.seq) else []
        let mine (r : Queued) : Bool := r.byKernel == some k && !reading.contains r.seq
        let gone := (s.queue q').recs.filter mine
        let s := (s.keepStat q').modQueue q' (fun x => { x with recs := x.recs.filter (fun r => !mine r) })
        (gone.foldl (fun s r => s.finishRecord q' r 2 0) s).resultG 0 (.n 1) d (BitVec.ofNat 32 gone.length) false } s)

end Sys2Proof.Machine
end

