-- ==== Sys2Proof/Machine/Crypto.lean ====
section
/-! DEFINITION. The signature check of R345: SHA-384 and ECDSA on P-384, as the standards that the spec names define them
(FIPS 180-4 and FIPS 186-4). -/

namespace Sys2Proof.Machine

/-! ### SHA-384 -/

/-- The largest k-bit-built number whose power e is at most n. -/
def rootBits (e n : Nat) : Nat → Nat → Nat
  | 0, r => r
  | k + 1, r => rootBits e n k (if (r + 2 ^ k) ^ e ≤ n then r + 2 ^ k else r)

/-- The first 80 primes. -/
def primes80 : List Nat :=
  [2, 3, 5, 7, 11, 13, 17, 19, 23, 29, 31, 37, 41, 43, 47, 53, 59, 61, 67, 71, 73, 79, 83, 89, 97, 101, 103, 107, 109, 113]
  ++ [127, 131, 137, 139, 149, 151, 157, 163, 167, 173, 179, 181, 191, 193, 197, 199, 211, 223, 227, 229, 233, 239, 241, 251]
  ++ [257, 263, 269, 271, 277, 281, 283, 293, 307, 311, 313, 317, 331, 337, 347, 349, 353, 359, 367, 373, 379, 383, 389, 397, 401, 409]

/-- The round constants: the first 64 fraction bits of the cube roots of the primes. -/
def shaK : List (BitVec 64) := primes80.map (fun p => BitVec.ofNat 64 (rootBits 3 (p * 2 ^ 192) 72 0))

/-- The initial value: the first 64 fraction bits of the square roots of the ninth to the sixteenth prime. -/
def shaInit : List (BitVec 64) := ((primes80.drop 8).take 8).map (fun p => BitVec.ofNat 64 (rootBits 2 (p * 2 ^ 128) 72 0))

/-- One more word of the message schedule; the newest of the words so far stands first. -/
def shaNext (w : List (BitVec 64)) : BitVec 64 :=
  let x (k : Nat) : BitVec 64 := w.getD (k - 1) 0
  let s0 (v : BitVec 64) : BitVec 64 := v.rotateRight 1 ^^^ v.rotateRight 8 ^^^ (v >>> 7)
  let s1 (v : BitVec 64) : BitVec 64 := v.rotateRight 19 ^^^ v.rotateRight 61 ^^^ (v >>> 6)
  s1 (x 2) + x 7 + s0 (x 15) + x 16

/-- The message schedule grown by n words. -/
def shaSchedule : Nat → List (BitVec 64) → List (BitVec 64)
  | 0, w => w
  | n + 1, w => shaSchedule n (shaNext w :: w)

/-- One round on the eight working variables. -/
def shaRound (v : List (BitVec 64)) (kw : BitVec 64 × BitVec 64) : List (BitVec 64) :=
  match v with
  | [a, b, c, d, e, f, g, h] =>
    let t1 := h + (e.rotateRight 14 ^^^ e.rotateRight 18 ^^^ e.rotateRight 41) + ((e &&& f) ^^^ (~~~e &&& g)) + kw.1 + kw.2
    let t2 := (a.rotateRight 28 ^^^ a.rotateRight 34 ^^^ a.rotateRight 39) + ((a &&& b) ^^^ (a &&& c) ^^^ (b &&& c))
    [t1 + t2, a, b, c, d + t1, e, f, g]
  | v => v

/-- A number from bytes, most significant first. -/
def beNat (l : List Byte) : Nat := l.foldl (fun n b => n * 256 + b.toNat) 0

/-- The blocks of a message hashed, 128 bytes each; fuel bounds their number. -/
def shaBlocks : Nat → List Byte → List (BitVec 64) → List (BitVec 64)
  | 0, _, h => h
  | _, [], h => h
  | n + 1, m, h =>
    let words := (List.range 16).map (fun k => BitVec.ofNat 64 (beNat ((m.drop (8 * k)).take 8)))
    let w := (shaSchedule 64 words.reverse).reverse
    shaBlocks n (m.drop 128) ((h.zip ((shaK.zip w).foldl shaRound h)).map (fun p => p.1 + p.2))

/-- SHA-384 of a message, as a number. -/
def sha384 (m : List Byte) : Nat :=
  let pad := (239 - m.length % 128) % 128
  let bits := 8 * m.length
  let tail := (List.range 16).map (fun k => BitVec.ofNat 8 (bits / 256 ^ (15 - k)))
  let all := m ++ [0x80] ++ List.replicate pad 0 ++ tail
  ((shaBlocks (all.length / 128) all shaInit).take 6).foldl (fun n x => n * 2 ^ 64 + x.toNat) 0

/-! ### P-384 -/

def p384P : Nat := 2 ^ 384 - 2 ^ 128 - 2 ^ 96 + 2 ^ 32 - 1
def p384N : Nat := 0xFFFFFFFFFFFFFFFFFFFFFFFFFFFFFFFFFFFFFFFFFFFFFFFFC7634D81F4372DDF581A0DB248B0A77AECEC196ACCC52973
def p384B : Nat := 0xB3312FA7E23EE7E4988E056BE3F82D19181D9C6EFE8141120314088F5013875AC656398D8A2ED19D2A85C8EDD3EC2AEF
def p384Gx : Nat := 0xAA87CA22BE8B05378EB1C71EF320AD746E1D3B628BA79B9859F741E082542A385502F25DBF55296C3A545E3872760AB7
def p384Gy : Nat := 0x3617DE4A96262C6F5D9E98BF9292DC29F8F41DBD289A147CE9DA3113B5F0B8C00A60B1CE1D7E819D7A431D7C90EA0E5F

/-- b to the power e mod m, for an exponent of at most k bits. -/
def powMod (b e m : Nat) : Nat → Nat
  | 0 => 1 % m
  | k + 1 => let h := powMod b (e / 2) m k; if e % 2 = 1 then h * h % m * b % m else h * h % m

/-- The inverse modulo a prime of at most 384 bits. -/
def invMod (a m : Nat) : Nat := powMod (a % m) (m - 2) m 384

/-- A point of the curve: affine, or none for the point at infinity. -/
abbrev CurvePoint := Option (Nat × Nat)

/-- The sum of two points. -/
def CurvePoint.sum (a b : CurvePoint) : CurvePoint :=
  match a, b with
  | none, b => b
  | a, none => a
  | some (x1, y1), some (x2, y2) =>
    let p := p384P
    let line (num den : Nat) : CurvePoint :=
      let l := num % p * invMod den p % p
      let x := (l * l + 2 * p - x1 - x2) % p
      some (x, (l * ((x1 + p - x) % p) + p - y1) % p)
    if x1 = x2 then (if (y1 + y2) % p = 0 then none else line (3 * x1 * x1 + p - 3) (2 * y1)) else line (y2 + p - y1) (x2 + p - x1)

/-- A multiple of a point, by a number of at most k bits. -/
def CurvePoint.times (a : CurvePoint) (n : Nat) : Nat → CurvePoint
  | 0 => none
  | k + 1 =>
    let h := CurvePoint.times a (n / 2) k
    let d := CurvePoint.sum h h
    if n % 2 = 1 then CurvePoint.sum d a else d

/-- Whether (r, s) is a signature of a digest under the public key (x, y). -/
def ecdsaOk (x y digest r s : Nat) : Bool :=
  let n := p384N
  let on := decide (x < p384P) && decide (y < p384P) && (y * y) % p384P == (x * x * x + (p384P - 3) * x + p384B) % p384P
  let w := invMod s n
  let q := CurvePoint.sum (CurvePoint.times (some (p384Gx, p384Gy)) (digest * w % n) 384) (CurvePoint.times (some (x, y)) (r * w % n) 384)
  on && decide (0 < r) && decide (r < n) && decide (0 < s) && decide (s < n)
    && (match q with | some (u, _) => u % n == r | none => false)

end Sys2Proof.Machine
end

