-- ==== Sys2Proof/Machine/Load.lean ====
section
/-! DEFINITION. Images: the file (R343, R345), the checks of a load (R347, Table 14-5), loading and unloading. -/

namespace Sys2Proof.Machine

/-! ### The file (R343) -/

/-- A number from bytes, least significant first. -/
def leNat (l : List Byte) : Nat := l.foldr (fun b n => n * 256 + b.toNat) 0

/-- The n bytes at offset a of a file as a number. -/
def fileNat (f : List Byte) (a n : Nat) : Nat := leNat ((f.drop a).take n)

/-- A section of a file: its type, offset and size. -/
structure Section where
  ty : Nat
  off : Nat
  size : Nat
  deriving DecidableEq, Repr

/-- The entries of the section table. -/
def fileSections (f : List Byte) : List Section :=
  (List.range (fileNat f 5 1)).map (fun k =>
    { ty := fileNat f (32 + 16 * k) 4, off := fileNat f (36 + 16 * k) 4, size := fileNat f (40 + 16 * k) 4 })

/-- Word k of a section. -/
def Section.word (x : Section) (f : List Byte) (k : Nat) : Nat := fileNat f (x.off + 4 * k) 4

/-- The section of a type, if the file has one. -/
def findSection (f : List Byte) (ty : Nat) : Option Section := (fileSections f).find? (fun x => x.ty == ty)

/-- The records of n words of a section from word k0 on. -/
def Section.records (x : Section) (f : List Byte) (n count : Nat) : List (List Nat) :=
  (List.range count).map (fun r => (List.range n).map (fun k => x.word f (n * r + k)))

/-- Bits hi to lo of a number. -/
def bitsOf (n hi lo : Nat) : Nat := n / 2 ^ lo % 2 ^ (hi + 1 - lo)

/-- Whether the header and the section table keep R343. -/
def headerOk (f : List Byte) : Bool :=
  let ss := fileSections f
  let w2 := fileNat f 8 4
  let nsec := fileNat f 5 1
  let next := 32 + 16 * nsec
  decide (32 ≤ f.length) && decide (f.length ≤ 0x4000000) && fileNat f 0 4 == 0x32494B53 && fileNat f 6 2 == 1 && fileNat f 4 1 == 0
  && decide (3 ≤ nsec) && decide (nsec ≤ 11) && decide (next ≤ f.length)
  && bitsOf w2 31 24 != 0 && bitsOf w2 23 16 != 0 && bitsOf w2 10 0 == 0 && fileNat f 24 8 == 0
  && (List.range nsec).all (fun k => fileNat f (44 + 16 * k) 4 == 0)
  && ss.all (fun x => [1, 2, 3, 4, 5, 6, 7, 8, 9, 14, 15].contains x.ty && x.off % 16 == 0 && decide (next ≤ x.off)
      && decide (x.off + x.size ≤ f.length))
  && (ss.zip ss.tail).all (fun p => decide (p.1.ty < p.2.ty) && decide (p.1.off + p.1.size ≤ p.2.off))
  && ss.all (fun x => ss.all (fun y => decide (x.ty = y.ty) || decide (x.off + x.size ≤ y.off) || decide (y.off + y.size ≤ x.off)))
  && [1, 3, 15].all (fun t => ss.any (fun x => x.ty == t))
  && (match findSection f 15 with | some x => x.size == 112 && x.off + x.size == f.length | none => false)

/-- Whether the signature of a file passes (R345). keys are the image-signing keys by slot. -/
def signatureOk (f : List Byte) (keys : List (Nat × BitVec 768)) : Bool :=
  let n := f.length - 112
  let sig := f.drop n
  decide (112 ≤ f.length) && fileNat sig 1 15 == 0
  && (match assocGet keys (fileNat sig 0 1) with
      | some k => decide (fileNat sig 0 1 < 8)
          && ecdsaOk (fieldNat k 767 384) (fieldNat k 383 0) (sha384 (f.take n)) (beNat ((sig.drop 16).take 48)) (beNat ((sig.drop 64).take 48))
      | none => false)

/-! ### Records (Tables 14-3, 15-2, 16-1, 17-1) -/

/-- The bundles of a program record. -/
def readBundles (f : List Byte) (a : Nat) : Nat → List (BitVec 128)
  | 0 => []
  | n + 1 => BitVec.ofNat 128 (fileNat f a 16) :: readBundles f (a + 16) n

/-- The tile programs of a file, without ranges and segments; none where a record is wrong. -/
def readPrograms (f : List Byte) : Option (List Program) :=
  match findSection f 1 with
  | none => none
  | some x =>
    let nprog := fileNat f 14 2
    let w2 := fileNat f 8 4
    let rs := x.records f 4 nprog
    let ok (r : List Nat) : Bool :=
      let w0 := r.getD 0 0
      let off := r.getD 1 0
      let count := r.getD 2 0
      let v := r.getD 3 0
      decide (bitsOf w0 31 24 ≤ bitsOf w0 15 8) && decide (bitsOf w0 23 16 ≤ bitsOf w0 7 0)
        && decide (bitsOf w0 15 8 < bitsOf w2 31 24) && decide (bitsOf w0 7 0 < bitsOf w2 23 16)
        && off % 16 == 0 && decide (16 * nprog ≤ off) && decide (1 ≤ count) && decide (count ≤ 16384)
        && decide (off + 16 * count ≤ x.size) && (v == 0xFFFFFFFF || decide (v < count))
    if decide (16 * nprog ≤ x.size) && rs.all ok then
      some (rs.map (fun r =>
        let w0 := r.getD 0 0
        { xa := bitsOf w0 31 24, ya := bitsOf w0 23 16, xb := bitsOf w0 15 8, yb := bitsOf w0 7 0,
          bundles := readBundles f (x.off + r.getD 1 0) (r.getD 2 0),
          vector := if r.getD 3 0 = 0xFFFFFFFF then none else some (r.getD 3 0) }))
    else none

/-- Whether two programs share a tile. -/
def Program.meets (a b : Program) : Bool :=
  decide (a.xa ≤ b.xb) && decide (b.xa ≤ a.xb) && decide (a.ya ≤ b.yb) && decide (b.ya ≤ a.yb)

/-- Whether no two elements of a list stand in a relation. -/
def noPair {α : Type} (r : α → α → Bool) : List α → Bool
  | [] => true
  | x :: xs => xs.all (fun y => !r x y) && noPair r xs

/-- Whether records with a program index stand grouped by program. -/
def grouped : List Nat → Bool
  | [] => true
  | x :: xs => match xs with
    | [] => true
    | y :: _ => (x == y || !xs.contains x) && grouped xs

/-- The channels of an image from its records: both ends of a same-wafer channel stand in equal records, which are one channel. -/
def readChannels (rs : List (List Nat)) : List ChannelDecl :=
  rs.foldl (fun l r =>
    let w0 := r.getD 0 0
    let w1 := r.getD 1 0
    let w2 := r.getD 2 0
    let d : ChannelDecl :=
      { n := bitsOf w1 31 20, sx := bitsOf w0 31 24, sy := bitsOf w0 23 16, rx := bitsOf w0 15 8, ry := bitsOf w0 7 0,
        win := bitsOf w1 8 0, sw := bitsOf w2 31 16, rw' := bitsOf w2 15 0 }
    if l.contains d then l else l ++ [d]) []

/-- Whether the CHANNELS records keep R401: a record of a far channel names the end on this wafer, and no other record of its number names that end. -/
def channelsOk (i : Image) (rs : List (List Nat)) : Bool :=
  rs.all (fun r =>
    let w0 := r.getD 0 0
    let w1 := r.getD 1 0
    let win := bitsOf w1 8 0
    let far := bitsOf (r.getD 2 0) 31 16 != 0xFFFF || bitsOf (r.getD 2 0) 15 0 != 0xFFFF
    let same := rs.filter (fun q => bitsOf (q.getD 1 0) 31 20 == bitsOf w1 31 20)
    decide (bitsOf w0 31 24 < 180) && decide (bitsOf w0 23 16 < 168) && decide (bitsOf w0 15 8 < 180) && decide (bitsOf w0 7 0 < 168)
      && bitsOf w1 19 9 == 0 && r.getD 3 0 == 0 && win % 4 == 0 && decide (4 ≤ win) && decide (win ≤ 256)
      && (if far then (bitsOf (r.getD 2 0) 31 16 == 0xFFFF || bitsOf (r.getD 2 0) 15 0 == 0xFFFF)
            && (same.filter (fun q => (bitsOf (r.getD 2 0) 31 16 == 0xFFFF && bitsOf (q.getD 2 0) 31 16 == 0xFFFF)
                || (bitsOf (r.getD 2 0) 15 0 == 0xFFFF && bitsOf (q.getD 2 0) 15 0 == 0xFFFF))).length == 1
          else same.length == 2 && same.all (fun q => q == r)
            && i.placed.contains ⟨bitsOf w0 31 24, bitsOf w0 23 16⟩ && i.placed.contains ⟨bitsOf w0 15 8, bitsOf w0 7 0⟩))

/-- The image that a file describes, with handle 0; none where R343 or a record of a section fails (LOAD_FORMAT). -/
def readImage (f : List Byte) : Option Image :=
  if !headerOk f then none
  else
    match readPrograms f, findSection f 3 with
    | some ps, some plan =>
      let w2 := fileNat f 8 4
      let nbuf := fileNat f 12 2
      let len (p : Nat) : Nat := ((ps[p]?).map (fun x => x.bundles.length)).getD 0
      let size (ty : Nat) : Nat := ((findSection f ty).map (·.size)).getD 0
      let recs (ty n : Nat) : List (List Nat) := match findSection f ty with | some x => x.records f n (x.size / (4 * n)) | none => []
      let bufs := plan.records f 4 nbuf
      let segs := recs 5 4
      let rngs := recs 6 2
      let chs := recs 7 4
      let bars := (recs 8 1).map (fun r => r.getD 0 0)
      let scs := (recs 9 1).map (fun r => r.getD 0 0)
      let routes := (recs 4 1).map (fun r => r.getD 0 0)
      let routine := (findSection f 2).getD { ty := 2, off := 0, size := 0 }
      let w := if routine.size = 0 then 0 else routine.word f 0
      let entries := if routine.size = 0 then [] else (List.range 128).map (fun k => routine.word f (k + 1))
      let mine (p : Nat) (l : List (List Nat)) (hi lo : Nat) : List (List Nat) := l.filter (fun r => bitsOf (r.getD 0 0) hi lo == p)
      let programs := (ps.zip (List.range ps.length)).map (fun e =>
        { e.1 with
          ranges := (mine e.2 rngs 31 16).map (fun r => (bitsOf (r.getD 0 0) 5 0, bitsOf (r.getD 1 0) 15 0, bitsOf (r.getD 1 0) 31 16)),
          segments := (mine e.2 segs 31 16).map (fun r => (bitsOf (r.getD 0 0) 15 0, r.getD 1 0, BitVec.ofNat 32 (r.getD 2 0))) })
      let i : Image :=
        { handle := 0, gridW := bitsOf w2 31 24, gridH := bitsOf w2 23 16, profB := w2.testBit 15, delay := w2.testBit 14,
          compat := w2.testBit 13, secure := w2.testBit 12, writeMode := w2.testBit 11, programs := programs,
          micro := (List.range w).map (fun k => BitVec.ofNat 64 (fileNat f (routine.off + 516 + 8 * k) 8)),
          entries := ((List.range 128).zip entries).filterMap (fun e => if e.2.testBit 31 then some (e.1, bitsOf e.2 10 0) else none),
          buffers := bufs.map (fun r =>
            { prog := bitsOf (r.getD 0 0) 31 16, bank := bitsOf (r.getD 0 0) 4 0, offset := r.getD 1 0, size := r.getD 2 0,
              first := bitsOf (r.getD 3 0) 15 0, last := bitsOf (r.getD 3 0) 31 16 }),
          channels := (readChannels chs).map (fun d => { d with yFirst := routes.any (fun x => bitsOf x 31 20 == d.n && x % 2 == 1) }),
          barriers := bars.map (fun b => (bitsOf b 29 24, bitsOf b 19 0)),
          scopes := scs.map (fun b => (bitsOf b 31 24, bitsOf b 23 16, bitsOf b 15 8)) }
      let ok :=
        noPair Program.meets ps
        && decide (16 * nbuf ≤ plan.size)
        && bufs.all (fun r => decide (bitsOf (r.getD 0 0) 31 16 < ps.length) && bitsOf (r.getD 0 0) 15 5 == 0
            && decide (bitsOf (r.getD 0 0) 4 0 ≤ 16) && decide (bitsOf (r.getD 3 0) 31 16 < len (bitsOf (r.getD 0 0) 31 16))
            && decide (bitsOf (r.getD 3 0) 15 0 < len (bitsOf (r.getD 0 0) 31 16)))
        && ((findSection f 2).isNone || (decide (w ≤ 2048) && decide (516 + 8 * w ≤ routine.size)
            && entries.all (fun e => bitsOf e 30 11 == 0)))
        && size 5 % 16 == 0 && size 6 % 8 == 0 && size 7 % 16 == 0 && size 4 % 4 == 0 && size 8 % 4 == 0 && size 9 % 4 == 0
        && segs.all (fun r => decide (bitsOf (r.getD 0 0) 31 16 < ps.length) && r.getD 3 0 == 0
            && decide (bitsOf (r.getD 0 0) 15 0 < len (bitsOf (r.getD 0 0) 31 16)))
        && grouped (segs.map (fun r => bitsOf (r.getD 0 0) 31 16))
        && rngs.all (fun r => decide (bitsOf (r.getD 0 0) 31 16 < ps.length) && bitsOf (r.getD 0 0) 15 6 == 0
            && decide (bitsOf (r.getD 0 0) 5 0 ≤ 62) && decide (bitsOf (r.getD 1 0) 15 0 ≤ bitsOf (r.getD 1 0) 31 16)
            && decide (bitsOf (r.getD 1 0) 31 16 ≤ len (bitsOf (r.getD 0 0) 31 16)))
        && channelsOk i chs
        && routes.all (fun x => bitsOf x 19 1 == 0)
        && bars.all (fun b => bitsOf b 31 30 == 0 && bitsOf b 23 20 == 0 && bitsOf b 19 0 != 0)
        && noPair (fun a b => a == b) (bars.map (fun b => bitsOf b 29 24))
        && scs.all (fun b => decide (2 ≤ bitsOf b 31 24) && decide (bitsOf b 31 24 ≤ 5) && decide (1 ≤ bitsOf b 23 16) && decide (bitsOf b 23 16 ≤ 180)
            && decide (1 ≤ bitsOf b 15 8) && decide (bitsOf b 15 8 ≤ 168) && bitsOf b 7 0 == 0)
        && noPair (fun a b => a == b) (scs.map (fun b => bitsOf b 31 24))
      if ok then some i else none
    | _, _ => none

/-! ### The plan (R352, R353) -/

/-- Whether a buffer lies where R352 and R353 allow. -/
def PlanBuffer.ok (b : PlanBuffer) : Bool :=
  b.size != 0 && decide (b.first ≤ b.last)
  && (if b.bank = 16 then decide (b.offset + b.size ≤ 0x40000)
      else decide (b.offset / 0x20000 = b.bank) && decide (b.offset + b.size ≤ (b.bank + 1) * 0x20000) && decide (b.offset + b.size ≤ 0x1F0000))

/-- Whether two buffers share a byte without the excuse of live ranges of one program that do not overlap. -/
def PlanBuffer.clash (a b : PlanBuffer) : Bool :=
  (a.bank == 16) == (b.bank == 16) && decide (a.offset < b.offset + b.size) && decide (b.offset < a.offset + a.size)
  && !(a.prog == b.prog && (decide (a.last < b.first) || decide (b.last < a.first)))

/-! ### Call graphs (R355) -/

/-- What a bundle contributes to the call graph: CALL targets, LEAB targets, whether it holds a CALLR. -/
def callsOf (k : Nat) (b : Bundle) : List Int × List Int × Bool :=
  if hasHeader b then ([], [], false)
  else
    match decodeWord 0 (slotWord b 0) with
    | .call _ _ _ o => ([(k : Int) + o.toInt], [], false)
    | .leab _ _ i => ([], [(k : Int) + i.toInt], false)
    | .callr .. => ([], [], true)
    | _ => ([], [], false)

/-- The functions that p says have no edge to a function left are taken away, one pass at a time. -/
def peel (edges : List (Nat × Nat)) : Nat → List Nat → List Nat
  | 0, left => left
  | n + 1, left => peel edges n (left.filter (fun f => edges.any (fun e => e.1 == f && left.contains e.2)))

/-- Whether the call graph of a program has a cycle. -/
def callCycle (bundles : List (BitVec 128)) : Bool :=
  let n := bundles.length
  let info := (bundles.zip (List.range n)).map (fun e => (e.2, callsOf e.2 e.1))
  let inside (t : Int) : Bool := decide (0 ≤ t) && decide (t < n)
  let leabs := ((info.flatMap (fun e => e.2.2.1)).filter inside).map Int.toNat
  let calls := ((info.flatMap (fun e => e.2.1)).filter inside).map Int.toNat
  let starts := (0 :: (calls ++ leabs)).eraseDups
  let holder (k : Nat) : Nat := (starts.filter (fun x => decide (x ≤ k))).foldl max 0
  let edges := info.flatMap (fun e =>
    ((e.2.1.filter inside).map (fun t => (holder e.1, t.toNat))) ++ (if e.2.2.2 then leabs.map (fun t => (holder e.1, t)) else []))
  !(peel edges starts.length starts).isEmpty

/-! ### The checks of a load (Table 14-5) -/

/-- The images that place a tile. -/
def Wafer.imagesAt (w : Wafer) (c : TileId) : List Image := w.images.filter (fun i => (i.programAt c).isSome)

/-- The channel ends that an image puts on a tile. -/
def Image.endsAt (i : Image) (c : TileId) : Nat :=
  (i.channels.filter (fun d => d.sw == 0xFFFF && decide ((⟨d.sx, d.sy⟩ : TileId) = c))).length
    + (i.channels.filter (fun d => d.rw' == 0xFFFF && decide ((⟨d.rx, d.ry⟩ : TileId) = c))).length

/-- Whether two non-empty ranges of a program overlap. -/
def rangesClash (rs : List (Nat × Nat × Nat)) : Bool :=
  !noPair (fun a b => decide (a.2.1 < a.2.2) && decide (b.2.1 < b.2.2) && decide (a.2.1 < b.2.2) && decide (b.2.1 < a.2.2)) rs

/-- The image of a file, or the status of the first check of Table 14-5 that fails. -/
def State.loadCheck (s : State) (f : List Byte) (secureFn : Bool) : Except Nat Image :=
  let w := s.wafer
  let keys := if w.cruise.keyBad then [] else w.cruise.flash.keys.getD []
  if !signatureOk f keys ∨ (!secureFn ∧ (fileNat f 8 4).testBit 12) then .error 1
  else
    match readImage f with
    | none => .error 2
    | some i =>
      let tiles := i.placed
      let sum (l : List Nat) : Nat := l.foldl (· + ·) 0
      let bundles (x : Image) (c : TileId) : Nat := ((x.programAt c).map (fun p => p.bundles.length)).getD 0
      if 180 < i.gridW ∨ w.gridH < i.gridH then .error 3
      else if (i.profB ∧ !w.gradeB ∧ !i.delay) ∨ (!i.profB ∧ w.gradeB ∧ !i.compat) then .error 4
      else if !i.buffers.all PlanBuffer.ok ∨ !noPair PlanBuffer.clash i.buffers then .error 5
      else if i.programs.any (fun p => callCycle p.bundles) then .error 6
      else if i.programs.any (fun p => rangesClash p.ranges) then .error 7
      else if i.entries.any (fun e => decide (i.micro.length ≤ e.2)) ∨
          tiles.any (fun c => decide (2048 < i.micro.length + sum ((w.imagesAt c).map (fun x => x.micro.length)))) then .error 8
      else if tiles.any (fun c => decide (16384 < bundles i c + sum ((w.imagesAt c).map (fun x => bundles x c)))
          || decide (8 ≤ (w.imagesAt c).length)
          || decide (256 < i.endsAt c + sum ((w.imagesAt c).map (fun x => x.endsAt c)))) then .error 9
      else if tiles.any (fun c => (s.tileAt c).life.secure != i.secure) then .error 10
      else if 64 ≤ w.images.length then .error 11
      else .ok i

/-- LDSTAT after a command: its status, and the handle of the last successful load; it is BUSY for a free time (R346). -/
def State.loadDone (s : State) (status : Nat) (handle : Option Nat) : State :=
  match s.freeDelay with
  | (d, s) => s.modWafer (fun w => { w with host := { w.host with
      ldstat := BitVec.ofNat 32 (2 ^ 31 + status * 2 ^ 16 + (handle.getD (fieldNat w.host.ldstat 15 0)) % 65536),
      loadUntil := some (s.now + d) } })

/-- Whether a command of LDCMD is ignored (R346). -/
def State.loadBusy (s : State) : Bool := s.wafer.host.ldstat.getLsbD 31

/-- The least handle that no loaded image holds. -/
def Wafer.freeHandle (w : Wafer) : Nat := ((List.range 65).find? (fun h => decide (0 < h) && w.images.all (fun i => i.handle != h))).getD 65

/-- IMAGE_LOAD (R346, R347): the image of the LDSIZE bytes of the file is placed under a new handle, or nothing is. -/
def execImageLoad (file : List (BitVec 8)) (secureFn : Bool) (s : State) : Result :=
  s.hostWrites 0x60C fun s =>
  if s.loadBusy then .next s
  else
  match s.loadCheck (file.take s.wafer.host.ldsize.toNat) secureFn with
  | .error e => .next ((if e = 1 then s.hostEvent 0x94 else s).loadDone e none)
  | .ok i =>
    let h := s.wafer.freeHandle
    let fresh (l : List (Nat × Nat)) : List (Nat × Nat) := l.filter (fun x => x.1 ≠ h)
    let s := s.mapTiles (fun t => { t with mem := { t.mem with wiped := t.mem.wiped.filter (· ≠ h), istoreBad := fresh t.mem.istoreBad,
                                                               rstoreBad := fresh t.mem.rstoreBad,
                                                               istoreWeak := fresh t.mem.istoreWeak,
                                                               rstoreWeak := fresh t.mem.rstoreWeak } })
    .next ((s.modWafer (fun w => { w with images := w.images ++ [{ i with handle := h }] })).loadDone 0 (some h))

/-- IMAGE_UNLOAD (R346, R347). -/
def execImageUnload (handle : BitVec 16) (s : State) : Result :=
  s.hostWrites 0x60C fun s =>
  let h := handle.toNat
  let w := s.wafer
  if s.loadBusy then .next s
  else if (w.image? h).isNone then .next (s.loadDone 13 none)
  else if w.queues.toList.any (fun q => q.recs.any (fun r => recImage r.record == h))
      || w.kernels.any (fun k => k.image == h && k.st != .complete) then .next (s.loadDone 12 none)
  else .next ((s.modWafer (fun w => { w with images := w.images.filter (fun i => i.handle ≠ h) })).loadDone 0 none)

end Sys2Proof.Machine
end

