-- ==== Sys2Proof/Machine/Group.lean ====
section
/-! DEFINITION. Groups and gang slices (chapter 15): starts of contexts, start and abandon notices, the deadline, GID, GDIM, GBASE,
GSLICE. -/

namespace Sys2Proof.Machine

/-! ### Notices (R376, R377, R488) -/

/-- The NOTICE flit of a kind (0 START, 1 ABANDON, 2 HOLD, 3 RESUME) from one wafer to another. -/
def noticeFlit (kind : Nat) (gang : BitVec 64) (src dst : Nat) (addr : BitVec 80) : BitVec 1024 :=
  flitOf 7 (kind + gang.toNat * 2 ^ 64 + src % 65536 * 2 ^ 128 + dst % 65536 * 2 ^ 144 + addr.toNat * 2 ^ 160)

/-- The other wafers of the system instance: those whose route entry is VALID (R485). -/
def Wafer.otherWafers (w : Wafer) : List Nat :=
  ((w.links.routes.filter (fun e => e.2.toNat.testBit 15)).map (·.1)).filter (fun n => n != w.links.wafer.toNat)

/-- A notice of a gang sent to every other wafer of the system instance; one that no port can carry is lost (R377). -/
def State.notify (s : State) (kind : Nat) (gang : BitVec 64) : State :=
  s.wafer.otherWafers.foldl (fun s d =>
    match s.wafer.portTo d with
    | some p => s.modPort p (fun x => x.send [noticeFlit kind gang s.wafer.links.wafer.toNat d 0] s.clock)
    | none => s) s

/-- Whether a start notice for a gang has arrived from every other wafer. -/
def Wafer.gangHeard (w : Wafer) (gang : BitVec 64) : Bool :=
  w.otherWafers.all (fun d => w.links.notices.any (fun n => n.1 == 0 && n.2.1 == gang && n.2.2.1.toNat == d))

/-! ### Starting (R322, R375, R376) -/

/-- A slice whose last placed tile has started its last context runs, and its start notices leave. -/
def State.gangStarted (s : State) (kernel : Nat) : State :=
  match s.wafer.kernel? kernel with
  | none => s
  | some k =>
    let open' := s.tiles.any (fun t => t.kernels.any (fun x => x.kernel == kernel && !x.started) || t.swapPending kernel)
    if k.group ≠ .gangStarting ∨ open' then s
    else (s.modWafer (fun w => w.modKernel kernel (fun x => { x with group := .gangRunning }))).notify 0 (recGang k.record)

/-- CONTEXT_LAUNCH_START (R322, R356, R387): a placed tile starts the kernel's contexts, or tries again in the next cycle. -/
def execContextLaunchStart (c : TileId) (kernel : Nat) (s0 : State) : Result :=
  let s := s0.focus c
  match s.wafer.kernel? kernel, s.tile.kernels.find? (fun x => x.kernel == kernel) with
  | some k, some x =>
    if x.started ∨ k.st ≠ .running ∨ k.group = .gangWait ∨ k.group = .abandoned then .next s0
    else
      let later := s0.timer (s0.now + 1) (.contextLaunchStart c kernel)
      if !s.tile.mayStart x then .next later
      else
        match s.startContexts k with
        | some s => .next (s.gangStarted kernel)
        | none => .next later
  | _, _ => .next s0

/-- GANG_START (R375): once CYCLE has reached GANG the placed tiles start their contexts. -/
def execGangStart (kernel : Nat) (s : State) : Result :=
  match s.wafer.kernel? kernel with
  | none => .next s
  | some k =>
    let gang := (recGang k.record).toNat
    if k.group ≠ .gangWait ∨ k.st ≠ .running ∨ s.wafer.cycle.toNat < gang then .next s
    else
      let s := s.modWafer (fun w => w.modKernel kernel (fun x => { x with group := .gangStarting }))
      let tiles := s.tiles.filter (fun t => t.kernels.any (fun x => x.kernel == kernel))
      .next (tiles.foldl (fun s t => match s.freeDelay with | (d, s) => s.timer (s.now + d - 1) (.contextLaunchStart t.at' kernel)) s)

/-! ### Abandonment (R377, R378, R381) -/

/-- A wafer abandons its slice of a kernel: its contexts take 0x78, and abandon notices leave. -/
def State.abandon (s : State) (k : Kernel) : State :=
  (s.abortKernel k.seq 0x78 .abandoned true).notify 1 (recGang k.record)

/-- Whether a kernel is a slice of a gang that can still be abandoned. -/
def Kernel.slice (k : Kernel) (gang : BitVec 64) : Bool :=
  k.st != .complete && gang != 0 && recGang k.record == gang && (k.group == .gangWait || k.group == .gangStarting || k.group == .gangRunning)

/-- A start notice kept (R376). -/
def State.startNotice (s : State) (gang : BitVec 64) (wafer : BitVec 16) : State :=
  let n : BitVec 8 × BitVec 64 × BitVec 16 × BitVec 16 × BitVec 80 := (0, gang, wafer, s.wafer.links.wafer, 0)
  s.modWafer (fun w => { w with links := { w.links with
    notices := if w.links.notices.contains n then w.links.notices else w.links.notices ++ [n] } })

/-- START_NOTICE_ARRIVAL (R376). -/
def execStartNoticeArrival (gang : BitVec 64) (wafer : BitVec 16) (s : State) : Result := .next (s.startNotice gang wafer)

/-- The slices of a gang are abandoned in the cycle after its abandon notice, which is the one that begins (R377). -/
def State.abandonSoon (s : State) (gang : BitVec 64) : State :=
  (s.wafer.kernels.filter (fun k => k.slice gang)).foldl (fun s k =>
    (s.modWafer (fun w => w.modKernel k.seq (fun x => { x with late := true }))).timer s.now (.gangDeadline k.seq)) s

/-- ABANDON_NOTICE_ARRIVAL (R377). -/
def execAbandonNoticeArrival (gang : BitVec 64) (_wafer : BitVec 16) (s : State) : Result := .next (s.abandonSoon gang)

/-- GANG_DEADLINE (R377): a slice that has had an abandon notice, or that at the end of its deadline cycle has not started or lacks a start notice, is
abandoned. A slice within its time waits on. The deadline cycle is the first in which CYCLE has reached GANG + GANGGRACE: where a correction skips or
repeats that value, or it has passed at dispatch, DEDUCED (log 74). -/
def execGangDeadline (kernel : Nat) (s : State) : Result :=
  match s.wafer.kernel? kernel with
  | none => .next s
  | some k =>
    let gang := recGang k.record
    let limit := gang.toNat + k.gangGrace.toNat
    if !k.slice gang then .next s
    else if k.late then .next (s.abandon k)
    else if k.gangChecked ∨ s.wafer.cycle.toNat < limit then .next s
    else
      let s := s.modWafer (fun w => w.modKernel kernel (fun x => { x with gangChecked := true }))
      .next (if k.group ≠ .gangRunning ∨ !s.wafer.gangHeard gang then s.abandon k else s)

/-- The slices whose GANG value CYCLE has reached and that have not begun to start (R375). -/
def Wafer.gangsDue (w : Wafer) : List Auto :=
  (w.kernels.filter (fun k => k.group == .gangWait && k.st == .running && decide ((recGang k.record).toNat ≤ w.cycle.toNat))).map
    (fun k => .gangStart k.seq)

/-- The slices whose deadline cycle ends (R377). -/
def Wafer.deadlinesDue (w : Wafer) : List Auto :=
  (w.kernels.filter (fun k => k.slice (recGang k.record) && !k.gangChecked
    && decide ((recGang k.record).toNat + k.gangGrace.toNat ≤ w.cycle.toNat))).map (fun k => .gangDeadline k.seq)

/-! ### Identity (R373, R383) -/

/-- The scope instance of a kernel that holds a tile, by level: the pairs of Table 15-7 in the order GID, GDIM, GBASE. -/
def State.instanceOf (s : State) (kernel : Nat) (c : TileId) (level : Nat) : (Nat × Nat) × (Nat × Nat) × (Nat × Nat) :=
  let g := s.wafer.gridH
  if level ≤ 1 then ((c.x, c.y), (1, 1), (c.x, c.y))
  else if level = 7 then ((0, s.wafer.links.wafer.toNat), (0, s.wafer.otherWafers.length + 1), (0, 0))
  else
    let k := s.wafer.kernel? kernel
    let taken := (k.map (fun k => (List.range 6).find? (fun l => decide (level ≤ l) && decide (2 ≤ l)
      && k.widths.toList.getD (l - 2) 0 != 0 && k.heights.toList.getD (l - 2) 0 != 0))).getD none
    match k, taken with
    | some k, some l =>
      let w := k.widths.toList.getD (l - 2) 0
      let h := k.heights.toList.getD (l - 2) 0
      let i := c.x / w
      let j := c.y / h
      ((i, j), (min ((i + 1) * w) 180 - i * w, min ((j + 1) * h) g - j * h), (i * w, j * h))
    | _, _ => ((0, 0), (180, g), (0, 0))

/-- What GID, GDIM and GBASE give for a level of the context in focus. -/
def State.levelInfo (s : State) (level : Nat) : (Nat × Nat) × (Nat × Nat) × (Nat × Nat) :=
  s.instanceOf s.ctx.life.kernel s.tile.at' level

/-- A pair as the halves of a word. -/
def pairWord (p : Nat × Nat) : Word := BitVec.ofNat 32 (p.1 % 65536 * 65536 + p.2 % 65536)

/-- GID, GDIM and GBASE at an immediate level; pick chooses the pair. -/
def opLevel (p : BitVec 2) (d : BitVec 5) (n : BitVec 3) (pick : (Nat × Nat) × (Nat × Nat) × (Nat × Nat) → Nat × Nat) : SlotOp :=
  { slot := 0, pred := p, act := fun s => s.resultG 0 (.n 1) d (pairWord (pick (s.levelInfo n.toNat))) false }

/-- GID, GDIM and GBASE at the level in ga: a poisoned ga poisons gd and traps nothing. -/
def opLevelReg (p : BitVec 2) (d a : BitVec 5) (pick : (Nat × Nat) × (Nat × Nat) × (Nat × Nat) → Nat × Nat) : SlotOp :=
  { slot := 0, pred := p, reads := [.g a],
    checks := fun s => if !s.anyPoison [.g a] ∧ 7 < (s.g a).toNat then some 0x79 else none,
    act := fun s => s.resultG 0 (.n 1) d (pairWord (pick (s.levelInfo ((s.g a).toNat % 8)))) (s.anyPoison [.g a]) }

/-- GID (R383). -/
def execGid (p : BitVec 2) (d : BitVec 5) (n : BitVec 3) (s : State) : Result := .next ((opLevel p d n (·.1)).run s)
/-- GID at the level in ga (R383). -/
def execGidReg (p : BitVec 2) (d a : BitVec 5) (s : State) : Result := .next ((opLevelReg p d a (·.1)).run s)
/-- GDIM (R383). -/
def execGdim (p : BitVec 2) (d : BitVec 5) (n : BitVec 3) (s : State) : Result := .next ((opLevel p d n (·.2.1)).run s)
/-- GDIM at the level in ga (R383). -/
def execGdimReg (p : BitVec 2) (d a : BitVec 5) (s : State) : Result := .next ((opLevelReg p d a (·.2.1)).run s)
/-- GBASE (R383). -/
def execGbase (p : BitVec 2) (d : BitVec 5) (n : BitVec 3) (s : State) : Result := .next ((opLevel p d n (·.2.2)).run s)
/-- GBASE at the level in ga (R383). -/
def execGbaseReg (p : BitVec 2) (d a : BitVec 5) (s : State) : Result := .next ((opLevelReg p d a (·.2.2)).run s)

/-! ### GSLICE (R384) -/

/-- GANG of the context's kernel. -/
def State.gang (s : State) : BitVec 64 := ((s.wafer.kernel? s.ctx.life.kernel).map (fun k => recGang k.record)).getD 0

/-- Group state codes (Table 15-5); a kernel without a gang slice reads BOUND. -/
def GroupState.code : GroupState → Nat
  | .bound => 1 | .gangWait => 2 | .gangStarting => 3 | .gangRunning => 4 | .abandoned => 5 | .ended => 6

/-- GSLICE.lo, .hi and .st (R384). -/
def execGslice (p : BitVec 2) (d : BitVec 5) (sel : BitVec 2) (s : State) : Result :=
  .next (SlotOp.run
    { slot := 0, pred := p,
      act := fun s =>
        let st := ((s.wafer.kernel? s.ctx.life.kernel).map (fun k => k.group.code)).getD 0
        let v := if sel = 0 then s.gang.setWidth 32 else if sel = 1 then s.gang.extractLsb' 32 32 else BitVec.ofNat 32 st
        s.resultG 0 (.n 1) d v false } s)

/-- GSLICE.wait (R384): at the first attempt the time must not have passed; at any attempt before it the context blocks as YIELD does. -/
def execGsliceWait (p : BitVec 2) (a : BitVec 5) (s : State) : Result :=
  let target (s : State) : BitVec 64 := s.gang + (s.g a).setWidth 64
  let none' (s : State) : Bool := s.anyPoison [.g a] || s.gang == 0
  let early (s : State) : Bool := decide (s.cycle.toNat < (target s).toNat)
  .next (SlotOp.run
    { slot := 0, pred := p, reads := [.g a], timed := true, consumes := fun s => s.anyPoison [.g a],
      waits := fun s => if none' s || !early s then [] else [.gang (target s)],
      checks := fun s =>
        if s.gang = 0 then some 0x79
        else if !s.ctx.attempted ∧ (target s).toNat < s.cycle.toNat then some 0x7A else none } s)

end Sys2Proof.Machine
end

