-- ==== Sys2Proof/Machine/Save.lean ====
section
/-! DEFINITION. The save area (R267, R268): the bytes of a save slot that holds a context. -/

namespace Sys2Proof.Machine

/-- Bits of a list, the first lowest. -/
def bitsNat (l : List Bool) : Nat := l.foldr (fun b n => 2 * n + bnat b) 0

/-- One field of a save slot: its offset, its bytes and its value. -/
abbrev SlotField := Nat × Nat × Nat

/-- g0 to g31 from an offset on; the word of g0 holds the poison bits. -/
def saveG (off : Nat) (g : Vector (Reg 32) 32) : List SlotField :=
  (List.finRange 32).map (fun (k : Fin 32) => (off + 4 * k.val, 4,
    if k = 0 then bitsNat (g.toList.map (·.poison)) / 2 * 2 else (g[k]).val.toNat))

/-- Values and poison of p0 to p7; p0 is true and not poisoned. -/
def savePVals (p : Vector (Reg 1) 8) : Nat := bitsNat (p.toList.map (fun r => r.val == 1)) / 2 * 2 + 1
def savePPoison (p : Vector (Reg 1) 8) : Nat := bitsNat (p.toList.map (·.poison)) / 2 * 2

/-- A port's block and walk position. -/
def savePort (off : Nat) (block : BitVec 256) (active rb : Bool) (addr : BitVec 32) (i0 i1 i2 i3 : Nat) : List SlotField :=
  [(off, 32, block.toNat), (off + 32, 4, bnat active * 2 ^ 31 + bnat rb * 2 ^ 30 + addr.toNat % 2 ^ 21),
   (off + 36, 4, i1 % 65536 * 65536 + i0 % 65536), (off + 40, 4, i3 % 65536 * 65536 + i2 % 65536)]

/-- The class, number, value bytes and value of a register record; none for a vector write. -/
def RegWrite.record : RegWrite → Option (Nat × Nat × Nat × Nat)
  | .g i val => some (0, i.toNat, 4, val.toNat)
  | .p i val => some (1, i.toNat, 1, bnat val)
  | .m i val => some (2, i.toNat, 16, val.toNat)
  | .x i val => some (3, i.toNat, 8, val.toNat)
  | .h i val => some (4, i.toNat, 12, val.toNat)
  | .v _ _ _ _ => none

/-- The first word of a pending record. -/
def recordHead (p : Pending) (cls reg : Nat) : Nat :=
  2 ^ 31 + bnat p.poison * 2 ^ 30 + cls * 2 ^ 24 + reg * 2 ^ 16 + p.remain % 256

/-- The register records of the pending writes. -/
def saveRegRecords (ps : List Pending) : List SlotField :=
  let rs := ps.filterMap (fun p => p.write.record.map (fun r => (p, r)))
  (rs.zip (List.range 64)).flatMap (fun e =>
    [(0x2580 + 32 * e.2, 4, recordHead e.1.1 e.1.2.1 e.1.2.2.1), (0x2590 + 32 * e.2, e.1.2.2.2.1, e.1.2.2.2.2)])

/-- The vector writes among the pending ones. -/
def vectorWrites (ps : List Pending) : List Pending := ps.filter (fun p => p.write.record.isNone)

/-- The vector records of the pending writes; those past the 32nd go to the overflow store. -/
def saveVecRecords (ps : List Pending) : List SlotField :=
  ((vectorWrites ps).zip (List.range 32)).flatMap (fun e =>
    match e.1.write with
    | .v i v mask _ =>
      [(0x2D80 + 32 * e.2, 4, recordHead e.1 0 i.toNat), (0x2D90 + 32 * e.2, 16, mask.toNat), (0x3180 + 512 * e.2, 512, v.toNat)]
    | _ => [])

/-- RESUME of the control block. -/
def CtxState.resumeCode (st : CtxState) : Nat := match st with | .halted => 8 | .blocked => 4 | _ => 2

/-- Every field of the save slot of a context (Tables 10-4 and 10-5). -/
def Context.slotFields (c : Context) (tag : Tag) : List SlotField :=
  let r := c.regs
  let q := c.sys
  let causeWord := q.cause.toNat + bnat q.epcDelay * 2 ^ 8 + bnat q.inHandler * 2 ^ 9
  let flags := bnat c.flow.indelay * 2 ^ 31 + bnat q.armed * 2 ^ 30 + q.prio.toNat * 2 ^ 28 + c.life.resume.resumeCode * 2 ^ 24
    + bnat c.life.yielded * 2 ^ 23 + bnat c.life.deferred.isSome * 2 ^ 16 + ((c.life.deferred.map (·.toNat)).getD 0) * 2 ^ 8
  (List.finRange 16).map (fun k => (0x200 * k.val, 512, (r.v[k]).val.toNat))
  ++ saveG 0x2000 r.g
  ++ ((List.finRange 8).filter (fun k => k != 0)).map (fun k => (0x2080 + 16 * k.val, 16, (r.m[k]).val.toNat))
  ++ [(0x2080, 2, bitsNat (r.v.toList.map (·.poison))), (0x2082, 1, bitsNat (r.m.toList.map (·.poison)) / 2 * 2), (0x2083, 1, savePVals r.p),
      (0x2084, 1, savePPoison r.p), (0x2085, 1, bitsNat (r.x.toList.map (·.poison))), (0x2086, 1, bitsNat (r.h.toList.map (·.poison)))]
  ++ (List.finRange 8).map (fun k => (0x2100 + 12 * k.val, 12, (r.h[k]).val.toNat))
  ++ (List.finRange 8).map (fun k => (0x2160 + 8 * k.val, 8, (r.x[k]).val.toNat))
  ++ (List.finRange 8).map (fun k => (0x21A0 + 4 * k.val, 4, (r.d[k]).toNat))
  ++ (List.finRange 32).map (fun k => (0x21C0 + 2 * k.val, 2, (c.sems.s[k]).toNat))
  ++ (List.finRange 4).flatMap (fun k =>
      let l := c.flow.loops[k]
      [(0x2200 + 16 * k.val, 4, l.start.toNat), (0x2204 + 16 * k.val, 4, l.stop.toNat), (0x2208 + 16 * k.val, 4, l.cnt.toNat),
       (0x220C + 16 * k.val, 4, bnat l.active)])
  ++ [(0x2240, 4, c.flow.pc.toNat), (0x2244, 4, c.flow.npc.toNat), (0x2248, 4, flags), (0x224C, 4, q.fpc.toNat), (0x2250, 4, q.srstep.toNat),
      (0x2254, 4, q.epc.toNat), (0x2258, 4, causeWord), (0x225C, 4, q.cycleHs.toNat), (0x2260, 8, q.poisonRec.toNat),
      (0x2268, 8, ((c.life.yieldUntil.map (·.toNat)).getD 0)), (0x2270, 4, q.doneMask.toNat), (0x2274, 4, c.segN.toNat),
      (0x2278, 4, c.segC.toNat)]
  ++ (List.finRange 8).flatMap (fun k =>
      let f := c.feeds[k]
      savePort (0x2280 + 48 * k.val) f.block f.active f.rebuild f.blockAddr f.i0 f.i1 f.i2 f.i3)
  ++ (List.finRange 4).flatMap (fun k =>
      let o := c.outlets[k]
      savePort (0x2400 + 48 * k.val) o.block o.active false o.blockAddr o.i0 o.i1 o.i2 o.i3)
  ++ saveG 0x24C0 c.ckpt.g
  ++ [(0x2540, 4, c.ckpt.handler.toNat), (0x2544, 4, bnat c.ckpt.opened * 2 ^ 31 + savePPoison c.ckpt.p * 2 ^ 8 + savePVals c.ckpt.p)]
  ++ [(0x2550, 4, 2 ^ 31 + tag.val), (0x2554, 4, c.life.kernel % 2 ^ 32), (0x2558, 4, bnat c.life.secure)]
  ++ saveRegRecords c.pending ++ saveVecRecords c.pending

/-- The first address of a save slot. -/
def slotBase (n : Fin 2) : Nat := 0x1F0000 + 0x8000 * n.val

/-- The 64-byte beats of a save slot. -/
def slotBeats : Nat := 512

/-- A context written into a save slot; bytes that no field names are zero (R267). -/
def Tile.saveContext (t : Tile) (k : Tag) (n : Fin 2) : Tile :=
  let c := t.ctx k
  let base := slotBase n
  let m := (t.store .spad).zero Space.spad.word base 0x8000
  let m := (c.slotFields k).foldl (fun (m : Store) f => m.writeNat Space.spad.word (base + f.1) f.2.1 f.2.2) m
  let more := (vectorWrites c.pending).drop 32
  let t := t.setStore .spad m
  { t with core := { t.core with overflow := t.core.overflow.filter (fun e => e.1 ≠ k) ++ (if more.isEmpty then [] else [(k, more)]) } }

end Sys2Proof.Machine
end

