-- ==== Sys2Proof/Machine/Seats.lean ====
section
/-! DEFINITION. Seats (R255 to R258), blocked contexts (R257, R271), swaps (R261 to R266), handler starts (R260), the trap entries that
come before an attempt (R275, R290), and kills (R294 to R296). -/

namespace Sys2Proof.Machine

/-! ### Seats (R255, R258) -/

/-- The tags of the contexts that a tile may seat: READY and holding no seat. -/
def Tile.waiting (t : Tile) : List Tag :=
  (List.finRange 8).filter (fun k => (t.ctx k).life.st == .ready && (t.core.seatOf k).isNone)

/-- The better-ranked of two tags. -/
def Tile.better (t : Tile) (a b : Tag) : Bool := decide ((t.ctx a).rank < (t.ctx b).rank)

/-- The best-ranked of some tags. -/
def Tile.bestOf (t : Tile) (l : List Tag) : Option Tag :=
  l.foldl (fun b k => match b with | none => some k | some x => if t.better k x then some k else b) none

/-- A tag takes a seat; its first attempt falls two cycles after since. -/
def Core.sit (c : Core) (seat : Fin 2) (k : Tag) (since : Nat) : Core :=
  { c with seats := c.seats.set seat.val (some { tag := k, since := since }) seat.isLt }

/-- SEAT_TAKE (R255): an empty seat takes the best-ranked READY context that holds none. A seat that a kill has left in this cycle was not
empty at its start. -/
def execSeatTake (c : TileId) (seat : Fin 2) (s0 : State) : Result :=
  let s := s0.focus c
  if (s.tile.core.seats[seat]).isSome ∨ s.tile.core.log.vacated.contains seat then .next s0
  else
    match s.tile.bestOf s.tile.waiting with
    | none => .next s0
    | some k =>
      .next ((s.modTile (fun t => t.modCtx k (fun x => { x with life := { x.life with st := .issuing } }))).modCore
        (fun x => x.sit seat k s.now))

/-- DISPLACEMENT (R258): with both seats held, the lowest-ranked seated context below the PRIO of a READY one goes back to READY. -/
def execDisplacement (c : TileId) (s0 : State) : Result :=
  let s := s0.focus c
  let t := s.tile
  match t.core.seats[0], t.core.seats[1], t.bestOf t.waiting with
  | some a, some b, some k =>
    let low (x : Tag) : Bool := decide ((t.ctx x).sys.prio.toNat < (t.ctx k).sys.prio.toNat) && (t.ctx x).life.st == .issuing
    let out := if low a.tag && low b.tag then (if t.better a.tag b.tag then some b.tag else some a.tag)
      else if low a.tag then some a.tag else if low b.tag then some b.tag else none
    match out with
    | none => .next s0
    | some x => .next ((s.modTile (fun t => t.modCtx x (fun y => { y with life := { y.life with st := .ready } }))).modCore (fun z =>
        { (z.leave x) with log := { z.log with displaced := some x } }))
  | _, _, _ => .next s0

/-- The better-ranked of two seated contexts stands in seat 0 (R255). -/
def Tile.orderSeats (t : Tile) : Tile :=
  match t.core.seats[0], t.core.seats[1] with
  | some a, some b =>
    if t.better b.tag a.tag then { t with core := { t.core with seats := (t.core.seats.set 0 (some b)).set 1 (some a) } } else t
  | none, some b => { t with core := { t.core with seats := (t.core.seats.set 0 (some b)).set 1 none } }
  | _, _ => t

/-! ### Blocked contexts (R257, R271) -/

/-- Whether a trap that waits lets a blocked context go on (R210, R290). -/
def Context.called (x : Context) : Bool := !x.sys.inHandler && (x.life.deferred.isSome || x.life.recovery)

/-- Whether every condition that failed the attempt of the context in focus holds (R257). -/
def State.unblocked (s : State) : Bool := s.ctx.life.yieldUntil.isNone && s.ctx.life.waits.all s.clears

/-- CONTEXT_READY (R257): a BLOCKED context becomes READY when all its conditions hold, or when a deferred trap or a recovery waits for
it. -/
def execContextReady (c : TileId) (tag : Tag) (s0 : State) : Result :=
  let s := (s0.focus c).focusTag tag
  if s.ctx.life.st = .blocked ∧ (s.unblocked ∨ s.ctx.called) then
    .next (s.modCtx (fun x => { x with life := { x.life with st := .ready, yieldUntil := none } }))
  else .next s0

/-- YIELD_DEADLINE (R271). -/
def execYieldDeadline (c : TileId) (tag : Tag) (s0 : State) : Result :=
  let s := (s0.focus c).focusTag tag
  match s.ctx.life.yieldUntil with
  | some d =>
    if s.ctx.life.st = .blocked ∧ d.toNat ≤ s.cycle.toNat then
      .next (s.modCtx (fun x => { x with life := { x.life with st := .ready, yieldUntil := none } }))
    else .next s0
  | none => .next s0

/-! ### Traps before an attempt (R275, R290) -/

/-- DEFERRED_TRAP (R275, R278): a seated context outside a handler takes its deferred trap before it attempts its bundle. -/
def execDeferredTrap (c : TileId) (tag : Tag) (s0 : State) : Result :=
  let s := (s0.focus c).focusTag tag
  match s.ctx.life.deferred with
  | some code => if s.ctx.life.st = .issuing ∧ !s.ctx.sys.inHandler then .next (s.takeDeferred code) else .next s0
  | none => .next s0

/-- CONTAINMENT_RECOVERY (R289, R290): a seated context whose open region had a command fault recovers before its bundle. -/
def execContainmentRecovery (c : TileId) (tag : Tag) (s0 : State) : Result :=
  let s := (s0.focus c).focusTag tag
  if s.ctx.life.st = .issuing ∧ s.ctx.life.recovery ∧ !s.ctx.sys.inHandler then .next (s.recover 0xA1 0) else .next s0

/-! ### Handler starts (R260, R418) -/

/-- The tag that a handler start of a kernel selects. -/
def Tile.handlerFor (t : Tile) (kernel : Nat) : Option Tag :=
  (List.finRange 4).findSome? (fun n => (t.numbered n).bind (fun k =>
    let x := t.ctx k
    if x.life.st = .dormant ∧ x.sys.armed ∧ x.life.kernel = kernel then some k else none))

/-- A DORMANT context started at a handler with its descriptor (R260). -/
def Context.startHandler (x : Context) (h : HandlerEntry) : Context :=
  let put (r : Regs) (k : BitVec 5) (v : BitVec 32) : Regs := r.write (.g k v) false
  let regs := put (put (put (put x.regs 1 h.g1) 2 h.g2) 3 h.g3) 4 h.g4
  { x with
    regs := { regs with d := Vector.replicate 8 0 },
    flow := { pc := h.pc, npc := h.pc + 16 },
    sys := { x.sys with fpc := 0, srstep := 0, cycleHs := 0, doneMask := 0 },
    sems := { x.sems with s := Vector.replicate 32 0 },
    feeds := x.feeds.map (fun f => { f with active := false, held := [] }),
    outlets := x.outlets.map (fun o => { o with active := false, buf := [] }),
    life := { x.life with st := .ready, waits := [], yieldUntil := none } }

/-- HANDLER_START (R260, R418): the oldest waiting start whose kernel has a DORMANT, ARMED context is made, no sooner than the cycle
after its payload was written. The cycle's log keeps it, for a CKILL that issues in the cycle (R254). -/
def execHandlerStart (c : TileId) (s0 : State) : Result :=
  let s := s0.focus c
  match s.tile.stores.handlers.find? (fun h => h.ready && decide (h.since < s.now) && (s.tile.handlerFor h.kernel).isSome) with
  | none => .next s0
  | some h =>
    match s.tile.handlerFor h.kernel with
    | none => .next s0
    | some k =>
      .next (s.modTile (fun t =>
        { (t.modCtx k (fun x => x.startHandler h)) with
          core := { t.core with log := { t.core.log with begun := t.core.log.begun ++ [(k, h)] } },
          stores := { t.stores with handlers := t.stores.handlers.filter (fun x => x.serial ≠ h.serial) } }))

/-! ### Swaps (R261 to R266) -/

/-- A save slot that nothing holds or has reserved. -/
def Core.freeSlot (c : Core) : Option (Fin 2) := (List.finRange 2).find? (fun n => (c.slotBusy[n]).isNone)

/-- A save slot given to a tag, or freed. -/
def Core.setSlot (c : Core) (n : Fin 2) (k : Option Tag) : Core := { c with slotBusy := c.slotBusy.set n.val k n.isLt }

/-- Whether the shadow bank holds no STAGED or SPILLING context. -/
def Core.shadowFree (c : Core) : Bool := c.swap.isNone && c.spillTag.isNone

/-- Staging of a swap request begins in the free shadow bank (R261); a request that cannot be met now waits, or is dropped when its
context or kernel has gone. -/
def State.beginStaging (s : State) (out : Fin 4) (inc : SwapIn) : State :=
  let rest := s.tile.core.swapWaiting.filter (fun w => w ≠ (out, inc))
  let drop : State := s.modCore (fun x => { x with swapWaiting := rest })
  match inc with
  | .saved k =>
    let x := s.tile.ctx k
    match x.life.st, x.life.saveSlot with
    | .saved, some n =>
      match s.freeDelay with
      | (d, s) =>
        let s := s.modTile (fun t => t.modCtx k (fun y => { y with life := { y.life with st := .staged } }))
        let w : Swap := { out := out, incoming := inc, inTag := some k, stageEnd := s.now + d, left := slotBeats, slot := n }
        s.modCore (fun y => { y with swapWaiting := rest, swap := some w })
    | _, _ => drop
  | .fresh kernel pc prio launch =>
    match s.wafer.kernel? kernel, s.tile.core.freeSlot, s.tile.freeTag with
    | some kn, some n, some k =>
      if kn.st ≠ .running ∨ !s.tile.kernels.any (fun x => x.kernel == kernel) then drop
      else
        let s := s.giveTag k (launched kernel kn.secure pc prio launch .staged none)
        let w : Swap := { out := out, incoming := inc, inTag := some k, stageEnd := s.now + 1, slot := n }
        s.modCore (fun y => { (y.setSlot n (some k)) with swapWaiting := rest, swap := some w })
    | none, _, _ => drop
    | _, _, _ => s

/-- SWAP_REQUEST (R261): a request of the launch logic or of the host waits its turn for the shadow bank. -/
def execSwapRequest (c : TileId) (out : Fin 4) (incoming : SwapIn) (s0 : State) : Result :=
  let s := s0.focus c
  let s := if s.tile.core.swapWaiting.contains (out, incoming) then s
    else s.modCore (fun x => { x with swapWaiting := x.swapWaiting ++ [(out, incoming)] })
  match s.tile.core.swapWaiting with
  | (o, i) :: _ => if s.tile.core.shadowFree then .next (s.beginStaging o i) else .next s
  | [] => .next s

/-- STAGING_END (R261, R286): the incoming context is STAGED. An uncorrectable error in its slot stops staging: it is FAULTED and 0xA4
SWAP_UE is recorded. -/
def execStagingEnd (c : TileId) (s0 : State) : Result :=
  let s := s0.focus c
  match s.tile.core.swap with
  | none => .next s0
  | some w =>
    match w.inTag, w.incoming with
    | some k, .saved _ =>
      if s.now < w.stageEnd ∨ w.left ≠ 0 ∨ w.decided.isSome ∨ !s.tile.readBad .spad (slotBase w.slot) 0x7180 then .next s0
      else
        let s := s.modTile (fun t => t.modCtx k (fun x => { x with life := { x.life with st := .faulted } }))
        let kernel := (s.tile.ctx k).life.kernel
        let s := s.modWafer (fun x => x.report kernel 0xA4 c k 0 false s.now)
        .next ((s.modTile (fun t => { t with life := { t.life with causes := t.life.causes ++ [0xA4] } })).modCore (fun x => { x with swap := none }))
    | _, _ => .next s0

/-- Whether the swap decision can be taken on a context of a bank (R262, R500). -/
def Context.swapsOut (x : Context) : Bool :=
  (x.life.st == .ready || x.life.st == .issuing || x.life.st == .blocked || x.life.st == .halted) && !x.dbg.held

/-- A context that begins to spill into a slot; what it resumes as is recorded. -/
def Life.spill (l : Life) (n : Fin 2) : Life :=
  let back : CtxState := match l.st with | .blocked => .blocked | .halted => .halted | _ => .ready
  { l with resume := back, st := .spilling, saveSlot := some n }

/-- A spilling context whose swap is withdrawn; seated says whether it still holds its seat. -/
def Life.unspill (l : Life) (seated : Bool) : Life :=
  if l.st = .spilling then { l with st := if seated ∧ l.resume = .ready then .issuing else l.resume, saveSlot := none } else l

/-- The increments that a cycle has brought so far go to the latch (R265). -/
def Sems.toLatch (q : Sems) : Sems :=
  { (List.finRange 32).foldl (fun (q : Sems) k => if q.inc[k] = 0 then q else q.latchAdd (BitVec.ofNat 5 k.val) q.inc[k]) q with
    inc := Vector.replicate 32 0 }

/-- Whether a swap's context is STAGED, its decision not taken (R262). -/
def State.swapDue (s : State) (w : Swap) : Bool :=
  w.decided.isNone && w.left == 0 && decide (w.stageEnd ≤ s.now) && (w.inTag.any (fun k => (s.tile.ctx k).life.st == .staged))

/-- The context that a swap whose decision can be taken would send out of its seat, if it holds one. -/
def State.swapSeated (s : State) : Option Tag :=
  match s.tile.core.swap with
  | some w => if s.swapDue w then (s.tile.numbered w.out).filter (fun k => (s.tile.core.seatOf k).isSome && (s.tile.ctx k).swapsOut) else none
  | none => none

/-- SWAP_DECISION (R262, R263, R265): taken in a cycle in which the outgoing context does not issue; it issues nothing from now on and begins
to spill; increments go to its latch, its feeds' held vectors are dropped. -/
def execSwapDecision (c : TileId) (s0 : State) : Result :=
  let s := s0.focus c
  match s.tile.core.swap with
  | none => .next s0
  | some w =>
    let ready := s.swapDue w
    let done (s : State) (seat : Option (Fin 2)) (out : Option Tag) : Result :=
      .next ((s.modCore (fun x => { x with swap := some { w with decided := some s.now, outTag := out, seat := seat } })).timer (s.now + 8) (.swapIn c))
    if !ready then .next s0
    else
      match s.tile.numbered w.out with
      | none => done s none none
      | some k =>
        if !(s.tile.ctx k).swapsOut ∨ s.tile.core.log.issued.any (·.tag == k) then .next s0
        else
          let seat := s.tile.core.seatOf k
          let s := s.modTile (fun t => t.modCtx k (fun x =>
            { x.discardFeeds with life := x.life.spill w.slot, sems := x.sems.toLatch }))
          done s seat (some k)

/-- The semaphores of a context that comes in: image and latch together (R266). -/
def Sems.merge (q : Sems) : Sems × Bool :=
  let sum (k : Fin 32) : Nat := (q.s[k]).toNat + (q.latch[k]).toNat
  let above := q.latchOver || (List.finRange 32).any (fun k => decide (65535 < sum k))
  ({ q with s := Vector.ofFn (fun k => BitVec.ofNat 16 (min (sum k) 65535)), latch := Vector.replicate 32 0, latchOver := false }, above)

/-- The latch of a context whose swap is withdrawn given back as increments of this cycle (R111, R265): DEDUCED, unsafe, log 182. -/
def Sems.unlatch (q : Sems) : Sems :=
  let back (k : Fin 32) : Nat := (q.latch[k]).toNat + (if q.latchOver ∧ q.latch[k] = 65535 then 65536 else 0)
  { q with inc := Vector.ofFn (fun k => q.inc[k] + back k), latch := Vector.replicate 32 0, latchOver := false }

/-- The incoming context resident under its number, in the state of R266. -/
def State.arrive (s : State) (k : Tag) (n : Fin 4) (seat : Option (Fin 2)) : State :=
  let tag := s.tag
  let m := (s.tile.ctx k).sems.merge
  let s := s.modTile (fun t => t.modCtx k (fun x =>
    { x with sems := m.1, life := { x.life with num := some n, saveSlot := none, st := x.life.resume } }))
  let s := if m.2 then s.defer k 0x60 else s
  let s := s.focusTag k
  let s := if s.ctx.life.st = .blocked ∧ s.unblocked then s.modCtx (fun x => { x with life := { x.life with st := CtxState.ready } }) else s
  let s := match seat with
    | some p => if s.ctx.life.st = CtxState.ready then
        (s.modCtx (fun x => { x with life := { x.life with st := .issuing } })).modCore (fun x => x.sit p k (s.now - 2)) else s
    | none => s
  s.focusTag tag

/-- SWAP_IN (R262, R266): eight cycles after the decision the banks exchange; a READY context takes the seat that the outgoing one holds then. -/
def execSwapIn (c : TileId) (s0 : State) : Result :=
  let s := s0.focus c
  match s.tile.core.swap with
  | none => .next s0
  | some w =>
    match w.decided, w.inTag with
    | some d, some k =>
      if s.now < d + 8 then .next s0
      else
        let kernel := (s.tile.ctx k).life.kernel
        let s := s.modCore (fun x => { x with swap := none, overflow := x.overflow.filter (fun e => e.1 ≠ k) })
        let leaving := match w.outTag with | some o => (s.tile.ctx o).life.st == .spilling | none => false
        match w.outTag, leaving, s.freeDelay with
        | some o, true, (f, s) =>
          let seat := w.seat.bind (fun _ => s.tile.core.seatOf o)
          let s := s.modCore (fun x =>
            { (x.leave o).setSlot w.slot (some o) with spillTag := some o, spillEnd := s.now + f, spillLeft := slotBeats })
          let s := s.modTile (fun t => t.modCtx o (fun x => { x with life := { x.life with num := none } }))
          .next ((s.arrive k w.out seat).gangStarted kernel)
        | out, _, _ =>
          let s := match out with
            | some o => (s.modCore (fun x => x.leave o)).modTile (fun t => t.modCtx o (fun x => { x with life := { x.life with num := none } }))
            | none => s
          .next (((s.modCore (fun x => x.setSlot w.slot none)).arrive k w.out none).gangStarted kernel)
    | _, _ => .next s0

/-- SPILL_DONE (R263): once its outlets have written every pushed vector and the last byte of the slot is written, the context is
SAVED. -/
def execSpillDone (c : TileId) (s0 : State) : Result :=
  let s := s0.focus c
  match s.tile.core.spillTag with
  | none => .next s0
  | some k =>
    if s.now < s.tile.core.spillEnd ∨ s.tile.core.spillLeft ≠ 0 ∨ !(s.tile.ctx k).outletsWritten then .next s0
    else
      let n := (s.tile.ctx k).life.saveSlot.getD 0
      let s := s.modTile (fun t => (t.saveContext k n).modCtx k (fun x => { x with life := { x.life with st := .saved } }))
      .next (s.modCore (fun x => { x with spillTag := none }))

/-- The beat of a slot that stands so many beats before its end. -/
def slotBeat (n : Fin 2) (left : Nat) : Nat := slotBase n + 64 * (slotBeats - left)

/-- The cycle of staging (R261, R263): one beat of the slot is read where its bank is free; how soon the next follows is free. -/
def State.stageBeat (s : State) : State :=
  match s.tile.core.swap with
  | some w =>
    let a := slotBeat w.slot w.left
    if w.left = 0 ∨ s.now < w.stageEnd ∨ !s.tile.bankServes s.now s.cycle .spad a 64 then s
    else
      match s.freeDelay with
      | (d, s) => (s.modTile (fun t => t.takeBeat .spad a 64)).modCore (fun x =>
          { x with swap := some { w with left := w.left - 1, stageEnd := s.now + d } })
  | none => s

/-- The cycle of spilling (R263): once its outlets have written every pushed vector, one beat of the slot is written where its bank is free. -/
def State.spillBeat (s : State) : State :=
  match s.tile.core.spillTag with
  | some k =>
    let left := s.tile.core.spillLeft
    let a := slotBeat ((s.tile.ctx k).life.saveSlot.getD 0) left
    if left = 0 ∨ s.now < s.tile.core.spillEnd ∨ !(s.tile.ctx k).outletsWritten ∨ !s.tile.bankServes s.now s.cycle .spad a 64 then s
    else
      match s.freeDelay with
      | (d, s) => (s.modTile (fun t => t.takeBeat .spad a 64)).modCore (fun x => { x with spillLeft := left - 1, spillEnd := s.now + d })
  | none => s

/-! ### Kills (R294 to R296) -/

/-- Step 1: the seats are left, staging is withdrawn, pending writes are discarded. An outgoing context whose swap loses its incoming
one stays resident. -/
def Tile.killLeave (t : Tile) (k : Tag) : Tile :=
  let seat := (t.core.seatOf k).toList
  let core := t.core.leave k
  let core := { core with log := { core.log with vacated := core.log.vacated ++ seat } }
  let core := if core.spillTag = some k then { core with spillTag := none } else core
  let mine := match core.swap with | some w => w.inTag == some k | none => false
  let out := match core.swap with | some w => if mine then w.outTag else none | none => none
  let t := { t with core := if mine then { core with swap := none } else core }
  let t := match out with
    | some o => t.modCtx o (fun x =>
        { x with life := x.life.unspill (t.core.seatOf o).isSome, sems := if x.life.st = CtxState.spilling then x.sems.unlatch else x.sems })
    | none => t
  t.modCtx k (fun x => { x with pending := [], dbg := { x.dbg with held := false, step := none, stepTrap := false } })

/-- Step 2: the engines' commands are cancelled, ports stop. -/
def State.killEngines (s : State) (k : Tag) : State :=
  let mine : Tag → Bool → Bool := fun g _ => g == k
  let s := s.modTile (fun t => ((t.dropQueued .matrix mine).dropQueued .row mine).dropQueued .copy mine)
  let s := ((s.atEnd (.stop .matrix k false)).atEnd (.stop .row k false)).atEnd (.stop .copy k false)
  s.modTile (fun t => t.modCtx k (fun x =>
    { x with feeds := x.feeds.map (fun f => { f with active := false, held := [] }),
             outlets := x.outlets.map (fun o => { o with active := false, buf := [] }) }))

/-- Steps 3 and 4: what is not injected is discarded; the rest must be acknowledged or dropped. -/
def Tile.killNet (t : Tile) (k : Tag) : Tile := { t with netq := t.netq.filter (fun o => !(o.tag == k && !o.injected)) }

/-- The kill of a tag goes on to its next step, in the next cycle. -/
def State.killStep (s : State) (k : Tag) (n : Nat) : State :=
  s.modTile (fun t => t.modCtx k (fun x => { x with kill := { x.kill with step := n } }))

/-- The flits of an operation that a port still holds, those in the replay buffer and those that wait. -/
def Port.holds (p : Port) (serial : Nat) : Nat :=
  (p.replay.filter (fun r => r.op == some serial)).length + (p.sendq.filter (fun f => f.op == some serial)).length

/-- The flit of an operation header with its kind made one that names no operation (Table 21-3). -/
def voidHeader (f : BitVec 1024) : BitVec 1024 := f ||| BitVec.ofNat 1024 (255 * 2 ^ (64 + 120))

/-- An operation that a port holds whole is purged (R295): what has not left leaves no more; what has left and may be sent again names no
operation any longer. The change of its header is the model's: DESIGN CHOICE, unsafe, log 166. -/
def Port.purge (p : Port) (serial : Nat) : Port :=
  let mine (o : Option Nat) : Bool := o == some serial
  let p := { p with outbound := p.outbound.filter (fun b => b.serial ≠ serial), regs := { p.regs with purged := true } }
  if !p.replay.any (fun r => mine r.op) then { p with sendq := p.sendq.filter (fun f => !mine f.op) }
  else
    let before := p.replay.takeWhile (fun r => !mine r.op)
    match p.replay.dropWhile (fun r => !mine r.op) with
    | h :: rest => { p with replay := before ++ { h with flit := voidHeader h.flit } :: rest }
    | [] => p

/-- The ports' purge of what a killed tag still has in them, once the replay timeout has passed since step 3 began; the drop notice counts as
the acknowledgement (R295). -/
def State.killPurge (s : State) (k : Tag) (since : Nat) : State :=
  let at' := s.tile.at'
  (s.tile.netq.filter (fun o => o.tag == k && o.injected)).foldl (fun s o =>
    match (List.finRange 64).find? (fun p =>
        (s.port p).outbound.any (fun b => b.src == at' && b.serial == o.serial) && (s.port p).holds o.serial == o.flitCount
          && decide (since + (s.port p).regs.rplto.toNat ≤ s.now)) with
    | some p => (s.modPort p (fun x => x.purge o.serial)).dropNet at' o.serial
    | none => s) s

/-- The trace record of a kill that begins (R508). -/
def State.traceKill (s : State) (k : Tag) : State := s.trace k 7 0 0 0 (pcIndex (s.tile.ctx k).flow.pc)

/-- KILL (R294, Table 11-7): the kill of a tag begins, where none is under way (the host's way); else one cycle of it. A step that
ends gives way to the next in the cycle after. -/
def execKill (c : TileId) (tag : Tag) (s0 : State) : Result :=
  let s := s0.focus c
  let x := s.tile.ctx tag
  if x.life.st = .empty then .next s0
  else if x.life.st ≠ .killing then .next (((s.traceKill tag).modTile (fun t => (t.beginKill tag none true s.now).killLeave tag)).killStep tag 2)
  else if s.now < x.kill.began then .next s0
  else
    match x.kill.step with
    | 1 => .next (((s.traceKill tag).modTile (fun t => t.killLeave tag)).killStep tag 2)
    | 2 =>
      let quiet := s.tile.enginesQuiet (· == tag)
      let s := s.killEngines tag
      .next (if quiet then (s.killStep tag 3).modTile (fun t => t.modCtx tag (fun c => { c with kill := { c.kill with netAt := s.now + 1 } })) else s)
    | 3 =>
      let s := (s.modTile (fun t => t.killNet tag)).killPurge tag x.kill.netAt
      .next (if s.tile.netq.all (fun o => !(o.tag == tag && !(gaSpace o.addr == 8 && o.kind != .rget))) then s.killStep tag 4 else s)
    | 4 =>
      let s := s.killPurge tag x.kill.netAt
      .next (if s.tile.netq.all (fun o => o.tag != tag) && s.tile.cut.all (fun r => r.cmd.tag != tag) then s.killStep tag 5 else s)
    | 5 =>
      let last := (s.tile.tagsOf x.life.kernel).all (fun k => (s.tile.ctx k).life.st == .killing)
      let units := match s.tile.kernels.find? (fun k => k.kernel == x.life.kernel) with
        | some k => if k.started then (k.units.filter (fun u => u.2 != .released)).map (·.1) else []
        | none => []
      let s := if last && !s.tile.swapPending x.life.kernel then s.atEnd (.release x.life.kernel units) else s
      .next (s.killStep tag 6)
    | 6 =>
      let keep : Context := { flow := x.flow, kill := { x.kill with step := 7 },
                              life := { st := .killing, num := x.life.num, kernel := x.life.kernel, secure := x.life.secure } }
      let s := (s.freeTag tag).modTile (fun t => t.modCtx tag (fun _ => keep))
      .next (s.modCore (fun c => { c with atEnd := c.atEnd.filter (fun a => a ≠ .fold tag) }))
    | _ => .next s0

/-- KILL_DONE (R294, R296): the tag is free; a context that asked for the kill gains 1 in s31, and the host is told of one that it began. -/
def execKillDone (c : TileId) (tag : Tag) (s0 : State) : Result :=
  let s := s0.focus c
  let x := s.tile.ctx tag
  if x.life.st ≠ .killing ∨ x.kill.step ≠ 7 then .next s0
  else
    let s := (s.modTile (fun t => t.modCtx tag (fun _ => {}))).modCore (fun c =>
      { c with atEnd := c.atEnd ++ [.fold tag], log := { c.log with killed := c.log.killed ++ [(tag, pcIndex x.flow.pc)] } })
    let s := if x.kill.byHost then s.modWafer (fun w => { w with host := { w.host with killed := w.host.killed ++ [(c, tag)] } }) else s
    match x.kill.byTag with
    | some k => .next (s.modTile (fun t => t.modCtx k (fun y => y.semAdd 31 1)))
    | none => .next s

end Sys2Proof.Machine
end

