-- ==== Sys2Proof/Machine/Barrier.lean ====
section
/-! DEFINITION. Barriers (chapter 16): requests and their verdicts, homes, notices and mirrors, BARINIT, BARARV, BARDROP, BARWAIT,
BARTST. -/

namespace Sys2Proof.Machine

/-! ### Homes (R385) -/

/-- The placed tiles of a kernel in the scope instance of a level that holds c. -/
def State.instanceTiles (s : State) (kernel : Nat) (c : TileId) (level : Nat) : List TileId :=
  match s.instanceOf kernel c level with
  | (_, (w, h), (x, y)) => (((s.wafer.imageOf kernel).map Image.placed).getD []).filter (fun t =>
      decide (x ≤ t.x) && decide (t.x < x + w) && decide (y ≤ t.y) && decide (t.y < y + h))

/-- The home among the tiles of an instance: the smallest Y, then the smallest X. -/
def homeOf : List TileId → Option TileId
  | [] => none
  | t :: r => match homeOf r with
    | none => some t
    | some u => if t.y < u.y ∨ (t.y = u.y ∧ t.x ≤ u.x) then some t else some u

/-! ### Requests (R393, R398) -/

/-- BARRIER_REQUEST_SEND (R393, R398): a request whose release wait has ended goes to its home, which has one of its own tile in the next
cycle. A quiesced tile injects none (R436). -/
def execBarrierRequestSend (c : TileId) (tag : Tag) (s0 : State) : Result :=
  let s := s0.focus c
  let open' := s.tile.life.st = .live ∨ (s.tile.life.st = .migrating ∧ !s.wafer.refuses c)
  match s.tile.netq.find? (fun o => o.kind == .barrier && o.tag == tag && !o.injected && s.tile.covered o) with
  | none => .next s0
  | some o =>
    if ¬ open' then .next s0
    else
      match homeOf (s.instanceTiles o.kernel c o.scope) with
      | none => .next s0
      | some h =>
        let r : BarRequest :=
          { kernel := o.kernel, n := o.b0.toNat, fn := o.fn.setWidth 2, level := o.scope, count := o.b1.toNat, view := o.tagLow, src := c,
            tag := tag, serial := o.serial, at' := s.now }
        let s := s.modNet c o.serial (fun x => { x with injected := true })
        .next (if h = c then s.postIn 2 c h (.barRequest r) false else s.post c h (.barRequest r))

/-! ### At the home (R389, R390, Table 16-2) -/

/-- Table 16-2: the entry that a request leaves, the verdict, and whether a notice goes out. -/
def HomeEntry.apply (h : HomeEntry) (r : BarRequest) : HomeEntry × Verdict × Bool :=
  let v : Verdict := { fn := r.fn, n := BitVec.ofNat 6 r.n, accepted := true, phase := h.phase }
  let refuse (code : BitVec 8) : HomeEntry × Verdict × Bool := (h, { v with accepted := false, phase := 0, cause := code }, false)
  if r.fn = 0 then
    if h.st = .opened ∧ (h.arrived ≠ 0 ∨ h.drops ≠ 0) then refuse 0x6C
    else
      let p := if h.st = .uninit then 0 else h.phase
      ({ h with st := .opened, level := r.level, phase := p, expected := r.count, arrived := 0, drops := 0, notices := h.notices + 1 },
        { v with phase := p }, true)
  else
    match h.st with
    | .uninit => refuse 0x69
    | .closed => refuse 0x68
    | .opened =>
      let lag := (r.view - h.phase).toNat
      if 32768 ≤ lag then refuse 0x68
      else if lag ≠ 0 then refuse 0x6A
      else
        let d := h.drops + if r.fn = 2 then 1 else 0
        if h.arrived + 1 < h.expected then ({ h with arrived := h.arrived + 1, drops := d }, v, false)
        else
          ({ h with st := if h.expected ≤ d then .closed else .opened, phase := h.phase + 1, expected := h.expected - d, arrived := 0,
                    drops := 0, notices := h.notices + 1 }, v, true)

/-- The home entry of an instance on the tile in focus; before its first request it is UNINIT. -/
def Tile.homeEntry (t : Tile) (kernel n level : Nat) : HomeEntry :=
  (t.stores.bars.homes.find? (fun h => h.kernel == kernel && h.n == n && h.level == level)).getD
    { kernel := kernel, n := n, level := level }

/-- The barrier store of the tile in focus changed by f. -/
def State.modBars (s : State) (f : BarStore → BarStore) : State :=
  s.modTile (fun t => { t with stores := { t.stores with bars := f t.stores.bars } })

/-- The notice of an entry sent to every placed tile of its instance (R391). -/
def State.sendNotices (s : State) (h : HomeEntry) : State :=
  let c := s.tile.at'
  let b : MsgBody := .barNotice h.kernel h.n h.level h.st h.phase h.notices
  (s.instanceTiles h.kernel c h.level).foldl (fun s t => if t = c then s.postIn 1 c t b false else s.post c t b) s

/-- The requests that have reached the tile in focus join its store (R390); a migrating coordinate refuses them (R440). -/
def State.acceptRequests (s : State) : State :=
  let c := s.tile.at'
  s.wafer.net.foldl (fun s m =>
    if m.dst = c ∧ !m.held ∧ m.due ≤ s.now then
      match m.body with
      | .barRequest r =>
        if s.wafer.refuses c then s.refuse m
        else (s.dropMsg m.serial).modBars (fun b => { b with requests := b.requests ++ [{ r with at' := m.due }] })
      | _ => s
    else s) s

/-- The next request of a home: those of its own tile first, each kind in the order of acceptance (R390). -/
def nextRequest (c : TileId) : List BarRequest → Option BarRequest
  | [] => none
  | r :: rs => some (((r :: rs).find? (fun x => x.src == c)).getD r)

/-- BARRIER_REQUEST_APPLY (R389, R390): a home takes the requests that have reached it and applies one in a cycle; its verdict returns, and
a change of phase or state sends notices. At a retired home a request fails (R435). -/
def execBarrierRequestApply (c : TileId) (s0 : State) : Result :=
  let s := (s0.focus c).acceptRequests
  let b := s.tile.stores.bars
  if b.applied = some s.now then .next s
  else
    match nextRequest c b.requests with
    | none => .next s
    | some r =>
      let s := s.modBars (fun b => { b with requests := b.requests.erase r, applied := some s.now })
      let s := if s.tile.stores.bars.requests.isEmpty then s else s.timer (s.now + 1) (.barrierRequestApply c)
      if s.tile.life.st = .retired then .next (s.post c r.src (.done r.tag r.serial none))
      else if !s.tile.stores.bars.kernels.contains r.kernel then .next (s.dropNet r.src r.serial)
      else
        match (s.tile.homeEntry r.kernel r.n r.level).apply r with
        | (h, v, tell) =>
          let s := s.modBars (fun b => { b with homes := h :: b.homes.filter (fun x =>
            !(x.kernel == r.kernel && x.n == r.n && x.level == r.level)) })
          let s := if r.src = c then s.postIn 1 c c (.verdict r.tag r.serial v) false else s.post c r.src (.verdict r.tag r.serial v)
          .next (if tell then s.sendNotices h else s)

/-! ### Verdicts and notices (R391, R394, R396) -/

/-- The view of a barrier for a tag of the tile in focus changed by f. -/
def State.modView (s : State) (kernel : Nat) (k : Tag) (n : Nat) (f : View → View) : State :=
  s.modBars (fun b => { b with views := b.views.map (fun v => if v.kernel = kernel ∧ v.tag = k ∧ v.n = n then f v else v) })

/-- BARRIER_VERDICT_ARRIVAL (R394, R396): the request's queue entry is free; an acceptance of an arrival or a drop moves the tag's view; the
tag holds the verdict, unless it has sent another request since. -/
def execBarrierVerdictArrival (n : Nat) (s : State) : Result :=
  match s.msg? n with
  | none => .next s
  | some m =>
    match m.body with
    | .verdict k serial v =>
      if s.wafer.refuses m.dst then .next (s.refuse m)
      else
        let s := (s.dropMsg n).focus m.dst
        match s.tile.net? serial with
        | none => .next s
        | some o =>
          let s := s.dropNet m.dst serial
          if o.doomed then .next s
          else
            let s := if v.accepted ∧ v.fn ≠ 0 then
                s.modView o.kernel k v.n.toNat (fun x => { x with v := v.phase + 1, dropped := x.dropped || v.fn == 2, owed := true })
              else s
            .next (s.modTile (fun t => t.modCtx k (fun c =>
              if c.asked.barReq = some serial then { c with asked := { c.asked with barReq := none, verdict := some v } } else c)))
    | _ => .next s

/-- BARRIER_NOTICE_ARRIVAL (R391, R395): a mirror takes a notice that is later than the last it took, and of its own level. -/
def execBarrierNoticeArrival (n : Nat) (s : State) : Result :=
  match s.msg? n with
  | none => .next s
  | some m =>
    match m.body with
    | .barNotice kernel b level st phase count =>
      if s.wafer.refuses m.dst then .next (s.refuse m)
      else
        let s := (s.dropMsg n).focus m.dst
        .next (s.modBars (fun x => { x with mirrors := x.mirrors.map (fun y =>
          let ahead := (count - y.notices).toNat
          if y.kernel = kernel ∧ y.n = b ∧ (y.st = .uninit ∨ y.level = level) ∧ 0 < ahead ∧ ahead < 32768 then
            { y with st := st, level := level, phase := phase, notices := count } else y) }))
    | _ => .next s

/-! ### BARINIT, BARARV, BARDROP (R393 to R396) -/

/-- A barrier request of a bundle: a held verdict decides it; without one the local checks are made at every attempt (R393), and the request is
sent where it is not on its way. -/
def opBarRequest (p : BitVec 2) (fn : BitVec 2) (n : BitVec 6) (rs : List RegRef) (check : State → Option (BitVec 8))
    (level count : State → Nat) (d : Option (BitVec 5)) : SlotOp :=
  let held (s : State) : Option Verdict := s.ctx.answered fn n
  { slot := 0, pred := p, reads := rs, consumes := fun s => s.anyPoison rs,
    waits := fun s =>
      if (held s).isSome || s.asksBarrier fn n then [] else [.netRoom, .injectable],
    checks := fun s => match held s with | some v => if v.accepted then none else some v.cause | none => check s,
    note := fun s => if (held s).any (fun v => !v.accepted) && !s.anyPoison rs then { s with issue := { s.issue with refused := true } } else s,
    plan := fun s => if (held s).isSome then s
      else { s with issue := { s.issue with ask := some { fn := fn, n := n, level := level s, count := count s } } },
    act := fun s =>
      match held s with
      | none => s
      | some v =>
        let s := s.modCtx (fun c => { c with asked := { c.asked with verdict := none } })
        match d with | some d => s.resultG 0 (.n 1) d (v.phase.setWidth 32) false | none => s }

/-- The mirror of barrier n for the context in focus; none when n is not declared. -/
def State.mirror (s : State) (n : BitVec 6) : Option Mirror := s.tile.mirror s.ctx.life.kernel n.toNat
/-- The view of barrier n for the context in focus. -/
def State.view (s : State) (n : BitVec 6) : Option View := s.tile.view s.ctx.life.kernel s.tag n.toNat

/-- The declared count of barrier n of the context's image. -/
def State.declaredCount (s : State) (n : BitVec 6) : Nat :=
  (((s.wafer.imageOf s.ctx.life.kernel).bind (fun i => i.barriers.find? (fun b => b.1 == n.toNat))).map (·.2)).getD 0

/-- BARINIT (R395). -/
def execBarinit (p : BitVec 2) (a : BitVec 5) (l : BitVec 3) (n : BitVec 6) (s : State) : Result :=
  .next ((opBarRequest p 0 n [.g a]
    (fun s => match s.mirror n with
      | none => some 0x69
      | some m => if m.st ≠ .uninit ∧ m.level ≠ l.toNat then some 0x6C else none)
    (fun _ => l.toNat)
    (fun s => let c := fieldNat (s.g a) 19 0; if c = 0 then s.declaredCount n else c) none).run s)

/-- The local checks of BARARV and BARDROP (R396). -/
def State.arrivalCheck (s : State) (n : BitVec 6) : Option (BitVec 8) :=
  match s.mirror n, s.view n with
  | some m, some v =>
    if m.st = .uninit then some 0x69
    else if v.dropped then some 0x6B
    else if 32768 ≤ (v.v - m.phase).toNat then some 0x68 else none
  | _, _ => some 0x69

/-- The level of an arrival or a drop: that of the mirror. -/
def State.mirrorLevel (s : State) (n : BitVec 6) : Nat := ((s.mirror n).map (·.level)).getD 1

/-- BARARV (R396). -/
def execBararv (p : BitVec 2) (d : BitVec 5) (n : BitVec 6) (s : State) : Result :=
  .next ((opBarRequest p 1 n [] (fun s => s.arrivalCheck n) (fun s => s.mirrorLevel n) (fun _ => 0) (some d)).run s)

/-- BARDROP (R396). -/
def execBardrop (p : BitVec 2) (d : BitVec 5) (n : BitVec 6) (s : State) : Result :=
  .next ((opBarRequest p 2 n [] (fun s => s.arrivalCheck n) (fun s => s.mirrorLevel n) (fun _ => 0) (some d)).run s)

/-! ### BARWAIT and BARTST (R397, R398) -/

/-- BARWAIT (R397, R398): one that the completion notice of a phase lets issue leaves the context's feeds nothing read before, from the
cycle after its issue; one of a tag that has not arrived since its last BARWAIT passes at once and discards nothing. -/
def execBarwait (p : BitVec 2) (n : BitVec 6) (s : State) : Result :=
  .next (SlotOp.run
    { slot := 0, pred := p,
      waits := fun s => match s.mirror n, s.view n with
        | some _, some v => if v.dropped then [] else [.barrier n 3]
        | _, _ => [],
      checks := fun s => match s.mirror n, s.view n with
        | some _, some v => if v.dropped then some 0x6B else none
        | _, _ => some 0x69,
      act := fun s =>
        if (s.view n).any (·.owed) then
          (s.modView s.ctx.life.kernel s.tag n.toNat (fun v => { v with owed := false })).atEnd (.discard s.tag)
        else s } s)

/-- The mirror state code of BARTST. -/
def BarState.code : BarState → Nat
  | .uninit => 0 | .opened => 1 | .closed => 2

/-- BARTST (R397). -/
def execBartst (p : BitVec 2) (d : BitVec 5) (n : BitVec 6) (s : State) : Result :=
  .next (SlotOp.run
    { slot := 0, pred := p,
      act := fun s =>
        let w : Nat := match s.mirror n, s.view n with
          | some m, some v =>
            m.st.code * 2 ^ 30 + bnat v.dropped * 2 ^ 29
              + bnat (!v.dropped && s.tile.barPasses s.ctx.life.kernel s.tag n.toNat) * 2 ^ 28
              + (if m.st = .uninit then 0 else m.level * 2 ^ 16) + m.phase.toNat
          | _, _ => 0
        s.resultG 0 (.n 1) d (BitVec.ofNat 32 w) false } s)

/-- BARTST.view (R397). -/
def execBartstView (p : BitVec 2) (d : BitVec 5) (n : BitVec 6) (s : State) : Result :=
  .next (SlotOp.run
    { slot := 0, pred := p,
      act := fun s => s.resultG 0 (.n 1) d (((s.view n).map (fun v => v.v.setWidth 32)).getD 0) false } s)

end Sys2Proof.Machine
end

