-- ==== Sys2Proof/Machine/Link.lean ====
section
/-! DEFINITION. Thaov ports (chapter 21): striping, replay, wavelengths, port states, flits that arrive, operations between wafers,
stamps, the host's link commands, LKSTAT, LKPARK, LKWAKE, LKSTAMP. -/

namespace Sys2Proof.Machine

/-- Units of wafer.time in a microsecond. -/
def usec : Nat := 10000

/-! ### State codes (Table 21-8) -/

def PortSt.code : PortSt → Nat
  | .dark => 0 | .training => 1 | .active => 2 | .degraded => 3 | .failed => 4
def WaveSt.code : WaveSt → Nat
  | .dark => 0 | .active => 1 | .litIdle => 2 | .parked => 3 | .waking => 4 | .failed => 5

/-- Wavelengths in a mask. -/
def maskCount (m : BitVec 8) : Nat := popCount 8 m.toNat

/-- LKSTS (Table 21-7). -/
def Port.lksts (p : Port) : BitVec 32 :=
  BitVec.ofNat 32 (p.st.code * 2 ^ 28 + maskCount (p.maskOf [.active]) * 2 ^ 24
    + (List.finRange 8).foldl (fun n w => n + (p.waves[w]).st.code * 2 ^ (3 * w.val)) 0)

/-! ### Wavelengths and stripe sets (R476, R481, R482) -/

/-- The wavelengths of a mask changed by f. -/
def Port.modWaves (p : Port) (m : BitVec 8) (f : Wave → Wave) : Port :=
  { p with waves := Vector.ofFn (fun w : Fin 8 => if m.toNat.testBit w.val then f (p.waves[w]) else p.waves[w]) }

/-- A RESTRIPE that names the set the sender wants; one that names no wavelength is never sent (R476). -/
def Port.restripe (p : Port) (t : Clock) : Port := if p.goal = 0 then p else p.send [flitOf 3 p.goal.toNat] t

/-- Wavelengths whose RESTRIPE exchange that adds them is complete. -/
def Wave.join (w : Wave) : Wave := { w with st := .active, addSent := false, addSeen := false, parkSeen := false, waking := none }

/-- LIT_IDLE wavelengths join the sender's stripe set: a RESTRIPE that adds them goes out. While no wavelength is ACTIVE none can carry it,
and each end takes its own up at once. -/
def Port.add (p : Port) (m : BitVec 8) (t : Clock) : Port :=
  if m = 0 then p
  else
    let alone := p.maskOf [.active] = 0
    let p := { p with goal := p.goal ||| m }
    let p := if alone then { (p.modWaves m Wave.join) with txMask := p.goal }
      else p.modWaves m (fun w => if w.addSeen then w.join else { w with addSent := true })
    p.restripe t

/-- A wake request applied at this end (R482): PARKED wavelengths wake, and FAILED ones where the host asks; LIT_IDLE ones join again. -/
def Port.wake (p : Port) (m : BitVec 8) (failedToo : Bool) (t : Clock) : Port :=
  let sleep := m &&& p.maskOf (if failedToo then [.parked, .failed] else [.parked])
  let idle := m &&& p.maskOf [.litIdle]
  let idle := BitVec.ofNat 8 ((List.finRange 8).foldl (fun n w =>
    if idle.toNat.testBit w.val ∧ !(p.waves[w]).addSent then n + 2 ^ w.val else n) 0)
  let p := p.modWaves sleep (fun w => { w with st := .waking, since := t.time, addSent := false, addSeen := false })
  let p := if p.st = .degraded ∧ p.maskOf [.failed] = 0 then { p with st := .active } else p
  p.add idle t

/-- The lowest wavelength of a mask. -/
def lowestWave (m : BitVec 8) : BitVec 8 := m &&& (0 - m)

/-- A park request applied at this end (R482): it acts on ACTIVE wavelengths and leaves one. -/
def Port.park (p : Port) (m : BitVec 8) (t : Clock) : Port :=
  let act := p.maskOf [.active]
  let s := m &&& act
  let s := if s = act then s &&& ~~~ (lowestWave act) else s
  if s = 0 then p
  else
    let p := { p with goal := p.goal &&& ~~~ s }
    (p.modWaves s (fun w => { w with st := .litIdle, addSent := false, addSeen := false })).restripe t

/-! ### What a port tells its watchers (R496) -/

/-- A deferred trap for every tag that watches a port. -/
def State.tellWatchers (s : State) (p : PortId) (code : BitVec 8) : State :=
  let home := s.tile.at'
  (s.tiles.foldl (fun s t => (List.finRange 8).foldl (fun s k =>
    if (t.ctx k).dbg.port = some p then (s.focus t.at').defer k code else s) s) s).focus home

/-! ### A port out of service (R486) -/

/-- Whether a VALID route names a port. -/
def routeNames (e : BitVec 16) (p : PortId) : Bool :=
  e.toNat.testBit 15 && (fieldNat e 5 0 == p.val || (e.toNat.testBit 14 && fieldNat e 13 8 == p.val))

/-- A port enters FAILED or DARK with a reason (R483, R486): wavelengths go dark, its buffers and its hold store are purged, the sources of
purged operations get reason 3, channels that it reached lose their peers, gangs that it cut off are abandoned. -/
def State.downPort (s0 : State) (p : PortId) (st : PortSt) (why : BitVec 8) : State :=
  let home := s0.tile.at'
  let x := s0.port p
  let lost := (x.replay.filterMap (·.op) ++ x.sendq.filterMap (·.op)).eraseDups
  let heldHere (m : Msg) : Bool := m.held && (m.body.foreignOp.any (fun o => o.2 == p))
  let purged := !x.replay.isEmpty || !x.sendq.isEmpty || s0.wafer.net.any heldHere
  let reached := (s0.wafer.links.routes.map (·.1)).filter (fun w => s0.wafer.portTo w == some p)
  let s := s0.modPort p (fun x =>
    { x with
      st := st, since := s0.wafer.time, replay := [], sendq := [], rxCount := 0, rxData := 0, nakAt := none, stampDone := false,
      paused := false, pausedPeer := false, goal := 0, txMask := 0, rxMask := 0,
      regs := { x.regs with why := why, purged := x.regs.purged || purged },
      waves := x.waves.map (fun w => { w with
        st := if w.st = .failed then WaveSt.failed else WaveSt.dark, addSent := false, addSeen := false, parkSeen := false, waking := none }),
      outbound := x.outbound.filter (fun b => !lost.contains b.serial) })
  let s := s.modWafer (fun w => { w with net := w.net.filter (fun m => !heldHere m) })
  let s := (x.outbound.filter (fun b => lost.contains b.serial)).foldl (fun s b =>
    match (s.tileAt b.src).net? b.serial with | some o => s.failOp b.src b.src o 3 | none => s) s
  let s := s.tiles.foldl (fun s t =>
    let es := t.stores.chans.filter (fun e => s.farEnd e && reached.contains e.peerWafer && e.st != .lost)
    if es.isEmpty then s else (s.focus t.at').losePeers es) s
  let cut := s.wafer.links.routes.any (fun r => routeNames r.2 p && (s.wafer.portTo r.1).isNone)
  let gangs := (s.wafer.kernels.map (fun k => recGang k.record)).eraseDups.filter (· != 0)
  let s := if cut then gangs.foldl State.abandonSoon s else s
  (s.focus home).tellWatchers p 0x88

/-- A wavelength fails (R481, R483, R492): the stripe goes on without it; too few left fail the port. -/
def State.failWave (s : State) (p : PortId) (w : Fin 8) : State :=
  let x := s.port p
  let m : BitVec 8 := BitVec.ofNat 8 (2 ^ w.val)
  let st := (x.waves[w]).st
  if st ≠ .active ∧ st ≠ .litIdle ∧ st ≠ .waking then s
  else
    let s := s.modPort p (fun x => x.modWaves m (fun w =>
      { w with st := .failed, addSent := false, addSeen := false, parkSeen := false, waking := none }))
    if !x.carries then s
    else if 8 - maskCount ((s.port p).maskOf [.failed]) < x.regs.minw.toNat then s.downPort p .failed 1
    else
      let t := s.clock
      let s := s.modPort p (fun x =>
        let x := { x with st := .degraded }
        let x := if x.goal &&& m = 0 then x else ({ x with goal := x.goal &&& ~~~ m }).restripe t
        if x.maskOf [.active] = 0 then
          let sleep := x.maskOf [.parked, .litIdle]
          if sleep = 0 then x else (x.send [flitOf 5 sleep.toNat] t).wake sleep false t
        else x)
      s.tellWatchers p 0x89

/-! ### Requests (R482, R484) -/

/-- A wake request made at this end: a WAKE flit to the peer, and the request applied. -/
def State.wakePort (s : State) (p : PortId) (m : BitVec 8) (failedToo : Bool) : State :=
  if m = 0 then s else s.modPort p (fun x => (x.send [flitOf 5 m.toNat] s.clock).wake m failedToo s.clock)

/-- A park request made at this end. -/
def State.parkPort (s : State) (p : PortId) (m : BitVec 8) : State :=
  if m = 0 then s else s.modPort p (fun x => (x.send [flitOf 4 m.toNat] s.clock).park m s.clock)

/-! ### Replay (R478, R480) -/

/-- The sender sends its buffer again from an RSEQ on; nothing while the peer has paused it. -/
def Port.resend (p : Port) (from' : BitVec 16) (t : Clock) : Port :=
  let again := p.replay.filter (fun r => decide ((r.rseq - from').toNat < 32768))
  match again with
  | [] => p
  | r0 :: _ =>
    if p.paused ∨ !p.lit then p
    else
      let p := again.foldl (fun (p : Port) r => p.emit r.flit r.rseq) { p with txMask := r0.set }
      { p with replay := p.replay.map (fun r =>
                 if (r.rseq - from').toNat < 32768 then { r with sent := r.sent + 1, last := t.time } else r),
               regs := { p.regs with rpl := BitVec.ofNat 32 (min (p.regs.rpl.toNat + again.length) 0xFFFFFFFF) } }

/-- Whether a flit of the port has been sent 17 times, or held longer than LKRPLTO (R480). -/
def Port.expired (p : Port) (t : Clock) : Bool :=
  p.carries && !p.paused && p.replay.any (fun r => decide (17 ≤ r.sent) || decide (p.regs.rplto.toNat < t.now - r.since))

/-- A port that has sent a flit 17 times fails. -/
def State.resendPort (s : State) (p : PortId) (from' : BitVec 16) : State :=
  let s := s.modPort p (fun x => x.resend from' s.clock)
  if (s.port p).expired s.clock then s.downPort p .failed 3 else s

/-- The time since which a port waits for a new acknowledgement. -/
def Port.waitsSince (p : Port) : Option Nat := p.replay.head?.map (fun r => max r.last p.ackAt)

/-- REPLAY_TIMEOUT (R478): 2 µs without a new acknowledgement. -/
def execReplayTimeout (port : PortId) (s : State) : Result :=
  match (s.port port).waitsSince, (s.port port).replay.head? with
  | some a, some r => if a + 2 * usec ≤ s.wafer.time then .next (s.resendPort port r.rseq) else .next s
  | _, _ => .next s

/-- NAK_REPEAT (R478): after 2 µs without the expected flit another NAK may go out. -/
def execNakRepeat (port : PortId) (s : State) : Result :=
  match (s.port port).nakAt with
  | some a => if a + 2 * usec ≤ s.wafer.time then .next (s.modPort port (fun x => { x with nakAt := none })) else .next s
  | none => .next s

/-- LKRPLTO_EXPIRY (R480). -/
def execLkrpltoExpiry (port : PortId) (s : State) : Result :=
  if (s.port port).expired s.clock then .next (s.downPort port .failed 3) else .next s

/-- LINK_SILENT (R483): no flit for 10 µs. -/
def execLinkSilent (port : PortId) (s : State) : Result :=
  let x := s.port port
  if x.carries ∧ x.rxAt + 10 * usec ≤ s.wafer.time then .next (s.downPort port .failed 4) else .next s

/-! ### Flits that arrive (R473, R478) -/

/-- The receiver asks for the flit that it expects, once (R478). -/
def Port.nak (p : Port) (t : Clock) : Port :=
  if p.nakAt.isSome then p else { (p.sendNow 2 p.rxSeq.toNat) with nakAt := some t.time }

/-- An ACK field taken: what it names leaves the replay buffer, and what waits may leave. -/
def Port.acked (p : Port) (ack : BitVec 16) (t : Clock) : Port :=
  let kept := p.replay.filter (fun r => decide (32768 ≤ (ack - r.rseq).toNat))
  let p := if kept.length < p.replay.length then { p with replay := kept, ackAt := t.time } else p
  ({ p with sendq := [] }).pump t p.sendq

/-- A flit of a kind reaches a port: lost ones are discarded and asked for again; replayed ones are delivered to act in the order of
RSEQ, once, and acknowledged at once. -/
def State.flitIn (s : State) (p : PortId) (kind : Nat) (f : BitVec 1024) (lost : Bool) (act : State → State) : State :=
  let x := s.port p
  let t := s.clock
  if x.st = .dark ∨ x.st = .failed then s
  else if lost ∨ flitKind f ≠ kind ∨ fieldNat f 1023 992 ≠ (flitCrc f).toNat then s.modPort p (fun x => x.nak t)
  else
    let s := s.modPort p (fun x => ({ x with rxAt := t.time }).acked (flitAck f) t)
    if !replayedKind kind then act s
    else if flitRseq f ≠ x.rxSeq then s.modPort p (fun x => x.nak t)
    else
      let before := (s.port p).fibre.length
      let s := act (s.modPort p (fun x => { x with rxSeq := x.rxSeq + 1, rxAck := flitRseq f, nakAt := none }))
      if (s.port p).fibre.length = before then s.modPort p (fun x => x.sendNow 0 0) else s

/-- FLIT_IDLE (R478). -/
def execFlitIdle (port : PortId) (flit : BitVec 1024) (lost : Bool) (s : State) : Result := .next (s.flitIn port 0 flit lost id)

/-- FLIT_NAK (R478): the buffer is sent again from the RSEQ named. -/
def execFlitNak (port : PortId) (flit : BitVec 1024) (lost : Bool) (s : State) : Result :=
  .next (s.flitIn port 2 flit lost (fun s => s.resendPort port (BitVec.ofNat 16 (flitPayload flit))))

/-- FLIT_PAUSE (R480). -/
def execFlitPause (port : PortId) (flit : BitVec 1024) (lost : Bool) (s : State) : Result :=
  .next (s.flitIn port 9 flit lost (fun s => s.modPort port (fun x =>
    if x.paused then x else { x with paused := true, pausedAt := s.now })))

/-- FLIT_UNPAUSE (R480): the time of the pause counts for no flit. -/
def execFlitUnpause (port : PortId) (flit : BitVec 1024) (lost : Bool) (s : State) : Result :=
  .next (s.flitIn port 10 flit lost (fun s => s.modPort port (fun x =>
    if x.paused then
      let x := { x with paused := false, ackAt := s.wafer.time,
                        replay := x.replay.map (fun (r : Replay) => { r with since := r.since + (s.now - x.pausedAt) }) }
      ({ x with sendq := [] }).pump s.clock x.sendq
    else x)))

/-- FLIT_PARK (R482): the peer's park request is applied. -/
def execFlitPark (port : PortId) (flit : BitVec 1024) (lost : Bool) (s : State) : Result :=
  .next (s.flitIn port 4 flit lost (fun s =>
    let m : BitVec 8 := BitVec.ofNat 8 (flitPayload flit)
    s.modPort port (fun x =>
      let x := x.park m s.clock
      x.modWaves (m &&& x.maskOf [.active]) (fun w => { w with parkSeen := true }))))

/-- FLIT_WAKE (R482). -/
def execFlitWake (port : PortId) (flit : BitVec 1024) (lost : Bool) (s : State) : Result :=
  .next (s.flitIn port 5 flit lost (fun s => s.modPort port (fun x => x.wake (BitVec.ofNat 8 (flitPayload flit)) false s.clock)))

/-- The wavelengths of a mask one by one. -/
def wavesOf (m : BitVec 8) : List (Fin 8) := (List.finRange 8).filter (fun w => m.toNat.testBit w.val)

/-- A RESTRIPE of the peer is taken (R476, R481): what it adds becomes ACTIVE where this end adds it too; what it removes under a park is
PARKED; an ACTIVE wavelength that it removes has failed at the peer, unless this end keeps it as its last against a park. -/
def State.restriped (s : State) (p : PortId) (m : BitVec 8) : State :=
  let t := s.clock
  let x := s.port p
  let added := m &&& ~~~ x.rxMask
  let removed := x.rxMask &&& ~~~ m
  let s := s.modPort p (fun x =>
    let x := { x with rxMask := m }
    let x := x.wake (added &&& x.maskOf [.parked]) false t
    let x := x.modWaves (added &&& x.maskOf [.waking]) (fun w => { w with addSeen := true })
    let idle := added &&& x.maskOf [.litIdle]
    let x := x.modWaves idle (fun w => if w.addSent then w.join else { w with addSeen := true })
    let x := x.add (idle &&& x.maskOf [.litIdle]) t
    x.modWaves (removed &&& x.maskOf [.litIdle]) (fun w => if w.addSent then w else { w with st := .parked, addSeen := false }))
  (wavesOf (removed &&& (s.port p).maskOf [.active])).foldl (fun s w =>
    let b : BitVec 8 := BitVec.ofNat 8 (2 ^ w.val)
    if ((s.port p).waves[w]).parkSeen then
      s.modPort p (fun x => ((x.modWaves b (fun w => { w with parkSeen := false })).send [flitOf 5 b.toNat] t).restripe t)
    else s.failWave p w) s

/-- FLIT_RESTRIPE (R476). -/
def execFlitRestripe (port : PortId) (flit : BitVec 1024) (lost : Bool) (s : State) : Result :=
  .next (s.flitIn port 3 flit lost (fun s => s.restriped port (BitVec.ofNat 8 (flitPayload flit))))

/-! ### Stamps (R489) and TRAINING (R483, R487) -/

/-- A STAMP sent: CYCLE now, and what was received of the peer's last one. -/
def State.sendStamp (s : State) (p : PortId) : State :=
  s.modPort p (fun x =>
    let g := x.stampGot.getD (0, 0)
    x.sendNow 6 (s.wafer.cycle.toNat + g.1.toNat * 2 ^ 64 + g.2.toNat * 2 ^ 128))

/-- The wavelengths lit when TRAINING ends become ACTIVE together, the others FAILED (Table 21-5). -/
def Port.trained (p : Port) (t : Clock) : Port :=
  let lit := p.maskOf [.litIdle]
  let p := (p.modWaves lit Wave.join).modWaves (~~~ lit) (fun w => { w with st := .failed, waking := none })
  { p with st := if lit = 0xFF then .active else .degraded, since := t.time, txNum := 0, txMask := lit, goal := lit, rxMask := lit,
           rxAt := t.time, stampDone := false, idleGrains := 0 }

/-- TRAINING ends when every wavelength is lit and both exchanges are made, or after 100 µs (Table 21-5). -/
def State.endTraining (s : State) (p : PortId) : State :=
  let x := s.port p
  let lit := x.maskOf [.litIdle]
  let done := x.identOk && x.stampDone
  if x.st ≠ .training then s
  else if lit = 0xFF ∧ done ∨ x.since + 100 * usec ≤ s.wafer.time then
    if maskCount lit < x.regs.minw.toNat then s.downPort p .failed 1
    else if !done then s.downPort p .failed 2
    else
      let s := (s.modPort p (fun x => x.trained s.clock)).sendStamp p
      let s := s.modPort p (fun x => ({ x with sendq := [] }).pump s.clock x.sendq)
      if (s.port p).st = .degraded then s.tellWatchers p 0x89 else s
  else s

/-- TRAINING_END (R483). -/
def execTrainingEnd (port : PortId) (s : State) : Result := .next (s.endTraining port)

/-- FLIT_STAMP (R489): with its answer to a STAMP of this end the exchange is complete; in TRAINING a first STAMP is answered at once. -/
def execFlitStamp (port : PortId) (flit : BitVec 1024) (lost : Bool) (s : State) : Result :=
  .next (s.flitIn port 6 flit lost (fun s =>
    let t3 : BitVec 64 := BitVec.ofNat 64 (flitPayload flit)
    let t2 : BitVec 64 := BitVec.ofNat 64 (flitPayload flit >>> 64)
    let t1 : BitVec 64 := BitVec.ofNat 64 (flitPayload flit >>> 128)
    let t4 := s.wafer.cycle
    let echo := t1 != 0 || t2 != 0
    let a := (t2 - t1).toInt
    let b := (t4 - t3).toInt
    let s := s.modPort port (fun x =>
      let x := { x with stampGot := some (t4, t3) }
      if echo then { x with stampDone := true, regs := { x.regs with off := BitVec.ofInt 32 ((a - b).fdiv 2),
                                                                     dly := BitVec.ofInt 32 ((a + b).fdiv 2) } }
      else x)
    let s := if (s.port port).st = .training ∧ !echo then s.sendStamp port else s
    s.endTraining port))

/-- STAMP_SEND (R482, R489): once in each grain; a grain without DATA counts for the idle policy. -/
def execStampSend (port : PortId) (s : State) : Result :=
  if !(s.port port).carries then .next s
  else .next ((s.sendStamp port).modPort port (fun x =>
    { x with carried := false, idleGrains := if x.carried then 0 else x.idleGrains + 1 }))

/-- FLIT_IDENT (R487): the peer's wafer, port and world; one that LKPEER does not expect fails the port with reason 2, a world that
differs with reason 7. -/
def execFlitIdent (port : PortId) (flit : BitVec 1024) (lost : Bool) (s : State) : Result :=
  .next (s.flitIn port 8 flit lost (fun s =>
    let d := flitPayload flit
    let wafer := d % 65536
    let peer := d / 65536 % 256
    let sec := (d / 2 ^ 24).testBit 0
    let x := s.port port
    let want := x.regs.peer
    let known := want.toNat.testBit 7 || (fieldNat want 31 16 == wafer && fieldNat want 5 0 == peer)
    let s := s.modPort port (fun x => { x with regs := { x.regs with
      peerA := BitVec.ofNat 32 (wafer * 65536 + (if sec then 64 else 0) + peer % 64) } })
    if x.st ≠ .training then s
    else if !known then s.downPort port .failed 2
    else if sec ≠ x.regs.sec then s.downPort port .failed 7
    else (s.modPort port (fun x => { x with identOk := true })).endTraining port))

/-- WAVELENGTH_LIT (R481): a waking wavelength is lit within 20 µs; outside TRAINING it joins the stripe. With the first one lit in
TRAINING this end sends its IDENT and its first STAMP. -/
def execWavelengthLit (port : PortId) (w : Fin 8) (s : State) : Result :=
  let x := s.port port
  let v := x.waves[w]
  let m : BitVec 8 := BitVec.ofNat 8 (2 ^ w.val)
  if v.st ≠ .waking ∨ v.since + 20 * usec < s.wafer.time then .next s
  else
    let first := x.maskOf [.litIdle] = 0
    let s := s.modPort port (fun x => x.modWaves m (fun w => { w with st := .litIdle, waking := none }))
    if x.st = .training then
      let s := if first then
          (s.modPort port (fun x => x.send [flitOf 8 (s.wafer.links.wafer.toNat + port.val * 2 ^ 16 + bnat x.regs.sec * 2 ^ 24)]
            s.clock)).sendStamp port else s
      .next (s.endTraining port)
    else .next (s.modPort port (fun x => x.add m s.clock))

/-- WAVELENGTH_WAKE_TIMEOUT (R481, R497): a wavelength not lit in 20 µs fails; the tag that woke it takes the deferred 0x8A. -/
def execWavelengthWakeTimeout (port : PortId) (w : Fin 8) (s : State) : Result :=
  let v := (s.port port).waves[w]
  if v.st ≠ .waking ∨ s.wafer.time < v.since + 20 * usec then .next s
  else
    let home := s.tile.at'
    let s := match v.waking with | some (c, k) => ((s.focus c).defer k 0x8A).focus home | none => s
    .next (s.failWave port w)

/-- Whether what a wavelength reported in the last grain is a fault (R492). -/
def Port.faulty (p : Port) (w : Fin 8) : Bool :=
  let v := p.waves[w]
  decide (p.regs.fecth.toNat < v.uncorrected.toNat) || decide (p.regs.bmax.toNat < v.bias.toNat)
    || decide (v.power.toInt < ((p.regs.pmin.setWidth 16 : BitVec 16)).toInt)

/-- WAVELENGTH_FAULT (R492): a fault of the last grain, or a signal lost for more than 1 µs. -/
def execWavelengthFault (port : PortId) (w : Fin 8) (signalLost : Bool) (s : State) : Result :=
  if signalLost ∨ (s.port port).faulty w then .next (s.failWave port w) else .next s

/-! ### Lasers (R491, R492) -/

/-- Grains in a sixteenth of an hour, and in an hour. -/
def hrsGrains : Nat := 225000
def grainsPerHour : Nat := 3600000

/-- A tap moved one step up or down (R492). -/
def tapStep (v : Int) (up down : Bool) : Int := v + (if up then 1 else 0) - (if down then 1 else 0)

/-- LKEOL (R491): the projection from the rise of the bias over the last 16,000 units of LKHRS. -/
def lkeol (hrs : BitVec 32) (bias : BitVec 16) (bmax : BitVec 32) (history : List (BitVec 32 × BitVec 16)) : BitVec 32 :=
  match (history.filter (fun e => decide (e.1.toNat + 16000 ≤ hrs.toNat))).getLast? with
  | none => 0xFFFFFFFF
  | some (_, b) =>
    let s : Int := bias.toNat - b.toNat
    if hrs.toNat < 16000 ∨ s ≤ 0 then 0xFFFFFFFF
    else BitVec.ofInt 32 (hrs.toNat + (16000 * ((bmax.toNat : Int) - bias.toNat)).fdiv s)

/-- The laser report and the FEC counts of a wavelength at the end of a grain. -/
def Wave.grain (v : Wave) (bmax : BitVec 32) (bias power corrected uncorrected : BitVec 16) (up down : BitVec 5) : Wave :=
  let lit := v.st == .active || v.st == .litIdle || v.st == .waking
  let on := v.onTime + (if lit then 1 else 0)
  let hrs : BitVec 32 := BitVec.ofNat 32 (on / hrsGrains)
  let hour := decide (grainsPerHour ≤ v.hourGrains + 1)
  let history := if hour then v.history ++ [(hrs, bias)] else v.history
  { v with
    bias := bias, power := power, corrected := corrected, uncorrected := uncorrected, onTime := on, hrs := hrs,
    hourGrains := if hour then 0 else v.hourGrains + 1, history := history,
    eol := if hour then lkeol hrs bias bmax history else v.eol,
    taps := Vector.ofFn (fun k : Fin 5 => tapStep (v.taps[k]) (up.toNat.testBit k.val) (down.toNat.testBit k.val)) }

/-- WAVELENGTH_GRAIN (R477, R491, R492): the counts and reports of a grain; a fault among them fails the wavelength. -/
def execWavelengthGrain (port : PortId) (w : Fin 8) (bias power corrected uncorrected : BitVec 16) (tapsUp tapsDown : BitVec 5) (s : State) :
    Result :=
  let m : BitVec 8 := BitVec.ofNat 8 (2 ^ w.val)
  let s := s.modPort port (fun x => x.modWaves m (fun v => v.grain x.regs.bmax bias power corrected uncorrected tapsUp tapsDown))
  if (s.port port).faulty w then .next (s.failWave port w) else .next s

/-! ### Operations from another wafer (R474, R485, R487) -/

/-- An operation that cannot go on is answered with a fault record, where its source can be reached. -/
def State.bounce (s : State) (o : WireOp) (reason : Nat) : State :=
  if 6 < o.kind then s
  else
    match s.wafer.portTo o.wafer with
    | none => s
    | some p =>
      let a := o.addr.toNat
      let rec' := a % 2 ^ 64 + (gaWafer o.addr + reason * 2 ^ 16) * 2 ^ 64 + o.pc * 2 ^ 96
      s.sendWire p { o with addr := BitVec.ofNat 80 (o.wafer * 2 ^ 64 + a % 2 ^ 64), wafer := s.wafer.links.wafer.toNat, kind := 8, beats := 1 }
        rec' none

/-- The bytes of n beats. -/
def beatList (d : Nat) : Nat → List (BitVec 512)
  | 0 => []
  | n + 1 => BitVec.ofNat 512 d :: beatList (d / 2 ^ 512) n

/-- The operation that a request header stands for on this wafer, under a free ASID. -/
def WireOp.remote (o : WireOp) (p : PortId) (serial asid : Nat) (secure : Bool) (data : Nat) : RemoteOp :=
  let kind : NetKind := match o.kind with | 0 => .rst | 1 => .radd | 2 => .radd | 3 => .rget | 4 => .ramo | 5 => .chsend | _ => .hmsg
  { serial := serial, kind := kind, tag := Fin.ofNat 8 o.tag, pc := BitVec.ofNat 14 (o.pc / 16), pcFull := BitVec.ofNat 32 o.pc,
    addr := o.addr, secure := secure, nt := o.nt, data := BitVec.ofNat 4096 data, isI32 := o.kind == 2, col := o.col,
    fn := BitVec.ofNat 4 o.fn, b0 := BitVec.ofNat 32 data, b1 := BitVec.ofNat 32 (data / 2 ^ 32),
    units := match kind with | .rget => o.fn % 64 + 1 | .hmsg => o.beats | _ => 1, ord := (if o.rel then 1 else if o.acq then 2 else 0),
    scope := o.scope, injected := true, channel := BitVec.ofNat 12 o.word, dst := gaTile o.addr, asid := asid,
    bytes := if kind = .hmsg then beatList data o.beats else [], handler := BitVec.ofNat 32 o.word, foreign := some o.wafer, via := some p,
    wire := o.serial }

/-- The kernel of a GANG on a tile, the earliest dispatched; a number that no kernel has yet where none is there (R407, R417). -/
def State.gangKernel (s : State) (c : TileId) (gang : BitVec 64) : Nat :=
  (((s.tileAt c).kernels.map (·.kernel)).find? (fun n => (s.wafer.kernel? n).any (fun k => recGang k.record == gang))).getD s.wafer.nextSeq

/-- A request of another wafer goes to its target tile. The link carries neither the GANG nor the kernel of a sender (Table 21-3): they are free
values. -/
def State.requestIn (s : State) (p : PortId) (o : WireOp) (secure : Bool) (data : Nat) : State :=
  match s.freeVal 12 with
  | (asid, s) =>
    let n := s.wafer.nextMsg
    let s := s.modWafer (fun w => { w with nextMsg := n + 1 })
    let r := o.remote p n asid.toNat secure data
    let src : TileId := ⟨o.x, o.y⟩
    let dst := gaTile o.addr
    match r.kind with
    | .chsend =>
      match s.freeVal 64 with
      | (gang, s) => match s.freeVal 32 with
        | (k, s) => s.postFree src dst (.chanMsg { r with gang := gang, kernel := k.toNat })
    | .hmsg =>
      match s.freeVal 64 with
      | (gang, s) => s.postFree src dst (.hmsg { r with gang := gang, kernel := s.gangKernel dst gang })
    | _ => s.postFree src (if gaSpace o.addr = 8 then src else dst) (.op r)

/-- An answer of another wafer goes to the operation that it names (R164 to R166). -/
def State.answerIn (s : State) (o : WireOp) (data : Nat) : State :=
  let src : TileId := ⟨o.x, o.y⟩
  let mine (b : Outbound) : Bool := b.wire == o.serial && b.src == src
  match (List.finRange 64).findSome? (fun p => ((s.port p).outbound.find? mine).map (fun b => (p, b))) with
  | none => s
  | some (p, b) =>
    let close (s : State) : State := s.modPort p (fun x => { x with outbound := x.outbound.erase b })
    match (s.tileAt b.src).net? b.serial with
    | none => close s
    | some r =>
      let mine (e : ChanEnd) : Bool := r.kind == .chsend && e.send && e.kernel == r.kernel && e.n == r.channel.toNat
      if r.failing then close s
      else if o.kind = 7 then
        let last := r.kind != .rget || decide (r.units ≤ o.fn + 1)
        let body : MsgBody := match r.kind with
          | .rget => .unit r.tag r.serial { word := rqWord false true 0 (o.fn * 2 ^ 16 + r.tagLow.toNat), data := some (BitVec.ofNat 4096 data) } last
          | .ramo => .unit r.tag r.serial { word := rqWord false true 1 r.pc.toNat, data := some (lanesOf [data % 2 ^ 32]) } last
          | _ => .done r.tag r.serial none
        let s := (s.postFree src src body).modTileAt src (fun t => { t with stores := { t.stores with chans := t.stores.chans.map (fun e =>
          if mine e then { e with farTaken := e.farTaken + 1 } else e) } })
        if last then ((close s).modNet src r.serial (fun x => { x with performed := true })).acquireDone src r else s
      else
        let reason := data / 2 ^ 80 % 2 ^ 16
        let s := (close s).failOp src src r reason
        if reason = 3 then
          let home := s.tile.at'
          let s := s.focus src
          (s.losePeers (s.tile.stores.chans.filter mine)).focus home
        else s

/-- A whole operation has arrived: it is for this wafer, or goes on by the route table (R485); what came through a non-secure port is
non-secure (R487). -/
def State.wireIn (s : State) (p : PortId) (o : WireOp) (data : Nat) : State :=
  let secure := o.sec && (s.port p).regs.sec
  if 9 < o.kind then s
  else if s.ownWafer o.addr then
    if 7 ≤ o.kind then s.answerIn o data else s.requestIn p o secure data
  else
    match s.wafer.portTo (gaWafer o.addr) with
    | none => s.bounce o 3
    | some q =>
      if o.kind ≤ 6 ∧ (s.port q).regs.sec ∧ !secure then s.bounce o 2 else s.sendWire q { o with sec := secure } data none

/-- FLIT_DATA (R474, R478): the flits of an operation are put together in order. -/
def execFlitData (port : PortId) (flit : BitVec 1024) (lost : Bool) (s : State) : Result :=
  .next (s.flitIn port 1 flit lost (fun s =>
    let x := s.port port
    let d := x.rxData + flitPayload flit * 2 ^ (928 * x.rxCount)
    let o := WireOp.read d
    if (32 + 64 * o.beats + 115) / 116 ≤ x.rxCount + 1 then
      (s.modPort port (fun x => { x with carried := true, rxData := 0, rxCount := 0 })).wireIn port o (d / 2 ^ 256 % 2 ^ (512 * o.beats))
    else s.modPort port (fun x => { x with carried := true, rxData := d, rxCount := x.rxCount + 1 })))

/-- FLIT_NOTICE (R488): a notice for this wafer is taken, another goes on by the route table. -/
def execFlitNotice (port : PortId) (flit : BitVec 1024) (lost : Bool) (s : State) : Result :=
  .next (s.flitIn port 7 flit lost (fun s =>
    let d := flitPayload flit
    let gang : BitVec 64 := BitVec.ofNat 64 (d >>> 64)
    let src : BitVec 16 := BitVec.ofNat 16 (d >>> 128)
    let dst := d / 2 ^ 144 % 65536
    let addr : BitVec 80 := BitVec.ofNat 80 (d >>> 160)
    let held (b : Bool) (s : State) : State := s.mapTiles (fun t => { t with netq := t.netq.map (fun o =>
      if o.addr = addr ∧ o.injected then { o with held := b } else o) })
    if dst ≠ s.wafer.links.wafer.toNat then
      match s.wafer.portTo dst with | some q => s.modPort q (fun x => x.send [flitOf 7 d] s.clock) | none => s
    else
      match d % 256 with
      | 0 => s.startNotice gang src
      | 1 => s.abandonSoon gang
      | 2 => held true s
      | 3 => held false s
      | _ => s))

/-! ### Policy (R482) -/

/-- LINK_POLICY_PARK (R482): after IDLEG grains without DATA. -/
def execLinkPolicyPark (port : PortId) (s : State) : Result :=
  let x := s.port port
  let grains := fieldNat x.regs.pol 31 16
  if !x.carries ∨ grains = 0 ∨ x.idleGrains < grains then .next s
  else .next ((s.modPort port (fun x => { x with idleGrains := 0 })).parkPort port (x.regs.pol.extractLsb' 8 8))

/-- LINK_POLICY_WAKE (R482): with more than 16 x WAKEQ flits waiting, where it finds a wavelength to wake. -/
def execLinkPolicyWake (port : PortId) (s : State) : Result :=
  let x := s.port port
  let q := fieldNat x.regs.pol 7 0
  let m := x.regs.pol.extractLsb' 8 8 &&& x.maskOf [.parked, .litIdle]
  if !x.carries ∨ q = 0 ∨ x.sendq.length ≤ 16 * q ∨ m = 0 then .next s else .next (s.wakePort port (x.regs.pol.extractLsb' 8 8) false)

/-! ### The host's link commands (R483, R493, R494) -/

/-- Whether a host function may not write a port's registers; HOST_WORLD is then recorded (R493). -/
def State.portDenied (s : State) (p : PortId) (secureFn : Bool) : Bool := (s.port p).regs.sec && !secureFn

/-- LINK_TRAIN (R483): from DARK or FAILED. -/
def execLinkTrain (port : PortId) (secureFn : Bool) (s : State) : Result :=
  s.hostWrites (0x70000 + 0x100 * port.val) fun s =>
  let x := s.port port
  if s.portDenied port secureFn then .next (s.hostEvent 0x96)
  else if x.st ≠ .dark ∧ x.st ≠ .failed then .next s
  else .next (s.modPort port (fun x =>
    { x with
      st := .training, since := s.wafer.time, txNum := 0, txSeq := 0, rxSeq := 0, rxAck := 0xFFFF, identOk := false, stampDone := false,
      stampGot := none,
      waves := x.waves.map (fun w => if w.st = .dark then { w with st := .waking, since := s.wafer.time } else w) }))

/-- LINK_DARKEN (R483): as a failure, with reason 5. -/
def execLinkDarken (port : PortId) (secureFn : Bool) (s : State) : Result :=
  s.hostWrites (0x70000 + 0x100 * port.val) fun s =>
  let x := s.port port
  if s.portDenied port secureFn then .next (s.hostEvent 0x96)
  else if x.carries ∨ x.st = .failed then .next (s.downPort port .dark 5)
  else .next s

/-- LKWCMD_WAKE (R482): the host's wake request, FAILED wavelengths included while the port carries traffic. -/
def execLkwcmdWake (port : PortId) (mask : BitVec 8) (secureFn : Bool) (s : State) : Result :=
  s.hostWrites (0x70018 + 0x100 * port.val) fun s =>
  if s.portDenied port secureFn then .next (s.hostEvent 0x96)
  else if (s.port port).carries then .next (s.wakePort port mask true)
  else .next s

/-- LKWCMD_PARK (R482). -/
def execLkwcmdPark (port : PortId) (mask : BitVec 8) (secureFn : Bool) (s : State) : Result :=
  s.hostWrites (0x70018 + 0x100 * port.val) fun s =>
  if s.portDenied port secureFn then .next (s.hostEvent 0x96)
  else if (s.port port).carries then .next (s.parkPort port mask)
  else .next s

/-- LKWAFER_WRITE (R493): ignored while any port is not DARK; 0xFFFF is no wafer number. -/
def execLkwaferWrite (value : BitVec 32) (s : State) : Result :=
  s.hostWrites 0xA00 fun s =>
  let n : BitVec 16 := value.setWidth 16
  if (List.finRange 64).any (fun p => (s.port p).st != .dark) ∨ n = 0xFFFF then .next s
  else .next (s.modWafer (fun w => { w with links := { w.links with wafer := n } }))

/-- What a host read returned. -/
def State.hostRead (s : State) (v : BitVec 64) : State := s.modWafer (fun w => { w with host := { w.host with readOut := v } })

/-- LKWHY_READ (R494): a read clears it. -/
def execLkwhyRead (port : PortId) (_secureFn : Bool) (s : State) : Result :=
  let r := (s.port port).regs
  let v : BitVec 64 := BitVec.ofNat 64 (r.why.toNat + if r.purged then 0x8E00 else 0)
  .next ((s.modPort port (fun x => { x with regs := { x.regs with why := 0, purged := false } })).hostRead v)

/-- LKRPL_READ (R494): a read clears it. -/
def execLkrplRead (port : PortId) (_secureFn : Bool) (s : State) : Result :=
  let v : BitVec 64 := (s.port port).regs.rpl.setWidth 64
  .next ((s.modPort port (fun x => { x with regs := { x.regs with rpl := 0 } })).hostRead v)

/-! ### Time (R490) -/

/-- The offset to the time parent that this wafer can correct by. -/
def Wafer.timeOffset (w : Wafer) : Option Int :=
  let p := w.links.ports[(Fin.ofNat 64 (fieldNat w.links.time 5 0) : PortId)]
  if w.links.time.toNat.testBit 6 || !p.carries then none else some p.regs.off.toInt

/-- Whether the wafer holds no context and every launch queue is DISABLED. -/
def State.waferIdle (s : State) : Bool :=
  s.tiles.all (fun t => t.ctxs.toList.all (fun c => c.life.st == .empty)) && s.wafer.queues.toList.all (fun q => q.st == .disabled)

/-- The offset of the time-parent port after a correction by d. -/
def Wafer.corrected (w : Wafer) (d : Int) : Wafer :=
  w.modPort (Fin.ofNat 64 (fieldNat w.links.time 5 0)) (fun x => { x with regs := { x.regs with off := BitVec.ofInt 32 (x.regs.off.toInt - d) } })

/-- TIME_STEP (R490): the first correction after a cruise, in the first cycle after the exchange in which the wafer is idle; one that
had to wait is made only for more than 1,024 cycles. -/
def execTimeStep (s : State) : Result :=
  let p := s.port (Fin.ofNat 64 (fieldNat s.wafer.links.time 5 0))
  match s.wafer.timeOffset with
  | none => .next s
  | some d =>
    if s.wafer.links.stepDone ∨ !p.stampDone then .next s
    else if !s.waferIdle then .next (s.modWafer (fun w => { w with links := { w.links with stepWaits := true } }))
    else if s.wafer.links.stepWaits ∧ d.natAbs ≤ 1024 then
      .next (s.modWafer (fun w => { w with links := { w.links with stepDone := true, stepWaits := false } }))
    else
      .next ((s.modWafer (fun w =>
        let w := w.corrected d
        { w with cycle := w.cycle + BitVec.ofInt 64 d, links := { w.links with stepDone := true, stepWaits := false } })).moveEpochs (fun _ => true) d)

/-- Whether some reticle has corrected its own CYCLE, or has drifted, within the last 1,024 cycles (R461). -/
def State.lately (s : State) : Bool :=
  s.wafer.cruise.reticles.toList.any (fun x => x.st == .ready && decide (s.now < x.clock.lastCorr + 1024))

/-- The correction that the wafer makes to its next increment of CYCLE: 1 more, 1 less or none, at most once in 1,024 cycles, once the
step has been made, waits or is not to be made (R490). No tile's count is corrected twice within 1,024 cycles (R34): DEDUCED, log 172. -/
def State.slewCycle (s : State) : Int × State :=
  match s.wafer.timeOffset with
  | none => (0, s)
  | some d =>
    if d = 0 ∨ !(s.wafer.links.stepDone || s.wafer.links.stepWaits) ∨ s.now < s.wafer.links.lastCorr + 1024 ∨ s.lately then (0, s)
    else
      let e : Int := if 0 < d then 1 else -1
      (e, (s.modWafer (fun w => let w := w.corrected e; { w with links := { w.links with lastCorr := s.now } })).moveEpochs (fun _ => true) e)

/-! ### What a port has to do in a cycle -/

/-- Whether a wavelength's 20 µs are over. -/
def Wave.late (v : Wave) (time : Nat) : Bool := v.st == .waking && decide (v.since + 20 * usec ≤ time)

/-- The steps of a port that are due; grain says that a grain has ended (R478, R480 to R483, R489). -/
def Port.due (x : Port) (p : PortId) (t : Clock) (grain : Bool) : List Auto :=
  if x.st = .dark ∨ x.st = .failed then []
  else
    (if x.expired t then [.lkrpltoExpiry p] else [])
      ++ (if x.carries && decide (x.rxAt + 10 * usec ≤ t.time) then [.linkSilent p] else [])
      ++ (wavesOf (x.maskOf [.waking])).flatMap (fun w => if (x.waves[w]).late t.time then [.wavelengthWakeTimeout p w] else [])
      ++ (if x.st = .training && decide (x.since + 100 * usec ≤ t.time) then [.trainingEnd p] else [])
      ++ (if x.waitsSince.any (fun a => decide (a + 2 * usec ≤ t.time)) && !x.paused then [.replayTimeout p] else [])
      ++ (if x.nakAt.any (fun a => decide (a + 2 * usec ≤ t.time)) then [.nakRepeat p] else [])
      ++ (if grain && x.carries then [.stampSend p, .linkPolicyPark p] else [])
      ++ (if fieldNat x.regs.pol 7 0 ≠ 0 && decide (16 * fieldNat x.regs.pol 7 0 < x.sendq.length) then [.linkPolicyWake p] else [])

/-! ### LKSTAT, LKPARK, LKWAKE, LKSTAMP (R495 to R498) -/

/-- The port that ga names. -/
def State.portOf (s : State) (a : BitVec 5) : PortId := Fin.ofNat 64 (s.g a).toNat

/-- LKSTS as it stood at the start of the cycle (R496). -/
def State.lkstsAt (s : State) (p : PortId) : BitVec 32 :=
  match s.wafer.links.was.find? (fun e => e.1 == p && e.2.1 == s.now) with | some e => e.2.2 | none => (s.port p).lksts

/-- LKSTS kept before a link instruction changes the port. -/
def State.keepLksts (s : State) (p : PortId) : State :=
  if s.wafer.links.was.any (fun e => e.1 == p && e.2.1 == s.now) then s
  else s.modWafer (fun w => { w with links := { w.links with
    was := (p, s.now, (s.port p).lksts) :: w.links.was.filter (fun e => e.2.1 == s.now) } })

/-- Whether a context may not touch a secure port. -/
def State.portForeign (s : State) (p : PortId) : Bool := (s.port p).regs.sec && !s.ctx.life.secure

/-- LKSTAT (R496): w is 0 none, 1 watch, 2 unwatch. -/
def execLkstat (p : BitVec 2) (d a : BitVec 5) (w : BitVec 2) (s : State) : Result :=
  .next (SlotOp.run
    { slot := 0, pred := p, reads := [.g a],
      checks := fun s =>
        if s.anyPoison [.g a] then none
        else if 64 ≤ (s.g a).toNat then some 0x8F
        else if w = 1 ∧ s.portForeign (s.portOf a) then some 0x8C else none,
      act := fun s =>
        let bad := s.anyPoison [.g a]
        let q := s.portOf a
        let v := if s.portForeign q then 0 else s.lkstsAt q
        let s := if bad ∨ w = 0 then s
          else if w = 1 then s.modCtx (fun c => { c with dbg := { c.dbg with port := some q } })
          else s.modCtx (fun c => { c with dbg := { c.dbg with port := none } })
        s.resultG 0 (.n 1) d v bad } s)

/-- LKPARK and LKWAKE: the wavelengths that sts selects, the check that turns a request away, and the request. -/
def opLinkRequest (p : BitVec 2) (d a : BitVec 5) (m : BitVec 8) (sts : List WaveSt) (check : BitVec 8 → BitVec 8 → Option (BitVec 8))
    (make : State → PortId → BitVec 8 → State) : SlotOp :=
  { slot := 0, pred := p, reads := [.g a], consumes := fun s => s.anyPoison [.g a],
    checks := fun s =>
      let q := s.portOf a
      let x := s.port q
      if 64 ≤ (s.g a).toNat then some 0x8F
      else if !x.regs.devctl ∨ s.portForeign q then some 0x8C
      else if x.carries then check (m &&& x.maskOf sts) (x.maskOf [.active]) else none,
    act := fun s =>
      let q := s.portOf a
      let x := s.port q
      if !x.carries then s.resultG 0 (.n 1) d 0 false
      else
        let w := m &&& x.maskOf sts
        (make (s.keepLksts q) q w).resultG 0 (.n 1) d (w.setWidth 32) false }

/-- LKPARK (R497). -/
def execLkpark (p : BitVec 2) (d a : BitVec 5) (m : BitVec 8) (s : State) : Result :=
  .next ((opLinkRequest p d a m [.active] (fun w all => if w = all then some 0x8B else none) (fun s q w => s.parkPort q w)).run s)

/-- LKWAKE (R497): the issuing tag is the waking tag of the wavelengths that it wakes. -/
def execLkwake (p : BitVec 2) (d a : BitVec 5) (m : BitVec 8) (s : State) : Result :=
  .next ((opLinkRequest p d a m [.parked, .litIdle] (fun _ _ => none) (fun s q w =>
    (s.wakePort q w false).modPort q (fun x => x.modWaves (w &&& x.maskOf [.waking, .litIdle]) (fun v =>
      { v with waking := some (s.tile.at', s.tag) })))).run s)

/-- LKSTAMP (R498): sel 0 LKOFF, 1 LKDLY. -/
def execLkstamp (p : BitVec 2) (d a : BitVec 5) (sel : BitVec 1) (s : State) : Result :=
  .next (SlotOp.run
    { slot := 0, pred := p, reads := [.g a],
      checks := fun s =>
        let x := s.port (s.portOf a)
        if s.anyPoison [.g a] then none
        else if 64 ≤ (s.g a).toNat then some 0x8F
        else if !x.carries ∨ !x.stampDone then some 0x8D else none,
      act := fun s =>
        let x := s.port (s.portOf a)
        s.resultG 0 (.n 1) d (if sel = 0 then x.regs.off else x.regs.dly) (s.anyPoison [.g a]) } s)

end Sys2Proof.Machine
end

