-- ==== Sys2Proof/Machine/RowCopy.lean ====
section
/-! DEFINITION. The row and copy engines (R211 to R227): their commands at issue, and what they do in each cycle after the
start, beat by beat. -/

namespace Sys2Proof.Machine

/-! ### Commands at issue (R212, R218, R224) -/

/-- Whether rows of len bytes from base lie in their space, outside the save area. -/
def rowsInside (sp : Space) (base stride : Int) (rows len : Nat) : Bool :=
  let last := base + stride * ((rows : Int) - 1)
  let top : Nat := if sp = .spad then 0x1F0000 else sp.size
  decide (0 ≤ min base last) && decide (max base last + len ≤ top)

/-- Whether a row block passes (R218). -/
def rowBlockOk (form : BlockForm) (b : BitVec 256) : Bool :=
  let w (k : Nat) : Nat := (blkWord b k).toNat
  let n := fieldNat (blkWord b 2) 13 0
  let rows := fieldNat (blkWord b 2) 31 16
  let sstr := (blkWord b 3).toInt
  let dstr := (blkWord b 4).toInt
  let inBf := (w 7).testBit 30
  let outBf := (w 7).testBit 29
  let src : Nat := w 0 % 2 ^ 24
  let dst : Nat := w 1 % 2 ^ 24
  fieldNat (blkWord b 0) 28 24 == 0 && fieldNat (blkWord b 1) 28 24 == 0 && fieldNat (blkWord b 2) 15 14 == 0
  && fieldNat (blkWord b 7) 28 16 == 0 && decide (1 ≤ n) && decide (n ≤ 8192) && decide (1 ≤ rows)
  && src % 64 == 0 && dst % 64 == 0 && decide (sstr % 64 = 0) && decide (dstr % 64 = 0)
  && (form != .smax || w 6 == 0) && (!inBf || w 0 / 2 ^ 29 == 0) && (!outBf || w 1 / 2 ^ 29 == 0)
  && decide (w 0 / 2 ^ 29 ≤ 1) && decide (w 1 / 2 ^ 29 ≤ 1)
  && (match spaceOf (w 0 / 2 ^ 29), spaceOf (w 1 / 2 ^ 29) with
      | some a, some c => rowsInside a (src : Nat) sstr rows (n * if inBf then 2 else 4)
          && rowsInside c dst dstr rows (n * if outBf then 2 else 4)
      | _, _ => false)

/-- Whether a copy descriptor passes (R224, Table 8-8). -/
def copyOk (form : BlockForm) (b : BitVec 256) : Bool :=
  let w (k : Nat) : Nat := (blkWord b k).toNat
  let len := fieldNat (blkWord b 2) 24 0
  let rows := fieldNat (blkWord b 3) 15 0
  let sstr := (blkWord b 4).toInt
  let dstr := (blkWord b 5).toInt
  let ss := w 0 / 2 ^ 29
  let ds := w 1 / 2 ^ 29
  let side (code : Nat) (base : Int) (str : Int) : Bool :=
    match spaceOf code with | some sp => rowsInside sp base str rows len | none => true
  fieldNat (blkWord b 0) 28 24 == 0 && fieldNat (blkWord b 1) 28 24 == 0 && fieldNat (blkWord b 2) 31 25 == 0
  && fieldNat (blkWord b 3) 31 16 == 0 && fieldNat (blkWord b 7) 25 16 == 0
  && decide (4 ≤ len) && decide (len ≤ 0x1000000) && decide (1 ≤ rows)
  && w 0 % 2 ^ 24 % 4 == 0 && w 1 % 2 ^ 24 % 4 == 0 && len % 4 == 0 && decide (sstr % 4 = 0) && decide (dstr % 4 = 0)
  && (match form with
      | .cpy => decide (ss ≤ 2) && decide (ds ≤ 2) && w 6 == 0
      | .cpyx => (decide (ss ≤ 2) && ds == 3) || (ss == 3 && decide (ds ≤ 2))
      | _ => w 0 == 0 && decide (ds ≤ 2))
  && (!(w 7).testBit 30 || ds == 1) && (!(w 7).testBit 26 || (form == .cpyx && ds == 3))
  && (form == .cpyf || side ss ((w 0 % 2 ^ 24 : Nat) : Int) sstr) && side ds ((w 1 % 2 ^ 24 : Nat) : Int) dstr

/-- The external byte offset of a CPYX and the stride, of its external side. -/
def extSide (b : BitVec 256) : Nat × Int :=
  let src := (blkWord b 0).toNat
  let dst := (blkWord b 1).toNat
  let hi := fieldNat (blkWord b 6) 15 0 * 2 ^ 24
  if src / 2 ^ 29 = 3 then (hi + src % 2 ^ 24, (blkWord b 4).toInt) else (hi + dst % 2 ^ 24, (blkWord b 5).toInt)

/-- The number of the handle that a copy descriptor names (Table 8-8). -/
def handleNo (b : BitVec 256) : Nat := fieldNat (blkWord b 6) 31 16

/-- Whether a CPYX's handle is valid for the ASID and world of the context, writable where it is the destination, and holds every
external byte (R224, R427). -/
def State.handleOk (s : State) (b : BitVec 256) : Bool :=
  match s.wafer.handle (handleNo b) with
  | none => false
  | some h =>
    let len := fieldNat (blkWord b 2) 24 0
    let rows := fieldNat (blkWord b 3) 15 0
    match extSide b with
    | (off, str) =>
      let last : Int := (off : Int) + str * ((rows : Int) - 1)
      fieldNat h.ctl 27 16 == s.asid && h.ctl.toNat.testBit 29 == s.ctx.life.secure
      && (h.ctl.toNat.testBit 30 || (blkWord b 1).toNat / 2 ^ 29 != 3)
      && decide (0 ≤ min (off : Int) last) && decide (max (off : Int) last + len ≤ h.len)

/-- The units that the rows of a lock touch. -/
def Lock.units (l : Lock) : List Nat :=
  match l.sp with
  | .spad => (List.range 16).filter (fun u => l.covers (u * 0x20000) 0x20000)
  | .acc => ((List.range 64).filter (fun u => l.covers (u * 4096) 4096)).map (· + 16)
  | .wst => []

/-- The checks of a command's block, fields and ranges, in the order of R212. -/
def State.blockCmdCheck (s : State) (form : BlockForm) (a : Nat) : Option (BitVec 8) :=
  match s.blockCheck a 32 32 with
  | some c => some c
  | none =>
    let b := s.block256 a
    let locks := ({ form := form, tag := s.tag, kernel := 0, dep := 0, fpc := 0, srstep := 0, pr := 0, block := b, pc := 0,
                    enq := 0, order := 0, region := false } : BlockCmd).locks
    let foreign (sp : Space) : Bool := locks.any (fun l => l.sp == sp && l.units.any (s.tile.unitForeign s.ctx.life.kernel))
    let row := form == .smax || form == .norm
    if row && !rowBlockOk form b then some 0x50
    else if !row && !copyOk form b then some 0x51
    else if !row && locks.any (fun l => l.sp == .wst && l.dest != s.writeMode) then some 0x52
    else if form == .cpyx && s.asid == 0 then some 0x2D
    else if form == .cpyx && !s.handleOk b then some 0x53
    else if foreign .spad then some 0x28
    else if foreign .acc then some 0x2C
    else if !s.ctx.life.secure && (List.range 32).any (fun k => s.tile.life.wssec.toNat.testBit k
        && locks.any (fun l => l.sp == .wst && l.covers (k * 0x80000) 0x80000)) then some 0x29
    else none

/-- A row or copy command enqueued at the tail of its queue. -/
def Tile.enqueueBlock (t : Tile) (c : BlockCmd) : Tile :=
  match c.form with
  | .smax | .norm => { t with row := { t.row with queue := t.row.queue ++ [c] } }
  | _ => { t with cpy := { t.cpy with queue := t.cpy.queue ++ [c] } }

/-- Aligned 64-byte beats that len bytes at a touch, and beat k of them as (offset from a, length). -/
def beatsOf (a len : Nat) : Nat := if len = 0 then 0 else (a + len - 1) / 64 - a / 64 + 1
def beatPart (a len k : Nat) : Option (Nat × Nat) :=
  let lo := max a (64 * (a / 64 + k))
  let hi := min (a + len) (64 * (a / 64 + k + 1))
  if lo < hi then some (lo - a, hi - lo) else none

/-- Where row i of a side starts: a byte address of its space, or for the external side its offset in the handle. -/
def BlockCmd.srcAt (c : BlockCmd) (i : Nat) : Nat :=
  let w := (blkWord c.block 0).toNat
  let base := if w / 2 ^ 29 = 3 then (extSide c.block).1 else w % 2 ^ 24
  ((base : Int) + (blkWord c.block 4).toInt * i).toNat
def BlockCmd.dstAt (c : BlockCmd) (i : Nat) : Nat :=
  let w := (blkWord c.block 1).toNat
  let base := if w / 2 ^ 29 = 3 then (extSide c.block).1 else w % 2 ^ 24
  ((base : Int) + (blkWord c.block 5).toInt * i).toNat

def BlockCmd.copyLen (c : BlockCmd) : Nat := fieldNat (blkWord c.block 2) 24 0
def BlockCmd.copyRows (c : BlockCmd) : Nat := fieldNat (blkWord c.block 3) 15 0

/-- The beats of row i of a copy: those of the side that touches more (R227). -/
def BlockCmd.rowBeats (c : BlockCmd) (i : Nat) : Nat :=
  let d := beatsOf (c.dstAt i) c.copyLen
  if c.form = .cpyf then d else max (beatsOf (c.srcAt i) c.copyLen) d

/-- The beat count B of a copy. -/
def BlockCmd.beats (c : BlockCmd) : Nat := (List.range c.copyRows).foldl (fun n i => n + c.rowBeats i) 0

/-- A ROWRUN or a copy command in the E slot (R212). -/
def opBlockCmd (form : BlockForm) (p : BitVec 2) (d : BitVec 3) (r : BitVec 2) (a : BitVec 5) : SlotOp :=
  let row := form == .smax || form == .norm
  { slot := 3, pred := p, reads := [.g a], gated := true, consumes := fun s => s.anyPoison [.g a],
    waits := fun s => .engineRoom (if row then 1 else 2) ::
      (if s.anyPoison [.g a] then [] else localWaits .spad (s.g a).toNat 32 false),
    checks := fun s => s.blockCmdCheck form (s.g a).toNat,
    plan := fun s => s.planBlock (s.g a).toNat 32,
    act := fun s =>
      let c := s.ctx
      let cmd : BlockCmd :=
        { form := form, tag := s.tag, kernel := c.life.kernel, dep := c.regs.getD d, fpc := c.sys.fpc, srstep := c.sys.srstep,
          pr := r, block := s.block256 (s.g a).toNat, pc := pcIndex c.flow.pc, enq := s.now, order := s.tile.core.nextOrder,
          region := c.ckpt.opened,
          handle := if form = .cpyx then s.wafer.handle (handleNo (s.block256 (s.g a).toNat)) else none }
      let s := s.useBanks .spad (s.g a).toNat 32 1
      let s := if row then s.takeStep.2 else s
      let n := if (blkWord cmd.block 1).toNat / 2 ^ 29 = 3 then cmd.beats else 0
      let cmd := { cmd with ordinal := s.ordinal s.tile.at' }
      let s := s.countOrdinals s.tile.at' n
      s.modTile (fun t => ({ t with core := { t.core with nextOrder := t.core.nextOrder + 1 } }).enqueueBlock cmd) }

/-- ROWRUN.smax (R219). -/
def execRowrunSmax (p : BitVec 2) (d : BitVec 3) (r : BitVec 2) (a : BitVec 5) (s : State) : Result := .next ((opBlockCmd .smax p d r a).run s)
/-- ROWRUN.norm (R219). -/
def execRowrunNorm (p : BitVec 2) (d : BitVec 3) (r : BitVec 2) (a : BitVec 5) (s : State) : Result := .next ((opBlockCmd .norm p d r a).run s)
/-- CPY (R225). -/
def execCpy (p : BitVec 2) (d : BitVec 3) (r : BitVec 2) (a : BitVec 5) (s : State) : Result := .next ((opBlockCmd .cpy p d r a).run s)
/-- CPYX (R226). -/
def execCpyx (p : BitVec 2) (d : BitVec 3) (r : BitVec 2) (a : BitVec 5) (s : State) : Result := .next ((opBlockCmd .cpyx p d r a).run s)
/-- CPYF (R225). -/
def execCpyf (p : BitVec 2) (d : BitVec 3) (r : BitVec 2) (a : BitVec 5) (s : State) : Result := .next ((opBlockCmd .cpyf p d r a).run s)

/-! ### Starts (R213) -/

/-- The row or the copy engine of a tile. -/
def Tile.blockEngine (t : Tile) (copy : Bool) : BlockEngine := if copy then t.cpy else t.row
def Tile.setBlockEngine (t : Tile) (copy : Bool) (e : BlockEngine) : Tile := if copy then { t with cpy := e } else { t with row := e }

/-- The next command to start on an idle engine: the best effective priority among those whose waits hold (R198, R213). -/
def Tile.nextBlockCmd (t : Tile) (copy : Bool) (now : Nat) : Option BlockCmd :=
  let e := t.blockEngine copy
  if e.run.isSome then none
  else firstBest (fun c : BlockCmd => agedPrio c.pr (now - c.enq)) (e.queue.filter (fun c => decide (c.enq < now) && t.depHolds c.tag c.dep))

/-- A command starts: its waits are taken, and it leaves the queue. -/
def State.startBlock (s : State) (copy : Bool) : State :=
  match s.tile.nextBlockCmd copy s.now with
  | none => s
  | some c =>
    s.modTile (fun t =>
      let e := t.blockEngine copy
      (t.depTake c.tag c.dep).setBlockEngine copy
        { e with queue := e.queue.filter (fun x => x.order ≠ c.order), run := some { cmd := c, started := s.now } })

/-- ROW_COMMAND_START (R213). -/
def execRowCommandStart (c : TileId) (s : State) : Result := .next ((s.focus c).startBlock false)
/-- COPY_COMMAND_START (R213). -/
def execCopyCommandStart (c : TileId) (s : State) : Result := .next ((s.focus c).startBlock true)

/-! ### The row engine's arithmetic (R219) -/

/-- Sums of neighbours: one level of tree(p). -/
def pairSums : List FVal → List FVal
  | a :: b :: r => addV a b :: pairSums r
  | l => l

/-- tree(p): seven levels over 128 partial sums. -/
def treeSum (p : List FVal) : FVal :=
  (pairSums (pairSums (pairSums (pairSums (pairSums (pairSums (pairSums p))))))).headD (.num false 0 0)

/-- The 128 partial results: lane L folds the elements L, L + 128, … in order, from +0. -/
def lanePartials (f : FVal → FVal → FVal) (xs : List FVal) : List FVal :=
  let n := xs.length
  (List.range 128).map (fun l => (List.range ((n + 127 - l) / 128)).foldl (fun p k => f p (xs.getD (l + 128 * k) (.num false 0 0)))
    (.num false 0 0))

/-- A result that is NaN is the first NaN of the row in element order (R49, R219). -/
def rowNan (xs : List FVal) (v : FVal) : FVal := if v.isNan then firstNan (xs ++ [v]) else v

/-- The exact outputs of a softmax row before their one rounding. -/
def softmaxRow (scl : FVal) (xs : List FVal) : List FVal :=
  let us := xs.map (fun x => mulV x scl)
  let m := match us with | [] => FVal.canon | u :: r => r.foldl FVal.maxF u
  if m = .inf true then xs.map (fun _ => .num false 0 0)
  else
    let es := us.map (fun u => exp2F (addV u m.neg))
    let q := rcpF (treeSum (lanePartials addV es))
    es.map (fun e => rowNan us (FVal.mul e q))

/-- The exact outputs of a normalisation row before their one rounding. -/
def normRow (scl eps : FVal) (xs : List FVal) : List FVal :=
  let ss := treeSum (lanePartials (fun p x => fmaV x x p) xs)
  let r := rsqrtF (addV (mulV ss scl) eps)
  xs.map (fun x => rowNan xs (FVal.mul x r))

/-- The element format of a side of a row command. -/
def rowFmt (bf : Bool) : Fmt := if bf then .bf16 else .f32

/-- The output elements of row i with their overflows, from the row's bytes as a number (R219, R220). -/
def BlockCmd.rowOutputs (c : BlockCmd) (i bytes : Nat) : List (Nat × Bool) :=
  let md := FpMode.of c.fpc
  let b := c.block
  let n := fieldNat (blkWord b 2) 13 0
  let fi := rowFmt ((blkWord b 7).toNat.testBit 30)
  let fo := rowFmt ((blkWord b 7).toNat.testBit 29)
  let xs := (List.range n).map (fun j => fi.decodeDaz md.daz ((bytes >>> (fi.width * j)) % 2 ^ fi.width))
  let scl := Fmt.f32.decode (blkWord b 5).toNat
  let ys := if c.form = .smax then softmaxRow scl xs else normRow scl (Fmt.f32.decode (blkWord b 6).toNat) xs
  (List.range n).map (fun j =>
    fo.encodeOv md (drawOf md c.srstep.toNat (j % 128) (i * ((n + 127) / 128) + j / 128)) (ys.getD j FVal.canon))

/-! ### Beats (R221, R222, R227) -/

/-- The row, byte offset and length of the beat that a row command reads in cycle t after its start. -/
def BlockCmd.rowRead (c : BlockCmd) (t : Nat) : Option (Nat × Nat × Nat) :=
  let n := fieldNat (blkWord c.block 2) 13 0
  let rows := fieldNat (blkWord c.block 2) 31 16
  let g := (n + 15) / 16
  let d := g + 8
  let i := (t - 1) / d
  let r := (t - 1) % d
  if t = 0 ∨ rows ≤ i ∨ g ≤ r then none
  else if (blkWord c.block 7).toNat.testBit 30 then
    (if r % 2 = 1 then none else some (i, 64 * (r / 2), min 64 (2 * n - 64 * (r / 2))))
  else some (i, 64 * r, min 64 (4 * n - 64 * r))

/-- The row, byte offset and length of the beat that a row command writes in cycle t after its start. -/
def BlockCmd.rowWrite (c : BlockCmd) (t : Nat) : Option (Nat × Nat × Nat) :=
  let n := fieldNat (blkWord c.block 2) 13 0
  let rows := fieldNat (blkWord c.block 2) 31 16
  let g := (n + 15) / 16
  let d := g + 8
  let q := (t - 1) / d
  let r := (t - 1) % d
  if t = 0 ∨ q < 2 ∨ rows + 2 ≤ q ∨ r < 8 then none
  else
    let k := r - 8
    if (blkWord c.block 7).toNat.testBit 29 then
      (if k % 2 = 1 ∨ k + 1 = g then some (q - 2, 64 * (k / 2), min 64 (2 * n - 64 * (k / 2))) else none)
    else some (q - 2, 64 * k, min 64 (4 * n - 64 * k))

/-- The cycle after its start in which a row command completes. -/
def BlockCmd.rowEnd (c : BlockCmd) : Nat :=
  let g := (fieldNat (blkWord c.block 2) 13 0 + 15) / 16
  (fieldNat (blkWord c.block 2) 31 16 + 2) * (g + 8) + 1

/-- The row and the beat within it of beat b, among n rows from row i. -/
def BlockCmd.beatRow (c : BlockCmd) : Nat → Nat → Nat → Option (Nat × Nat)
  | 0, _, _ => none
  | n + 1, i, b => if b < c.rowBeats i then some (i, b) else c.beatRow n (i + 1) (b - c.rowBeats i)

/-- Whether source and destination bytes of a copy overlap in one space (R227). -/
def BlockCmd.overlaps (c : BlockCmd) : Bool :=
  match c.locks with
  | [a, b] => a.sp == b.sp && (List.range a.rows).any (fun i => b.covers (a.base + a.stride * i).toNat a.len)
  | _ => false

/-- The beats that a local copy or fill reads and writes in cycle t after its start, and the cycle it completes in. -/
def BlockCmd.copyRead (c : BlockCmd) (t : Nat) : Option Nat := if c.form = .cpyf ∨ t = 0 ∨ c.beats < t then none else some (t - 1)
def BlockCmd.copyWrite (c : BlockCmd) (t : Nat) : Option Nat :=
  let lag := if c.form = .cpyf then 1 else if c.overlaps then c.beats + 2 else 3
  if t < lag ∨ c.beats ≤ t - lag then none else some (t - lag)
def BlockCmd.copyEnd (c : BlockCmd) : Nat :=
  if c.form = .cpyf then c.beats + 1 else if c.overlaps then 2 * c.beats + 2 else c.beats + 3

/-- Whether an engine access must wait: for a conflicting lock of a command issued earlier (R217), or for a unit (R362). -/
def Tile.engineBlocked (t : Tile) (now order kernel : Nat) (sp : Space) (a n : Nat) (write : Bool) : Bool :=
  (t.locks now).any (fun l => decide (l.order < order) && l.sp == sp && (write || l.dest) && l.covers a n)
  || (unitsOf sp a n).any (t.unitPending kernel)

/-- Bytes that have been read placed into the number of a row. -/
def putBytes (got : List (Nat × Nat)) (row off v : Nat) : List (Nat × Nat) :=
  assocPut got row (((assocGet got row).getD 0) ||| (v <<< (8 * off)))

/-- The running command of an engine changed by f. -/
def State.modRun (s : State) (copy : Bool) (f : BlockRun → BlockRun) : State :=
  s.modTile (fun t => let e := t.blockEngine copy; t.setBlockEngine copy { e with run := e.run.map f })

/-- A local beat read by a row or copy command into the number of its row; an uncorrectable word makes the command fault. -/
def State.beatRead (s : State) (copy : Bool) (sp : Space) (row idx start off len : Nat) : State :=
  let a := start + off
  let bad := s.tile.readBad sp a len
  let v := s.tile.read sp a len
  let s := s.modTile (fun t => (t.takeBeat sp a len).countCorrected sp a len)
  s.modRun copy (fun r => if bad then { r with fault := some (0x54, idx, a) } else { r with got := putBytes r.got row off v })

/-- The first byte of row i of the source and of the destination of a row command. -/
def BlockCmd.rowSrc (c : BlockCmd) (i : Nat) : Nat :=
  (((blkWord c.block 0).toNat % 2 ^ 24 : Nat) + (blkWord c.block 3).toInt * i).toNat
def BlockCmd.rowDst (c : BlockCmd) (i : Nat) : Nat :=
  (((blkWord c.block 1).toNat % 2 ^ 24 : Nat) + (blkWord c.block 4).toInt * i).toNat

/-- Whether an engine's beat is served in this cycle (R217, R222). -/
def State.beatGoes (s : State) (order kernel : Nat) (sp : Space) (a n : Nat) (write : Bool) : Bool :=
  !s.tile.engineBlocked s.now order kernel sp a n write && s.tile.bankServes s.now s.cycle sp a n

/-- The running command past this cycle: its next step when what the step reads and writes is done, else the same step again. -/
def BlockRun.after (r : BlockRun) (rd wr : Bool) : BlockRun :=
  if rd && wr then { r with rdDone := false, wrDone := false } else { r with rdDone := rd, wrDone := wr, lost := r.lost + 1 }

/-- The output beat of row i at byte off of a row command, written (R220). -/
def State.rowPut (s : State) (r : BlockRun) (ds : Space) (i off len : Nat) : State :=
  let c := r.cmd
  let b := c.block
  let w := (rowFmt ((blkWord b 7).toNat.testBit 29)).width
  let outs := if off = 0 then c.rowOutputs i ((assocGet r.got i).getD 0) else r.outs
  let first := 8 * off / w
  let part := (outs.drop first).take (8 * len / w)
  let isNan (x : Nat) : Bool := ((rowFmt ((blkWord b 7).toNat.testBit 29)).decode x).isNan
  let v := packElems w (fun j => (part.getD j (0, false)).1) part.length
  let s := s.modRun false (fun r => { r with outs := outs, got := if off = 0 then assocDel r.got i else r.got })
  let s := s.modTile (fun t => (t.takeBeat ds (c.rowDst i + off) len).write ds (c.rowDst i + off) len v)
  let s := s.countExc 1 (part.filter (fun p => isNan p.1)).length c.tag
  s.countExc 0 (part.filter (fun p => p.2)).length c.tag

/-- The cycle of a running row command (R221, R222). -/
def State.rowCycle (s : State) (r : BlockRun) : State :=
  let c := r.cmd
  let t := s.now - r.started - r.lost
  let b := c.block
  let ss := (spaceOf ((blkWord b 0).toNat / 2 ^ 29)).getD .spad
  let ds := (spaceOf ((blkWord b 1).toNat / 2 ^ 29)).getD .spad
  let w : Bool × State := match c.rowWrite t with
    | none => (true, s)
    | some (i, off, len) =>
      if r.wrDone then (true, s)
      else if s.beatGoes c.order c.kernel ds (c.rowDst i + off) len true then (true, s.rowPut r ds i off len)
      else (false, s)
  let d : Bool × State := match c.rowRead t with
    | none => (true, w.2)
    | some (i, off, len) =>
      if r.rdDone then (true, w.2)
      else if w.2.beatGoes c.order c.kernel ss (c.rowSrc i + off) len false then (true, w.2.beatRead false ss i i (c.rowSrc i) off len)
      else (false, w.2)
  d.2.modRun false (fun r => r.after d.1 w.1)

/-! ### Copies (R225, R226, R227) -/

/-- A local beat of a copy written: overwritten, or added word by word under the colour of its region (R225). -/
def Tile.copyPut (t : Tile) (c : BlockCmd) (sp : Space) (a len v : Nat) : Tile :=
  let ctl := (blkWord c.block 7).toNat
  if !ctl.testBit 30 then t.write sp a len v
  else if ctl.testBit 28 && ctl.testBit 27 != t.colourAt a then t.dropColour
  else t.accUpdates a (fun k w =>
    let x := (v >>> (32 * k)) % 2 ^ 32
    if ctl.testBit 29 then (w + x) % 2 ^ 32 else addF32 w x) (len / 4)

/-- The bytes of a beat that a copy writes: of its row at off, or the fill word. -/
def BlockRun.beatData (r : BlockRun) (row off len : Nat) : Nat :=
  if r.cmd.form = .cpyf then packElems 32 (fun _ => (blkWord r.cmd.block 6).toNat) (len / 4)
  else (((assocGet r.got row).getD 0) >>> (8 * off)) % 2 ^ (8 * len)

/-- The row, offset and length of the source or destination part of beat n. -/
def BlockCmd.part (c : BlockCmd) (src : Bool) (n : Nat) : Option (Nat × Nat × Nat) :=
  (c.beatRow c.copyRows 0 n).bind (fun rk =>
    (beatPart (if src then c.srcAt rk.1 else c.dstAt rk.1) c.copyLen rk.2).map (fun p => (rk.1, p.1, p.2)))

/-- The local spaces of a copy. -/
def BlockCmd.srcSpace (c : BlockCmd) : Option Space := spaceOf ((blkWord c.block 0).toNat / 2 ^ 29)
def BlockCmd.dstSpace (c : BlockCmd) : Option Space := spaceOf ((blkWord c.block 1).toNat / 2 ^ 29)

/-- Whether the local part of a beat must wait. -/
def State.partBlocked (s : State) (c : BlockCmd) (src : Bool) (n : Nat) : Bool :=
  match (if src then c.srcSpace else c.dstSpace), c.part src n with
  | some sp, some (row, off, len) =>
    !s.beatGoes c.order c.kernel sp ((if src then c.srcAt row else c.dstAt row) + off) len (!src)
  | _, _ => false

/-- Beat n of a copy read from its local source, or written to its local destination. -/
def State.copyReadBeat (s : State) (c : BlockCmd) (n : Nat) : State :=
  match c.srcSpace, c.part true n with
  | some sp, some (row, off, len) => s.beatRead true sp row n (c.srcAt row) off len
  | _, _ => s
def State.copyWriteBeat (s : State) (r : BlockRun) (n : Nat) : State :=
  match r.cmd.dstSpace, r.cmd.part false n with
  | some sp, some (row, off, len) => s.modTile (fun t =>
      (t.takeBeat sp (r.cmd.dstAt row + off) len).copyPut r.cmd sp (r.cmd.dstAt row + off) len (r.beatData row off len))
  | _, _ => s

/-- The cycle of a running local copy or fill (R222, R227). -/
def State.copyCycle (s : State) (r : BlockRun) : State :=
  let c := r.cmd
  let t := s.now - r.started - r.lost
  let w : Bool × State := match c.copyWrite t with
    | none => (true, s)
    | some n => if r.wrDone then (true, s) else if s.partBlocked c false n then (false, s) else (true, s.copyWriteBeat r n)
  let d : Bool × State := match c.copyRead t with
    | none => (true, w.2)
    | some n => if r.rdDone then (true, w.2) else if w.2.partBlocked c true n then (false, w.2) else (true, w.2.copyReadBeat c n)
  d.2.modRun true (fun r => r.after d.1 w.1)

/-- The virtual address of a part of a CPYX's beat. -/
def BlockCmd.extVa (c : BlockCmd) (row off : Nat) : Nat :=
  ((c.handle.map (·.base)).getD 0) + (if c.srcSpace.isNone then c.srcAt row else c.dstAt row) + off

/-- The virtual address of beat n of a CPYX. -/
def BlockCmd.beatVa (c : BlockCmd) (n : Nat) : Nat :=
  match c.part c.srcSpace.isNone n with
  | some (row, off, _) => c.extVa row off
  | none => 0

/-- A walk for a CPYX's beat that met an uncorrectable entry is reported (R423). -/
def State.reportExtUe (s : State) (c : BlockCmd) (va : Nat) : State :=
  match c.handle with
  | none => s
  | some h =>
    if s.wafer.walk (fieldNat h.ctl 27 16) (h.ctl.toNat.testBit 29) va = .bad then
      let at' := s.tile.at'
      s.modWafer (fun w => w.report c.kernel 0x86 at' c.tag c.pc false s.now)
    else s

/-- The external access of beat n of a CPYX is made (R226, R427). -/
def State.extBeat (s : State) (r : BlockRun) (n : Nat) : State :=
  let c := r.cmd
  let src := c.srcSpace.isNone
  let drop (r : BlockRun) : BlockRun := { r with inFlight := r.inFlight.filter (fun f => f.beat ≠ n) }
  let fail (s : State) (code : BitVec 8) (va : Nat) : State := s.modRun true (fun r => { drop r with fault := some (code, n, va) })
  match c.part src n with
  | none => s.modRun true drop
  | some (row, off, len) =>
    let va := c.extVa row off
    match s.extCheck c.handle va (!src) with
    | .error code => fail (s.reportExtUe c va) code va
    | .ok pa =>
      if src then
        if s.wafer.ext.badIn 32 pa len then
          let h := c.handle.getD { base := 0, len := 0, ctl := 0 }
          fail (s.poisonLeaf (fieldNat h.ctl 27 16) (h.ctl.toNat.testBit 29) va pa) 0x58 va
        else s.modRun true (fun r => { drop r with got := putBytes r.got row off (s.wafer.ext.readNat pa len) })
      else
        let a : BitVec 80 := BitVec.ofNat 80 (s.wafer.links.wafer.toNat * 2 ^ 64 + 8 * 2 ^ 60 + va % 2 ^ 60)
        match s.extWrite s.tile.at' (c.ordinal + n) none a pa ((blkWord c.block 7).toNat.testBit 26) len (r.beatData row off len) with
        | (.applied, s) => s.modRun true drop
        | (.refused, s) => fail s 0x55 va
        | (.waits, s) => s.modRun true (fun r =>
            { r with inFlight := r.inFlight.map (fun f => if f.beat = n then { f with due := f.sent + 2 ^ 20, wait := .paired } else f) })

/-- Beat n of a CPYX sent to the edge; one that is not answered within 2^20 cycles ends the command (R427). -/
def State.extSend (s : State) (n : Nat) : State :=
  match s.freeDelay with
  | (d, s) => s.modRun true (fun r =>
      { r with inFlight := r.inFlight ++ [if d ≤ 2 ^ 20 then { beat := n, sent := s.now, due := s.now + d, wait := .due }
                                          else { beat := n, sent := s.now, due := s.now + 2 ^ 20, wait := .lost }] })

/-- Due external accesses of a CPYX, in the order they were sent, until one faults. -/
def State.extDue (s : State) : List ExtAccess → State
  | [] => s
  | f :: rest =>
    if s.now < f.due then s.extDue rest
    else
      match s.tile.cpy.run with
      | none => s
      | some r =>
        if r.fault.isSome then s
        else if f.wait = .due then (s.extBeat r f.beat).extDue rest
        else s.modRun true (fun r => { r with fault := some (0x5A, f.beat, r.cmd.beatVa f.beat) })

/-- The cycle of a running CPYX, after that of its start (R213): due external accesses, then the next beat's read, then the next beat's write
(R226). A quiesced tile sends none (R436). -/
def State.cpyxCycle (s : State) (r : BlockRun) : State :=
  let c := r.cmd
  let b := c.beats
  let s := s.extDue r.inFlight
  let shut := s.tile.life.st == .quiesced
  match s.tile.cpy.run with
  | none => s
  | some r =>
    if r.fault.isSome ∨ s.now ≤ r.started then s
    else
      let s :=
        if b ≤ r.nread then s
        else if c.srcSpace.isNone then if shut then s else (s.extSend r.nread).modRun true (fun r => { r with nread := r.nread + 1 })
        else if s.partBlocked c true r.nread then s
        else (s.copyReadBeat c r.nread).modRun true (fun r => { r with nread := r.nread + 1 })
      match s.tile.cpy.run with
      | none => s
      | some r =>
        let have' := decide (min b (r.nwritten + 2) ≤ r.nread)
          && (c.dstSpace.isNone || r.inFlight.all (fun f => decide (r.nwritten + 2 ≤ f.beat)))
        if r.fault.isSome ∨ b ≤ r.nwritten ∨ !have' then s
        else if c.dstSpace.isNone then if shut then s else (s.extSend r.nwritten).modRun true (fun r => { r with nwritten := r.nwritten + 1 })
        else if s.partBlocked c false r.nwritten then s
        else (s.copyWriteBeat r r.nwritten).modRun true (fun r => { r with nwritten := r.nwritten + 1 })

/-! ### Completion and faults (R214, R215, R334) -/

/-- Whether a running command will have made its last write, an external one acknowledged, before a cycle. -/
def BlockRun.doneBefore (r : BlockRun) (now : Nat) : Bool :=
  let t := now - r.started - r.lost
  match r.cmd.form with
  | .smax | .norm => decide (r.cmd.rowEnd ≤ t)
  | .cpyx => decide (r.cmd.beats ≤ r.nwritten) && r.inFlight.isEmpty && decide (r.cmd.beats + 3 ≤ t)
  | _ => decide (r.cmd.copyEnd ≤ t)

/-- After a cycle of an engine: a command whose last write has been made completes in the next (R214). -/
def State.noteDone (s : State) (copy : Bool) : State :=
  s.modRun copy (fun r =>
    if r.doneAt.isNone && r.fault.isNone && r.doneBefore (s.now + 1) then { r with doneAt := some (s.now + 1) } else r)

/-- Whether the running command of the row or copy engine has made its last write and is due to complete in this cycle. -/
def State.blockDone (s : State) (r : BlockRun) : Bool := match r.doneAt with | some d => decide (d ≤ s.now) | none => false

/-- The completion of the running command (R214): its mark enters its result queue, or waits with the engine; then the signal is
sent and the locks are released. -/
def State.completeBlock (s : State) (copy : Bool) : State :=
  match (s.tile.blockEngine copy).run with
  | none => s
  | some r =>
    let c := r.cmd
    let eng : Engine := if copy then .copy else .row
    if r.fault.isSome ∨ !s.blockDone r then s
    else
      let ctl := blkWord c.block 7
      let s := if ctl.toNat.testBit 31 && !r.marked then
          (s.modTile (fun t => t.pushRq c.tag (if copy then 2 else 1) (markEntry (fieldNat ctl 15 0)) s.now (some eng))).modRun copy
            (fun r => { r with marked := true })
        else s
      if s.tile.pushWaits eng then s
      else s.modTile (fun t =>
        let t := t.signal c.tag c.dep
        t.setBlockEngine copy { t.blockEngine copy with run := none })

/-- ROW_COMMAND_COMPLETE (R214). -/
def execRowCommandComplete (c : TileId) (s : State) : Result := .next ((s.focus c).completeBlock false)
/-- COPY_COMMAND_COMPLETE (R214). -/
def execCopyCommandComplete (c : TileId) (s : State) : Result := .next ((s.focus c).completeBlock true)

/-- An external write of a command that has ended lands or does not, which is free (R226); none does in a paired run, and one that waits
in the pair buffer leaves it. -/
def State.landCut (s : State) (r : BlockRun) (f : ExtAccess) : State :=
  if f.wait = .paired then
    let at' := s.tile.at'
    s.modWafer (fun w => { w with dbg := { w.dbg with
      beats := w.dbg.beats.filter (fun b => !(b.src == at' && b.op.isNone && b.ordinal == r.cmd.ordinal + f.beat)) } })
  else
    match s.freeVal 1, r.cmd.part false f.beat with
    | (lands, s), some (row, off, len) =>
      match s.extCheck r.cmd.handle (r.cmd.extVa row off) true with
      | .ok pa =>
        if lands = 1 ∧ (s.pairSide s.tile.at').isNone then
          s.modWafer (fun w => { w with ext := w.ext.writeNat 32 pa len (r.beatData row off len) })
        else s
      | .error _ => s
    | (_, s), none => s

/-- The external writes of ended commands that are due, and those that wait in the pair buffer. -/
def State.cutCycle (s : State) : State :=
  let gone (f : ExtAccess) : Bool := f.wait == .paired || decide (f.due ≤ s.now)
  let rs := s.tile.cut
  let s := s.modTile (fun t => { t with
    cut := (rs.map (fun r => { r with inFlight := r.inFlight.filter (fun f => !gone f) })).filter (fun r => !r.inFlight.isEmpty) })
  rs.foldl (fun s r => (r.inFlight.filter gone).foldl (fun s f => s.landCut r f) s) s

/-- The work of the row engine, then of the copy engine, in this cycle. -/
def State.blockCycles (s : State) : State :=
  let s := match s.tile.row.run with
    | some r => if r.fault.isSome || s.blockDone r then s else (s.rowCycle r).noteDone false
    | none => s
  let s := match s.tile.cpy.run with
    | some r =>
      if r.fault.isSome || s.blockDone r then s
      else (if r.cmd.form = BlockForm.cpyx then s.cpyxCycle r else s.copyCycle r).noteDone true
    | none => s
  s.cutCycle

/-- The index of the row or beat whose write is next, and the offset of its destination: what a command that is stopped has reached (R215).
DESIGN CHOICE, unsafe, log 165. -/
def BlockRun.reached (r : BlockRun) (now : Nat) : Nat × Nat :=
  let c := r.cmd
  let t := now - r.started - r.lost
  let beat (n : Nat) : Nat × Nat :=
    let n := min n (c.beats - 1)
    match c.part false n with
    | some (row, off, _) => (n, if c.dstSpace.isNone then c.extVa row off else c.dstAt row + off)
    | none => (n, 0)
  match c.form with
  | .smax | .norm =>
    let d := (fieldNat (blkWord c.block 2) 13 0 + 15) / 16 + 8
    let i := min ((t - 1) / d - 2) (fieldNat (blkWord c.block 2) 31 16 - 1)
    (i, c.rowDst i)
  | .cpyx => beat r.nwritten
  | .cpyf => beat (t - 1)
  | .cpy => beat (if c.overlaps then t - c.beats - 2 else t - 3)

/-- The end of a faulted row or copy command (R215): its fault entry is pushed, or waits while the engine goes on. An uncorrectable error of
a region's command calls for recovery too (R289). -/
def State.faultBlock (s : State) (copy : Bool) : State :=
  match (s.tile.blockEngine copy).run with
  | none => s
  | some r =>
    match r.fault with
    | none => s
    | some (code, idx, off) =>
      let s := s.modTile (fun t =>
        let t := (t.setBlockEngine copy { t.blockEngine copy with run := none }).cutOff r
        let t := { t with pushes := t.pushes.filter (fun p => p.engine ≠ some (if copy then Engine.copy else Engine.row)) }
        t.pushRq r.cmd.tag (if copy then 2 else 1) (faultEntry r.cmd.pc code idx off) s.now none)
      if code = 0x54 ∧ r.cmd.region then s.regionFault r.cmd.tag else s

end Sys2Proof.Machine
end

