-- ==== Sys2Proof/Machine/MatrixEngine.lean ====
section
/-! DEFINITION. The matrix engine (R171 to R210, R514): MCALL, command start, power leave, microinstructions, the streams row by
row, outputs at the accumulator write port, overtaking and save slots, faults. -/

namespace Sys2Proof.Machine

/-! ### Microinstructions (R183 to R189) -/

/-- A microinstruction of the routine store. -/
inductive Micro where
  | routineEnd
  | loadw (memsel : BitVec 1) (pa : BitVec 3) (off : BitVec 16) (wl : BitVec 5) (sp : BitVec 2) (dw : BitVec 1) (nc : BitVec 7)
  | stream (df : BitVec 2) (pa po : BitVec 3) (ol : BitVec 5) (cnt : BitVec 16) (cx : BitVec 1) (os : BitVec 8) (xo : BitVec 16)
      (sb : BitVec 4)
  | drain (pd : BitVec 3) (dt : BitVec 1) (scale : BitVec 8)
  | loop (cnt : BitVec 16) (cx : BitVec 1)
  | endloop (e1 : BitVec 1) (p1 : BitVec 3) (inc1 : BitVec 16) (e2 : BitVec 1) (p2 : BitVec 3) (inc2 : BitVec 16)
  | accmode (add ce col : BitVec 1)
  | sync (sv : BitVec 1) (sem : BitVec 5) (qe : BitVec 1) (mark : BitVec 16)
  deriving DecidableEq, Repr

/-- The low n bits of a word are zero. -/
def lowZero (w : BitVec 64) (n : Nat) : Bool := w.toNat % 2 ^ n == 0

/-- The microinstruction that a word encodes (Tables 7-5 to 7-11); none where R183 gives fault 0x40. -/
def decodeMicro (w : BitVec 64) : Option Micro :=
  let f (h l : Nat) : BitVec (h + 1 - l) := w.extractLsb' l (h + 1 - l)
  match fieldNat w 63 60 with
  | 0 => if w = 0 then some .routineEnd else none
  | 1 =>
    let wl := fieldNat w 39 35
    if lowZero w 25 ∧ (wl ≤ 6 ∨ wl = 14 ∨ (16 ≤ wl ∧ wl ≤ 19)) then
      some (.loadw (f 59 59) (f 58 56) (f 55 40) (f 39 35) (f 34 33) (f 32 32) (f 31 25)) else none
  | 2 =>
    let ol := fieldNat w 51 47
    if lowZero w 2 ∧ fieldNat w 59 58 ≠ 3 ∧ (ol ≤ 14 ∨ (16 ≤ ol ∧ ol ≤ 19)) then
      some (.stream (f 59 58) (f 57 55) (f 54 52) (f 51 47) (f 46 31) (f 30 30) (f 29 22) (f 21 6) (f 5 2)) else none
  | 3 => if lowZero w 48 then some (.drain (f 59 57) (f 56 56) (f 55 48)) else none
  | 4 => if lowZero w 43 then some (.loop (f 59 44) (f 43 43)) else none
  | 5 => if lowZero w 20 then some (.endloop (f 59 59) (f 58 56) (f 55 40) (f 39 39) (f 38 36) (f 35 20)) else none
  | 6 => if lowZero w 57 then some (.accmode (f 59 59) (f 58 58) (f 57 57)) else none
  | 7 => if lowZero w 37 then some (.sync (f 59 59) (f 58 54) (f 53 53) (f 52 37)) else none
  | _ => none

/-- The current class of the microinstructions of a routine (Table 7-4). -/
def classOf (ws : List (BitVec 64)) : Nat :=
  let has (p : Micro → Bool) : Bool := ws.any (fun w => match decodeMicro w with | some m => p m | none => false)
  if has (fun m => match m with | .stream df .. => df == 0 | _ => false) then 3
  else if has (fun m => match m with | .stream df .. => df == 1 | _ => false) then 2
  else if has (fun m => match m with | .stream .. => true | .drain .. => true | _ => false) then 1
  else 0

/-- The first microinstruction of an entry, if it is VALID. -/
def Image.entry? (i : Image) (idx : Nat) : Option Nat := assocGet i.entries idx

/-- The current class of an entry: its routine runs to the next entry's start, or to the end of the section. -/
def Image.classAt (i : Image) (idx : Nat) : Nat :=
  match i.entry? idx with
  | none => 0
  | some st =>
    let stop := i.entries.foldl (fun m e => if st < e.2 then min m e.2 else m) i.micro.length
    classOf ((i.micro.drop st).take (stop - st))

/-! ### MCALL (R197) -/

/-- Whether a context's x registers hold poison. -/
def State.xPoison (s : State) : Bool := s.ctx.regs.x.toList.any (fun r => r.poison)

/-- MCALL (R197). -/
def execMcall (p : BitVec 2) (d : BitVec 3) (r : BitVec 2) (i : BitVec 7) (s : State) : Result :=
  .next (SlotOp.run
    { slot := 3, pred := p, reads := (List.finRange 8).map (fun k => .x (BitVec.ofNat 3 k.val)), gated := true,
      consumes := State.xPoison, waits := fun _ => [.engineRoom 0],
      checks := fun s =>
        if (((s.wafer.imageOf s.ctx.life.kernel).bind (fun m => m.entry? i.toNat))).isNone then some 0x45 else none,
      act := fun s =>
        let c := s.ctx
        let cmd : MatrixCmd :=
          { tag := s.tag, kernel := c.life.kernel, dep := c.regs.getD d, xs := c.regs.x.map (·.val), fpc := c.sys.fpc,
            srstep := c.sys.srstep, pr := r, idx := i, pc := pcIndex c.flow.pc, enq := s.now,
            order := s.tile.core.nextOrder, region := c.ckpt.opened }
        s.modTile (fun t => { t with core := { t.core with nextOrder := t.core.nextOrder + 1 },
                                     mx := { t.mx with queue := t.mx.queue ++ [cmd] } }) } s)

/-! ### Power leave (R203, R468) -/

/-- The reticle of the tile in focus. -/
def State.reticleId (s : State) : ReticleId := reticleOf s.tile.life.px s.tile.life.py

/-- A reticle changed by f. -/
def State.modReticle (s : State) (r : ReticleId) (f : Reticle → Reticle) : State :=
  s.modWafer (fun w => { w with cruise := { w.cruise with reticles := w.cruise.reticles.set r.val (f w.cruise.reticles[r]) r.isLt } })

/-- A reticle's power domain changed by f. -/
def State.modPower (s : State) (r : ReticleId) (f : RetPower → RetPower) : State :=
  s.modReticle r (fun x => { x with power := f x.power })

/-- The budget of a heavy class in units of 0.1 A (Table 7-4). -/
def classBudget (k : Nat) : Nat := if k = 3 then 14 else 9

/-- A request in its place: after earlier cycles, and within a cycle by lower Y and then lower X (R468). -/
def insertRequest (q : TileId × Nat × Nat) : List (TileId × Nat × Nat) → List (TileId × Nat × Nat)
  | [] => [q]
  | x :: r =>
    if x.2.2 = q.2.2 ∧ (q.1.y < x.1.y ∨ (q.1.y = x.1.y ∧ q.1.x < x.1.x)) then q :: x :: r else x :: insertRequest q r

/-- A heavy routine of the tile in focus requests leave. -/
def State.requestLeave (s : State) (k : Nat) : State :=
  let c := s.tile.at'
  let r := s.reticleId
  let s := s.modPower r (fun p => { p with fifo := insertRequest (c, classBudget k, s.now) p.fifo })
  s.timer (s.now + (s.wafer.cruise.reticles[r]).power.leaveto.toNat + 1) (.leaveTimeout c)

/-- The tile in focus gives up its leave, or its request for one. -/
def State.releaseLeave (s : State) : State :=
  let c := s.tile.at'
  s.modPower s.reticleId (fun p => { p with fifo := p.fifo.filter (fun x => x.1 ≠ c), held := p.held.filter (fun x => x.1 ≠ c) })

/-- The running matrix command changed by f. -/
def Tile.modMx (t : Tile) (f : MatrixRun → MatrixRun) : Tile := { t with mx := { t.mx with run := t.mx.run.map f } }
def State.modMx (s : State) (f : MatrixRun → MatrixRun) : State := s.modTile (fun t => t.modMx f)

/-- The requests that are granted from the head of a FIFO, at most n, given the budgets held and the budget B. -/
def grantHead (b : Nat) (now : Nat) : Nat → Nat → List (TileId × Nat × Nat) → List (TileId × Nat)
  | 0, _, _ => []
  | _, _, [] => []
  | n + 1, g, (c, k, at') :: r => if at' < now ∧ k + g ≤ b then (c, k) :: grantHead b now n (g + k) r else []

/-- LEAVE_GRANT (R468): at most 16 requests from the head of the domain's FIFO, within its budget; none while it throttles or
leave is revoked. The routine fetches its first word in the next cycle. -/
def execLeaveGrant (r : ReticleId) (s : State) : Result :=
  let p := (s.wafer.cruise.reticles[r]).power
  if p.throttle ∨ p.noLeave then .next s
  else
    let g := grantHead p.budget s.now 16 (p.held.foldl (fun n x => n + x.2) 0) p.fifo
    let s := s.modPower r (fun p => { p with fifo := p.fifo.drop g.length, held := p.held ++ g })
    .next (g.foldl (fun s x => s.modTileAt x.1 (fun t => t.modMx (fun m =>
      { m with leave := .granted s.now, fetchAt := max m.fetchAt (s.now + 1) }))) s)

/-- LEAVE_TIMEOUT (R468): a request not granted within LEAVETO cycles leaves the FIFO, and its command ends with 0x4E. -/
def execLeaveTimeout (c : TileId) (s0 : State) : Result :=
  let s := s0.focus c
  match s.tile.mx.run with
  | some r =>
    match r.leave with
    | .requested at' =>
      if at' + (s.wafer.cruise.reticles[s.reticleId]).power.leaveto.toNat < s.now then
        .next (s.releaseLeave.modMx (fun m => { m with leave := .none, fault := some (0x4E, m.rt.idx, 0) }))
      else .next s0
    | _ => .next s0
  | none => .next s0

/-! ### Weights (R175, R184) -/

/-- Whether a weight tile is in the Wide arrangement, and its logical columns (Table 7-1). -/
def WeightTile.wide (w : WeightTile) : Bool := layBits w.wl == 16
def WeightTile.columns (w : WeightTile) : Nat := if w.dw then 128 else if w.wide then 32 else 64

/-- The image of a logical column; one that was not loaded holds zero weights with exponent 0. -/
def WeightTile.image (w : WeightTile) (c : Nat) : Nat := (w.cols.getD c 0).toNat

/-- Element k of n bit planes, plane p at bit stride * p, as a two's-complement integer (R38). -/
def planeRead (img stride n k : Nat) : Int :=
  signedOf n ((List.range n).foldl (fun a p => a + (if img.testBit (stride * p + k) then 2 ^ p else 0)) 0)

/-- The 512 weights of a logical column, its block exponents, and its sparse indices. -/
def WeightTile.weights (w : WeightTile) (c : Nat) : List Int := (List.range 512).map (planeRead (w.image c) 512 (layBits w.wl))
def WeightTile.exps (w : WeightTile) (c j : Nat) : Nat := (w.image c >>> (512 * layBits w.wl + 8 * j)) % 256
def WeightTile.index (w : WeightTile) (c k : Nat) : Nat :=
  (w.image c >>> (512 * layBits w.wl + (if layBq w.wl then 512 else 0) + 3 * k)) % 8

/-- The weight tile of a source with the columns read. -/
def LoadSource.tile (x : LoadSource) (cols : List (BitVec 10240)) : WeightTile := { wl := x.wl, sp := x.sp, dw := x.dw, cols := cols }

/-! ### Faults (R209) -/

/-- The running command is to end with a cause at the microinstruction idx and a faulting offset. -/
def State.matrixFaultAt (s : State) (idx : Nat) (code : BitVec 8) (off : Nat) : State :=
  s.modMx (fun m => if m.fault.isSome then m else { m with fault := some (code, idx, off) })

/-- The running command is to end with a cause and a faulting offset; lane 1 names its entry and microinstruction. What lane 2 holds for a
cause that has no offset (0), and for a STREAM's or DRAIN's 0x42 (its operand pointer), is the model's: DESIGN CHOICE, unsafe, log 158. -/
def State.matrixFault (s : State) (code : BitVec 8) (off : Nat) : State :=
  match s.tile.mx.run with
  | some r => s.matrixFaultAt r.rt.idx code off
  | none => s

/-- The end of a faulted routine (R209): outputs not yet written are dropped, the leave is released, the record is pushed or
waits. An uncorrectable error of a region's routine calls for recovery too (R289). -/
def State.faultMatrix (s : State) : State :=
  match s.tile.mx.run with
  | none => s
  | some r =>
    match r.fault with
    | none => s
    | some (code, idx, off) =>
      let s := (s.releaseLeave).modTile (fun t =>
        let t := { t with mx := { t.mx with run := none, pe := [] }, pushes := t.pushes.filter (fun p => p.engine ≠ some Engine.matrix) }
        t.pushRq r.cmd.tag 0 (faultEntry r.cmd.pc code (r.cmd.idx.toNat + idx * 2 ^ 16) off) s.now none)
      if code = 0x46 ∧ r.cmd.region then s.regionFault r.cmd.tag else s

/-- ENGINE_COMMAND_FAULT (R209, R215): a command that has faulted after its issue ends. -/
def execEngineCommandFault (c : TileId) (e : Engine) (s : State) : Result :=
  match e with
  | .matrix => .next (s.focus c).faultMatrix
  | .row => .next ((s.focus c).faultBlock false)
  | .copy => .next ((s.focus c).faultBlock true)

/-- ENGINE_WATCHDOG (R334): a command that has run for more than EWDOG cycles, when that is not 0, is ended as a fault. -/
def execEngineWatchdog (c : TileId) (e : Engine) (s0 : State) : Result :=
  let s := s0.focus c
  let dog := s.wafer.host.ewdog.toNat
  let late (started ran : Nat) : Bool := dog != 0 && decide (dog < s.now - started + ran)
  match e with
  | .matrix => match s.tile.mx.run with
    | some r => if late r.started r.ran then .next (s.matrixFault 0x4F 0).faultMatrix else .next s0
    | none => .next s0
  | .row => match s.tile.row.run with
    | some r => if late r.started 0 then .next ((s.modRun false (fun r => { r with fault := some (0x56, r.reached s.now) })).faultBlock false) else .next s0
    | none => .next s0
  | .copy => match s.tile.cpy.run with
    | some r => if late r.started 0 then .next ((s.modRun true (fun r => { r with fault := some (0x57, r.reached s.now) })).faultBlock true) else .next s0
    | none => .next s0

/-! ### Start, save and resume (R198, R201, R202) -/

/-- The best queued command whose waits hold. -/
def Tile.nextMatrixCmd (t : Tile) (now : Nat) : Option MatrixCmd :=
  firstBest (fun c : MatrixCmd => agedPrio c.pr (now - c.enq)) (t.mx.queue.filter (fun c => decide (c.enq < now) && t.depHolds c.tag c.dep))

/-- The best saved routine. -/
def Tile.nextSaved (t : Tile) (now : Nat) : Option SavedRoutine :=
  firstBest (fun x : SavedRoutine => agedPrio x.rt.prio (now - x.since)) t.mx.saved

/-- Whether the idle engine resumes a saved routine rather than start a queued command. -/
def Tile.resumesFirst (t : Tile) (now : Nat) : Bool :=
  match t.nextSaved now, t.nextMatrixCmd now with
  | some x, some c => decide (agedPrio c.pr (now - c.enq) ≤ agedPrio x.rt.prio (now - x.since))
  | some _, none => true
  | none, _ => false

/-- The image of a kernel whose routines the tile in focus holds; a change of world has zeroed them since the load (R22, R446). -/
def State.routines (s : State) (kernel : Nat) : Option Image :=
  (s.wafer.imageOf kernel).map (fun i =>
    if s.tile.mem.wiped.contains i.handle then { i with micro := i.micro.map (fun _ => 0) } else i)

/-- An uncorrectable word that the replay after a migration met ends the command that comes first after it (R209, R514): DESIGN CHOICE, unsafe,
log 168. -/
def Tile.preFault (t : Tile) (idx : Nat) : Tile :=
  match t.mx.preBad with
  | some a => { t with mx := { t.mx with preBad := none, run := t.mx.run.map (fun m => { m with fault := some (0x46, idx, a) }) } }
  | none => t

/-- MATRIX_COMMAND_START (R198): the idle engine starts the best queued command, once a replay after a migration has ended (R514); a heavy
routine requests leave. -/
def execMatrixCommandStart (c : TileId) (s0 : State) : Result :=
  let s := s0.focus c
  if s.tile.mx.run.isSome ∨ s.tile.mx.replay ∨ s.tile.resumesFirst s.now then .next s0
  else
    match s.tile.nextMatrixCmd s.now with
    | none => .next s0
    | some cmd =>
      let img := s.routines cmd.kernel
      let cls : Nat := (img.map (fun i => i.classAt cmd.idx.toNat)).getD 0
      let heavy := decide (2 ≤ cls)
      let rt : RoutineState :=
        { idx := (img.bind (fun i => i.entry? cmd.idx.toNat)).getD 0, ptrs := cmd.xs.map (fun x => x.extractLsb' 0 24),
          prio := BitVec.ofNat 2 (agedPrio cmd.pr (s.now - cmd.enq)) }
      let run : MatrixRun :=
        { cmd := cmd, rt := rt, started := s.now, fetchAt := s.now + 1, leave := if heavy then .requested s.now else .none }
      let s := s.modTile (fun t =>
        let t := t.depTake cmd.tag cmd.dep
        ({ t with mx := { t.mx with queue := t.mx.queue.filter (fun x => x.order ≠ cmd.order), run := some run,
                                    pendingShadow := false, pe := [] } }).preFault rt.idx)
      .next (if heavy then s.requestLeave cls else s)

/-- ROUTINE_RESUME (R202): the idle engine restores a saved routine in 16 cycles and then replays the LOADWs of its weights. An active tile
that took no LOADW is zero (R514). -/
def execRoutineResume (c : TileId) (s0 : State) : Result :=
  let s := s0.focus c
  if s.tile.mx.run.isSome ∨ s.tile.mx.replay ∨ !s.tile.resumesFirst s.now then .next s0
  else
    match s.tile.nextSaved s.now with
    | none => .next s0
    | some x =>
      let cls : Nat := ((s.routines x.cmd.kernel).map (fun i => i.classAt x.cmd.idx.toNat)).getD 0
      let heavy := decide (2 ≤ cls)
      let run : MatrixRun :=
        { cmd := x.cmd, rt := x.rt, started := s.now, fetchAt := s.now + 17, leave := if heavy then .requested s.now else .none,
          restoring := some (s.now + 16, x.activeSrc.toList.map (·, true) ++ x.shadowSrc.toList.map (·, false)), ran := x.ran }
      let s := s.modTile (fun t =>
        ({ t with mx := { t.mx with run := some run, pe := [], pendingShadow := false,
                                    active := if x.activeSrc.isNone then {} else t.mx.active,
                                    activeSrc := if x.activeSrc.isNone then none else t.mx.activeSrc,
                                    saved := t.mx.saved.filter (fun y => y.cmd.order ≠ x.cmd.order) } }).preFault x.rt.idx)
      .next (if heavy then s.requestLeave cls else s)

/-- A cycle after a restore (R202): the next replay begins; after the last one fetching goes on. -/
def State.endRestore (s : State) (r : MatrixRun) : State :=
  match r.restoring with
  | none => s
  | some (t, todo) =>
    if s.now ≤ t ∨ r.load.isSome ∨ s.now < r.loadFree then s
    else
      match todo with
      | [] => s.modMx (fun m => { m with restoring := none, fetchAt := max m.fetchAt s.now })
      | (x, act) :: rest => s.modMx (fun m => { m with restoring := some (t, rest), load := some { src := x, active := act, idx := m.rt.idx } })

/-- Whether a queued command overtakes the running one at a boundary (R201), or a migration settles the tile (R439). -/
def State.overtaken (s : State) (r : MatrixRun) : Bool :=
  decide (s.tile.mx.saved.length < 2) && !r.oDirty && r.saving.isNone &&
  (s.tile.life.st == .migrating ||
   match s.tile.nextMatrixCmd s.now with
   | some c => decide (r.rt.prio.toNat < agedPrio c.pr (s.now - c.enq))
   | none => false)

/-- The word that the running routine fetches next; none past the image's part of the store. -/
def State.nextWord (s : State) (r : MatrixRun) : Option (BitVec 64) :=
  (s.routines r.cmd.kernel).bind (fun i => i.micro[r.rt.idx]?)

/-- Whether the array and the loads let a STREAM or, for a DRAIN, its results start in this cycle (R191). -/
def State.arrayReady (s : State) (r : MatrixRun) : Bool :=
  r.stream.isNone && r.load.isNone && decide (r.arrayFree ≤ s.now) && decide (r.loadFree ≤ s.now)

/-- The progress of a save: outputs and loads first, then 16 cycles, then the slot is filled and the leave released. -/
def State.saveCycle (s : State) (r : MatrixRun) : State :=
  match r.saving with
  | none => s
  | some none => if r.outs.isEmpty ∧ r.load.isNone ∧ r.stream.isNone then s.modMx (fun m => { m with saving := some (some (s.now + 16)) }) else s
  | some (some t) =>
    if s.now < t then s
    else
      let x : SavedRoutine :=
        { cmd := r.cmd, rt := r.rt, activeSrc := s.tile.mx.activeSrc,
          shadowSrc := if s.tile.mx.pendingShadow then s.tile.mx.shadowSrc else none, since := s.now, ran := r.ran + (s.now - r.started) }
      s.releaseLeave.modTile (fun t => { t with mx := { t.mx with run := none, saved := t.mx.saved ++ [x] } })

/-! ### What the microinstructions share -/

/-- The running routine of a tile when it may fetch in this cycle. -/
def State.fetching (s : State) : Option MatrixRun :=
  match s.tile.mx.run with
  | none => none
  | some r =>
    let leave := match r.leave with | .requested _ => false | _ => true
    if leave && decide (r.fetchAt ≤ s.now) && r.fault.isNone && r.saving.isNone && r.restoring.isNone then some r else none

/-- ROUTINE_SAVE (R201): where the sequencer may fetch and is about to start a STREAM, and a command overtakes it, fetching stops. -/
def execRoutineSave (c : TileId) (s0 : State) : Result :=
  let s := s0.focus c
  match s.fetching with
  | none => .next s0
  | some r =>
    match (s.nextWord r).bind decodeMicro with
    | some (.stream ..) =>
      if s.overtaken r && s.arrayReady r && r.rt.skip == 0 then .next (s.modMx (fun m => { m with saving := some none })) else .next s0
    | _ => .next s0

/-- The next word: fetched in the next cycle. -/
def MatrixRun.advance (r : MatrixRun) (now : Nat) : MatrixRun := { r with rt := { r.rt with idx := r.rt.idx + 1 }, fetchAt := now + 1 }

/-- Pointer a[p]. -/
def RoutineState.ptr (r : RoutineState) (p : BitVec 3) : Nat := (r.ptrs[p.toNat]'(show p.toNat < 8 from p.isLt)).toNat

/-- A count: the field, or bits [47:32] of the captured x register that CNT[2:0] names (R185, R187). -/
def MatrixRun.count (r : MatrixRun) (cnt : BitVec 16) (cx : BitVec 1) : Nat :=
  if cx = 0 then cnt.toNat else fieldNat (r.cmd.xs.toList.getD (cnt.toNat % 8) 0) 47 32

/-- Whether n bytes at a of a space may be named by the running kernel's routine (Table 7-20, 0x41). -/
def State.rangeOk (s : State) (kernel : Nat) (sp : Space) (a : Int) (n : Nat) : Bool :=
  decide (0 ≤ a) && decide (a + n ≤ ((if sp = .spad then 0x1F0000 else sp.size : Nat) : Int))
  && (unitsOf sp a.toNat n).all (fun u => !s.tile.unitForeign kernel u)

/-- A microinstruction of the routine that runs on tile c: f acts when it can be fetched in this cycle. -/
def State.micro (s0 : State) (c : TileId) (f : State → MatrixRun → State) : Result :=
  let s := s0.focus c
  match s.fetching with
  | none => .next s0
  | some r => .next (f s r)

/-! ### ACCMODE, LOOP, ENDLOOP, SYNC, END -/

/-- ACCMODE (R188). -/
def execAccmode (c : TileId) (add ce col : BitVec 1) (s : State) : Result :=
  s.micro c (fun s r =>
    let r := r.advance s.now
    s.modMx (fun _ => { r with rt := { r.rt with add := add == 1, ce := ce == 1, col := col == 1 } }))

/-- LOOP (R187). -/
def execRoutineLoop (c : TileId) (cnt : BitVec 16) (cx : BitVec 1) (s : State) : Result :=
  s.micro c (fun s r =>
    let n := r.count cnt cx
    if 4 ≤ r.rt.loops.length then s.matrixFault 0x44 0
    else
      let q := r.advance s.now
      if n = 0 then s.modMx (fun _ => { q with rt := { q.rt with skip := 1 } })
      else s.modMx (fun _ => { q with rt := { q.rt with loops := (q.rt.idx, n) :: q.rt.loops } }))

/-- A pointer increment of ENDLOOP, mod 2^24. -/
def RoutineState.bump (r : RoutineState) (e : BitVec 1) (p : BitVec 3) (inc : BitVec 16) : RoutineState :=
  if e = 0 then r
  else { r with ptrs := r.ptrs.set p.toNat (BitVec.ofInt 24 ((r.ptr p : Int) + inc.toInt * 64)) (show p.toNat < 8 from p.isLt) }

/-- ENDLOOP (R187). -/
def execEndloop (c : TileId) (e1 : BitVec 1) (p1 : BitVec 3) (inc1 : BitVec 16) (e2 : BitVec 1) (p2 : BitVec 3) (inc2 : BitVec 16)
    (s : State) : Result :=
  s.micro c (fun s r =>
    match r.rt.loops with
    | [] => s.matrixFault 0x44 0
    | (start, n) :: rest =>
      let q := r.advance s.now
      let rt := (q.rt.bump e1 p1 inc1).bump e2 p2 inc2
      s.modMx (fun _ => { q with rt := if n ≤ 1 then { rt with loops := rest } else { rt with loops := (start, n - 1) :: rest, idx := start } }))

/-- Whether every earlier output has been written and every LOADW has completed, in an earlier cycle (R189). -/
def State.settled (s : State) (r : MatrixRun) : Bool := r.outs.isEmpty && r.stream.isNone && r.load.isNone && decide (r.loadFree ≤ s.now)

/-- SYNC (R189): it signals, and pushes its mark; a full q0 keeps the routine at the SYNC. One that does both signals at once, though its mark
waits: DESIGN CHOICE, unsafe, log 162. -/
def execSync (c : TileId) (sv : BitVec 1) (sem : BitVec 5) (qe : BitVec 1) (mark : BitVec 16) (s : State) : Result :=
  s.micro c (fun s r =>
    if !s.settled r then s
    else
      let s := if qe = 1 ∧ !r.marked then
          (s.modTile (fun t => t.pushRq r.cmd.tag 0 (markEntry mark.toNat) s.now (some .matrix))).modMx (fun m => { m with marked := true })
        else s
      let s := if sv = 1 ∧ !r.marked then
          (s.modTile (fun t => t.modCtx r.cmd.tag (fun x => x.semAdd sem 1))).modMx (fun m => { m with marked := true })
        else s
      if s.tile.pushWaits .matrix then s
      else s.modMx (fun m => { m.advance s.now with marked := false }))

/-- ROUTINE_END (R189, R200): the command completes, signals and releases its leave. -/
def execRoutineEnd (c : TileId) (s : State) : Result :=
  s.micro c (fun s r =>
    if !s.settled r then s
    else s.releaseLeave.modTile (fun t =>
      let t := t.signal r.cmd.tag r.cmd.dep
      { t with mx := { t.mx with run := none, pe := [] } }))

/-! ### LOADW (R184) -/

/-- LOADW (R184): its checks, then it starts, or waits for the LOADW in progress. Where several checks fail the first in the order of the text
below decides (a STREAM and a DRAIN test 0x42 before 0x41 too): DESIGN CHOICE, unsafe, log 159. -/
def execLoadw (c : TileId) (memsel : BitVec 1) (pa : BitVec 3) (off : BitVec 16) (wl : BitVec 5) (sp : BitVec 2) (dw : BitVec 1)
    (nc : BitVec 7) (s : State) : Result :=
  s.micro c (fun s r =>
    if r.load.isSome then s
    else
      let x : LoadSource :=
        { memsel := memsel == 1, base := BitVec.ofNat 24 (r.rt.ptr pa + off.toNat * 64), wl := wl, sp := sp, dw := dw == 1, nc := nc }
      let n := x.csz * (nc.toNat + 1)
      let space : Space := if x.memsel then .wst else .spad
      let cols : Nat := if x.dw then 128 else if layBits wl = 16 then 32 else 64
      let dual := wl.toNat ≤ 2 ∨ wl = 16 ∨ wl = 17
      let writeMode := ((s.wafer.imageOf r.cmd.kernel).map (·.writeMode)).getD false
      let secure := ((s.wafer.kernel? r.cmd.kernel).map (·.secure)).getD false
      if (x.dw ∧ ¬dual) ∨ cols < nc.toNat + 1 ∨ (sp ≠ 0 ∧ (x.dw ∨ layBits wl = 16)) then s.matrixFault 0x42 x.base.toNat
      else if x.memsel ∧ writeMode then s.matrixFault 0x43 x.base.toNat
      else if x.base.toNat % 64 ≠ 0 ∨ !s.rangeOk r.cmd.kernel space x.base.toNat n then s.matrixFault 0x41 x.base.toNat
      else if x.memsel ∧ !secure ∧ (banksOf .wst x.base.toNat n).any (fun b => s.tile.life.wssec.toNat.testBit b) then
        s.matrixFault 0x29 x.base.toNat
      else s.modMx (fun _ => { r.advance s.now with load := some { src := x, idx := r.rt.idx } }))

/-- The engine with the weights that a LOADW, or the replay of one, has read. -/
def MatrixEngine.loaded (m : MatrixEngine) (l : LoadRun) (cols : List (BitVec 10240)) : MatrixEngine :=
  if l.active then { m with active := l.src.tile cols, activeSrc := some l.src }
  else { m with shadow := l.src.tile cols, shadowSrc := some l.src, pendingShadow := true }

/-- A LOADW one beat further, with the columns read if that was its last. -/
def LoadRun.read (l : LoadRun) (v : Nat) : Except (List (BitVec 10240)) LoadRun :=
  let n := l.src.csz / 64
  let got := l.got + v * 2 ^ (512 * (l.beat % n))
  let full := decide ((l.beat + 1) % n = 0)
  let cols := if full then l.cols ++ [BitVec.ofNat 10240 got] else l.cols
  if l.beat + 1 < n * (l.src.nc.toNat + 1) then .ok { l with beat := l.beat + 1, got := if full then 0 else got, cols := cols }
  else .error cols

/-- The space and the address of the next beat of a LOADW. -/
def LoadRun.at' (l : LoadRun) : Space × Nat := (if l.src.memsel then .wst else .spad, l.src.base.toNat + 64 * l.beat)

/-- The cycle of a LOADW in progress: one beat is read, as soon as no lock, unit, bank or refresh holds it back (R193). Its last beat of all
fills the shadow and marks it pending. -/
def State.loadCycle (s : State) (r : MatrixRun) : State :=
  match r.load with
  | none => s
  | some l =>
    let sp := l.at'.1
    let a := l.at'.2
    if !s.beatGoes r.cmd.order r.cmd.kernel sp a 64 false then s
    else
      let bad := s.tile.readBad sp a 64
      let next := l.read (s.tile.read sp a 64)
      let s := s.modTile (fun t => (t.takeBeat sp a 64).countCorrected sp a 64)
      if bad then s.matrixFaultAt l.idx 0x46 a
      else
        match next with
        | .ok l => s.modMx (fun m => { m with load := some l })
        | .error cols => (s.modTile (fun t => { t with mx := t.mx.loaded l cols })).modMx (fun m => { m with load := none, loadFree := s.now + 1 })

/-- A cycle of the replay after a migration, before any command starts (R514): one beat of the active tile's source; a tile that took no LOADW
is zero. -/
def State.preloadCycle (s : State) : State :=
  if !s.tile.mx.replay ∨ s.tile.mx.run.isSome then s
  else
    match s.tile.mx.activeSrc with
    | none => s.modTile (fun t => { t with mx := { t.mx with active := {}, replay := false } })
    | some x =>
      let l := s.tile.mx.preload.getD { src := x, active := true }
      let sp := l.at'.1
      let a := l.at'.2
      if !s.beatGoes 0 0 sp a 64 false then s.modTile (fun t => { t with mx := { t.mx with preload := some l } })
      else
        let bad := s.tile.readBad sp a 64
        let next := l.read (s.tile.read sp a 64)
        let s := s.modTile (fun t => (t.takeBeat sp a 64).countCorrected sp a 64)
        let s := s.modTile (fun t => { t with mx := { t.mx with preBad := if bad ∧ t.mx.preBad.isNone then some a else t.mx.preBad } })
        match next with
        | .ok l => s.modTile (fun t => { t with mx := { t.mx with preload := some l } })
        | .error cols => s.modTile (fun t => { t with mx := { t.mx.loaded l cols with preload := none, replay := false } })

end Sys2Proof.Machine
end

