-- ==== Sys2Proof/Machine/MatrixStream.lean ====
section
/-! DEFINITION. STREAM and DRAIN (R176 to R180, R185, R186, R192) and the matrix engine's cycle: rows, outputs at the accumulator
write port, saves, restores, fetches. -/

namespace Sys2Proof.Machine

/-! ### Sums (R53, R54, R176 to R178) -/

/-- An operand row as read: its planes by sub-row, and its exponent bytes. -/
structure OperandRow where
  planes : List Nat
  exps : Nat := 0
  deriving DecidableEq, Repr

/-- Element k of an operand row in F or O, 512 to a sub-row (R38, R174). -/
def OperandRow.elem (x : OperandRow) (n k : Nat) : Int := planeRead (x.planes.getD (k / 512) 0) 512 n (k % 512)

/-- The scale exponent of a block: E - 127 - (m - 2); none for E = 0xFF (R39, R53). -/
def blockScale (bq : Bool) (m e : Nat) : Option Int := if !bq then some 0 else if e = 255 then none else some ((e : Int) - 127 - ((m : Int) - 2))

/-- lv4 of a block: to_f32_rne of its exact integer sum times a power of two, and whether it overflowed. -/
def blockWord (p : Int) (a b : Option Int) : Nat × Nat :=
  match a, b with
  | some x, some y =>
    let r := Fmt.f32.encodeOv {} 0 (.num (decide (p < 0)) p.natAbs (x + y))
    (r.1, if r.2 then 1 else 0)
  | _, _ => (0x7FC00000, 0)

/-- One level of the tree of R53. -/
def treeLevel : List Nat → List Nat
  | a :: b :: r => addF32 a b :: treeLevel r
  | l => l

/-- Sum of a list of integers. -/
def sumInt (l : List Int) : Int := l.foldl (· + ·) 0

/-- An F output (R176): the exact I32 sum of VP operands and weights, or the F32 word of the tree; with block-scale overflows. -/
def fOutput (w : WeightTile) (ol : BitVec 5) (x : OperandRow) (c : Nat) : Int × Nat :=
  let n := layBits ol
  let keep := 2 ^ (3 - w.sp.toNat)
  let b := w.weights c
  let prod (k : Nat) : Int :=
    let e := if w.sp = 0 then k else 8 * (k / keep) + w.index c k
    x.elem n e * b.getD k 0
  let blocks := (List.range 16).map (fun j => sumInt ((List.range 32).map (fun i => prod (32 * j + i))))
  if !layBq ol && !layBq w.wl then (sumInt blocks, 0)
  else
    let lv4 := (List.range 16).map (fun j =>
      blockWord (blocks.getD j 0) (blockScale (layBq ol) n ((x.exps >>> (8 * j)) % 256))
        (blockScale (layBq w.wl) (layBits w.wl) (w.exps c j)))
    let lv1 := treeLevel (treeLevel (treeLevel (lv4.map Prod.fst)))
    ((addF32 (lv1.getD 0 0) (lv1.getD 1 0) : Nat), (lv4.map Prod.snd).foldl (· + ·) 0)

/-- The T outputs of a row (R177): z[k] for k from 0 to 511. -/
def tOutputs (w : WeightTile) (ol : BitVec 5) (x : OperandRow) : List (Int × Nat) :=
  let n := layBits ol
  let cols := if w.wide then 32 else 64
  let g := (List.range cols).map (fun c => planeRead (x.planes.getD 0 0) 64 n c)
  let b := (List.range cols).map w.weights
  (List.range 512).map (fun k =>
    let blk (lo : Nat) : Int := sumInt ((List.range 32).map (fun i => g.getD (lo + i) 0 * (b.getD (lo + i) []).getD k 0))
    let p0 := blk 0
    let p1 := if w.wide then 0 else blk 32
    if !layBq ol then (p0 + p1, 0)
    else
      let w0 := blockWord p0 (blockScale true n (x.exps % 256)) (some 0)
      let w1 := if w.wide then (0, 0) else blockWord p1 (blockScale true n ((x.exps >>> 8) % 256)) (some 0)
      ((addF32 w0.1 w1.1 : Nat), w0.2 + w1.2))

/-- The PE accumulators after an O row (R178): a[k] x G[c] added exactly. -/
def oAccumulate (pe : List Int) (n : Nat) (x : OperandRow) (g : Nat) : List Int :=
  (List.range 512).flatMap (fun k =>
    let a := x.elem n k
    (List.range 64).map (fun c => pe.getD (64 * k + c) 0 + a * signedOf 8 (g >>> (8 * c))))

/-! ### The accumulator write port (R147, R148, R179, R204) -/

/-- A word written at the port under overwrite, and the events (saturations, NaN results) that it counts. -/
def portWord (isF32 add : Bool) (old : Nat) (v : Int) : Nat × Nat × Nat :=
  if isF32 then
    let x := v.toNat % 2 ^ 32
    let y := if add then addF32 old x else x
    let f := Fmt.f32.decode y
    let bothFinite := !(Fmt.f32.decode old).isInf && !(Fmt.f32.decode old).isNan && !(Fmt.f32.decode x).isInf && !(Fmt.f32.decode x).isNan
    (y, if add && bothFinite && f.isInf then 1 else 0, if f.isNan then 1 else 0)
  else
    let x := wrapNat 32 v
    let out := v < -2 ^ 31 ∨ 2 ^ 31 ≤ v
    let sum := signedOf 32 old + signedOf 32 x
    if add then ((old + x) % 2 ^ 32, if out ∨ sum < -2 ^ 31 ∨ 2 ^ 31 ≤ sum then 1 else 0, 0)
    else (x, if out then 1 else 0, 0)

/-- The words of an output row from address a written one after the other; a coloured beat of the wrong colour is discarded,
which counts once for each 64 bytes (R148, R188). -/
def putWords (o : OutRow) : List Int → Nat → Nat → Tile × Nat × Nat → Tile × Nat × Nat
  | [], _, _, acc => acc
  | v :: vs, i, a, (t, sat, nan) =>
    if o.add && o.coloured && o.col != t.colourAt a then
      putWords o vs (i + 1) (a + 4) (if a % 64 = 0 ∨ i = 0 then t.dropColour else t, sat, nan)
    else
      let w := portWord o.isF32 o.add (t.read .acc a 4) v
      putWords o vs (i + 1) (a + 4) (t.write .acc a 4 w.1, sat + w.2.1, nan + w.2.2)

/-- An output row written, with its events counted to its command's context. An add that its colour discards counts the events of its making,
not those of its write: DESIGN CHOICE, unsafe, log 160. -/
def State.writeOut (s : State) (tag : Tag) (o : OutRow) : State :=
  match putWords o o.words 0 o.addr (s.tile, 0, 0) with
  | (t, sat, nan) =>
    let s := { s with tile := t }
    ((s.countExc 0 (sat + o.sats) tag).countExc 1 nan tag).countExc 2 o.ovfs tag

/-- The output rows that are due, written in their order; a row that a lock or a unit holds back holds back those behind it of its STREAM or
DRAIN. Rows held back are all written in the cycle in which nothing holds them back any more: DESIGN CHOICE, unsafe, log 161. kept are the rows
passed over. -/
def State.writeOuts (s : State) (r : MatrixRun) (kept : List OutRow) : List OutRow → State
  | [] => s.modMx (fun m => { m with outs := kept })
  | o :: rest =>
    if s.now < o.due ∨ kept.any (fun k => k.mi == o.mi)
        ∨ s.tile.engineBlocked s.now r.cmd.order r.cmd.kernel .acc o.addr (4 * o.words.length) true then
      s.writeOuts r (kept ++ [o]) rest
    else (s.writeOut r.cmd.tag o).writeOuts r kept rest

/-! ### STREAM (R180, R185, R192) -/

/-- Whether a STREAM's dataflow, operand layout and active tile go together, and its fields keep their limits (Table 7-3). -/
def streamFormat (df : BitVec 2) (ol : BitVec 5) (w : WeightTile) (xo : BitVec 16) (sb : BitVec 4) : Bool :=
  let sparse := df == 0 && w.sp != 0
  (match df.toNat with
   | 0 => w.sp == 0 || !layBq ol
   | 1 => !layBq w.wl && !w.dw && w.sp == 0
   | _ => !layBq ol)
  && (layBq ol || xo == 0) && (if sparse then sb != 0 else sb == 0)

/-- A pending shadow becomes the active tile (R185). -/
def Tile.swapShadow (t : Tile) : Tile :=
  if t.mx.pendingShadow then
    { t with mx := { t.mx with active := t.mx.shadow, activeSrc := t.mx.shadowSrc, pendingShadow := false } }
  else t

/-- The active tile that a STREAM about to start would see. -/
def MatrixEngine.nextActive (m : MatrixEngine) : WeightTile := if m.pendingShadow then m.shadow else m.active

/-- STREAM (R185): its checks, then its start, as soon as the array is free and every LOADW has completed (R191). -/
def execStream (c : TileId) (df : BitVec 2) (pa po : BitVec 3) (ol : BitVec 5) (cnt : BitVec 16) (cx : BitVec 1) (os : BitVec 8)
    (xo : BitVec 16) (sb : BitVec 4) (s : State) : Result :=
  s.micro c (fun s r =>
    if !s.arrayReady r ∨ s.overtaken r then s
    else
      let w := s.tile.mx.nextActive
      let a := r.rt.ptr pa
      let o := r.rt.ptr po
      let n := r.count cnt cx
      if (cx = 1 ∧ 8 ≤ cnt.toNat) ∨ !streamFormat df ol w xo sb then s.matrixFault 0x42 a
      else
        let image := planeBytes df ol + (if layBq ol ∧ xo = 0 then 64 else 0)
        let x : StreamRun :=
          { mi := r.mseq, idx := r.rt.idx, df := df, ol := ol, rows := n, at' := s.now + 1, base := a,
            stride := if os = 0 then image else os.toNat * 64, xo := xo.toInt, sb := sb.toNat, out := o, add := r.rt.add, ce := r.rt.ce,
            col := r.rt.col }
        let subs := if df = 0 then subRows w.sp else 1
        let bad := (List.range n).any (fun i => (x.reads subs i).any (fun q => !s.rangeOk r.cmd.kernel .spad q.1 q.2))
        let outBad := df ≠ 2 ∧ (o % 64 ≠ 0 ∨ 0x40000 < o + n * 4 * rowWords df w
          ∨ !s.rangeOk r.cmd.kernel .acc o (n * 4 * rowWords df w))
        if n ≠ 0 ∧ (a % 64 ≠ 0 ∨ bad) then s.matrixFault 0x41 a
        else if n ≠ 0 ∧ (outBad ∨ (df = 2 ∧ o % 64 ≠ 0)) then s.matrixFault 0x41 o
        else
          let s := s.modTile Tile.swapShadow
          if n = 0 then s.modMx (fun m => m.advance s.now)
          else s.modMx (fun m => { m.advance s.now with stream := some x, mseq := m.mseq + 1 }))

/-- Cycles per row (Table 7-13). -/
def StreamRun.cycles (x : StreamRun) : Nat := if x.df = 1 then max (layBits x.ol) 4 else layBits x.ol

/-- The outputs of row i of a STREAM in F or T whose last plane enters in this cycle. -/
def StreamRun.outputs (x : StreamRun) (w : WeightTile) (row : OperandRow) (i now : Nat) : List OutRow :=
  let f32 := layBq x.ol || layBq w.wl
  let mk (due addr : Nat) (ws : List (Int × Nat)) : OutRow :=
    { mi := x.mi, due := due, addr := addr, isF32 := f32, words := ws.map Prod.fst, ovfs := (ws.map Prod.snd).foldl (· + ·) 0,
      add := x.add, coloured := x.ce, col := x.col }
  let base := x.out + i * 4 * rowWords x.df w
  if x.df = 0 then [mk (now + 6) base ((List.range (rowWords 0 w)).map (fOutput w x.ol row))]
  else
    let z := tOutputs w x.ol row
    (List.range 4).map (fun j => mk (now + 6 + j) (base + 512 * j) ((z.drop (128 * j)).take 128))

/-- The beats that plane p of row i needs (R192, R193): a beat of each sub-row, in T the one that holds the plane, and with plane 0 the
exponents and the G row. -/
def StreamRun.beats (x : StreamRun) (subs i p : Nat) : List Nat :=
  let rds := (x.reads subs i).map (fun q => q.1.toNat)
  (rds.take subs).map (fun a => a + 64 * (if x.df = 1 then p / 8 else p)) ++ (if p = 0 then rds.drop subs else [])

/-- The beats of the plane that a STREAM stands at, read where they are served in this cycle. -/
def State.streamRead (s : State) (r : MatrixRun) (x : StreamRun) : List Nat → State × StreamRun
  | [] => (s, x)
  | a :: rest =>
    if (assocGet x.got a).isSome ∨ !s.beatGoes r.cmd.order r.cmd.kernel .spad a 64 false then s.streamRead r x rest
    else
      let x := { x with got := assocPut x.got a (s.tile.read .spad a 64),
                        bad := if x.bad.isNone && s.tile.readBad .spad a 64 then some a else x.bad }
      (s.modTile (fun t => (t.takeBeat .spad a 64).countCorrected .spad a 64)).streamRead r x rest

/-- The operand row whose beats have been read. -/
def StreamRun.row (x : StreamRun) (subs : Nat) : OperandRow × Nat :=
  let rds := x.reads subs x.next
  let beat (a : Nat) : Nat := (assocGet x.got a).getD 0
  let rd (k : Nat) : Nat := match rds[k]? with
    | some q => (List.range ((q.2 + 63) / 64)).foldl (fun v j => v + beat (q.1.toNat + 64 * j) * 2 ^ (512 * j)) 0
    | none => 0
  ({ planes := (List.range subs).map rd, exps := if layBq x.ol then rd subs else 0 }, rd (rds.length - 1))

/-- The cycle of a STREAM in progress: the beats of its plane are read, and the plane enters when all have been; a cycle without it moves every
later event of the STREAM (R193). After the last plane of a row its outputs are on their way; after the last row the locks stay until the last
output. -/
def State.streamCycle (s : State) (r : MatrixRun) : State :=
  match r.stream with
  | none => s
  | some x =>
    if s.now < x.at' then s
    else
      let w := s.tile.mx.active
      let n := layBits x.ol
      let subs := if x.df = 0 then subRows w.sp else 1
      let need := x.beats subs x.next x.plane
      match s.streamRead r x need with
      | (s, x) =>
        if need.any (fun a => (assocGet x.got a).isNone) then
          s.modMx (fun m => { m with stream := some x, outs := m.outs.map (fun o =>
            if o.mi = x.mi ∧ s.now < o.due then { o with due := o.due + 1 } else o) })
        else if x.plane + 1 < n then s.modMx (fun m => { m with stream := some { x with plane := x.plane + 1, at' := s.now + 1 } })
        else
          match x.bad with
          | some a => s.matrixFaultAt x.idx 0x46 a
          | none =>
            let row := x.row subs
            let s := if x.df = 2 then
                s.modTile (fun t => { t with mx := { t.mx with pe := oAccumulate t.mx.pe n row.1 row.2 } })
              else s
            let outs := if x.df = 2 then [] else x.outputs w row.1 x.next s.now
            let last := decide (x.rows ≤ x.next + 1)
            let free := s.now + 1 + (x.cycles - n)
            s.modMx (fun m =>
              { m with outs := m.outs ++ outs, oDirty := m.oDirty || x.df == 2,
                       planesEnd := if x.df = 2 then s.now else m.planesEnd, arrayFree := free,
                       stream := if last then none else some { x with next := x.next + 1, plane := 0, got := [], at' := free },
                       locks := if last then (m.locks.filter (m.keeps s.now))
                           ++ (x.locks w r.cmd.order).map (fun l => { until' := s.now, mi := x.mi, lock := l })
                         else m.locks })

/-! ### DRAIN (R178, R186, R192) -/

/-- A drained value as the F32 word of its 32-bit accumulator times 2^scale, and whether that overflows (R53, R186, R204). -/
def drainWord (v scale : Int) : Nat × Bool :=
  let a := signedOf 32 (wrapNat 32 v)
  Fmt.f32.encodeOv {} 0 (.num (decide (a < 0)) a.natAbs scale)

/-- The output rows of a DRAIN that starts at d: one PE row of 64 words in each cycle from d + 1. -/
def drainRows (pe : List Int) (base : Nat) (dt : Bool) (scale : Int) (rt : RoutineState) (mi d : Nat) : List OutRow :=
  (List.range 512).map (fun k =>
    let vs := (List.range 64).map (fun c => pe.getD (64 * k + c) 0)
    let out (v : Int) : Nat := if v < -2 ^ 31 ∨ 2 ^ 31 ≤ v then 1 else 0
    { mi := mi, due := d + 1 + k, addr := base + 256 * k, isF32 := dt,
      words := if dt then vs.map (fun v => ((drainWord v scale).1 : Int)) else vs,
      sats := if dt then (vs.map out).foldl (· + ·) 0 else 0,
      ovfs := if dt then (vs.filter (fun v => (drainWord v scale).2)).length else 0, add := rt.add, coloured := rt.ce, col := rt.col })

/-- ROUTINE_DRAIN (R186): it starts once the array is free and the O STREAM's last plane has entered in an earlier cycle. -/
def execRoutineDrain (c : TileId) (pd : BitVec 3) (dt : BitVec 1) (scale : BitVec 8) (s : State) : Result :=
  s.micro c (fun s r =>
    if !s.arrayReady r ∨ (r.oDirty ∧ s.now ≤ r.planesEnd) then s
    else
      let a := r.rt.ptr pd
      if dt = 0 ∧ scale ≠ 0 then s.matrixFault 0x42 a
      else if a % 64 ≠ 0 ∨ 0x40000 < a + 0x20000 ∨ !s.rangeOk r.cmd.kernel .acc a 0x20000 then s.matrixFault 0x41 a
      else
        let outs := drainRows s.tile.mx.pe a (dt == 1) scale.toInt r.rt r.mseq s.now
        let s := s.modTile (fun t => { t with mx := { t.mx with pe := [] } })
        s.modMx (fun m => { m.advance s.now with
          outs := m.outs ++ outs, arrayFree := s.now + 513, oDirty := false, mseq := r.mseq + 1,
          locks := (m.locks.filter (m.keeps s.now))
            ++ [{ until' := s.now, mi := r.mseq, lock := matrixLock r.cmd.order .acc a 0 1 0x20000 true }] }))

/-! ### The engine's cycle -/

/-- A microinstruction run by the meaning of its instruction. -/
def State.runMicro (s : State) (c : TileId) (m : Micro) : State :=
  let r : Result := match m with
    | .routineEnd => execRoutineEnd c s
    | .loadw memsel pa off wl sp dw nc => execLoadw c memsel pa off wl sp dw nc s
    | .stream df pa po ol cnt cx os xo sb => execStream c df pa po ol cnt cx os xo sb s
    | .drain pd dt scale => execRoutineDrain c pd dt scale s
    | .loop cnt cx => execRoutineLoop c cnt cx s
    | .endloop e1 p1 inc1 e2 p2 inc2 => execEndloop c e1 p1 inc1 e2 p2 inc2 s
    | .accmode add ce col => execAccmode c add ce col s
    | .sync sv sem qe mark => execSync c sv sem qe mark s
  match r with
  | .next s => s
  | _ => s

/-- The depth of a skip after a word that it passes over (R187). -/
def skipDepth (m : Micro) (d : Nat) : Nat := match m with | .loop .. => d + 1 | .endloop .. => d - 1 | _ => d

/-- The fetch of a cycle (R183, R189, R191): an uncorrectable word faults with 0x46, one that is past the image's part of the store
or encodes nothing with 0x40; a skipped word has no effect. -/
def State.fetchMicro (s : State) : State :=
  match s.fetching with
  | none => s
  | some r =>
    let handle := ((s.wafer.imageOf r.cmd.kernel).map (·.handle)).getD 0
    let s := if s.tile.mem.rstoreWeak.contains (handle, r.rt.idx) then s.modTile (fun t => { t with life := t.life.corrected 1 }) else s
    match s.nextWord r with
    | none => s.matrixFault 0x40 0
    | some w =>
      if s.tile.mem.rstoreBad.contains (handle, r.rt.idx) then s.matrixFault 0x46 0
      else
        match decodeMicro w with
        | none => s.matrixFault 0x40 0
        | some m =>
          if r.rt.skip ≠ 0 then
            let q := r.advance s.now
            s.modMx (fun _ => { q with rt := { q.rt with skip := skipDepth m q.rt.skip } })
          else s.runMicro s.tile.at' m

/-- What f does for the running command, if there is one. -/
def State.withMx (s : State) (f : State → MatrixRun → State) : State := match s.tile.mx.run with | some r => f s r | none => s

/-- The fetch side of the matrix engine's cycle: restores, saves, one microinstruction, loads and rows. -/
def State.matrixWork (s : State) : State :=
  let s := (s.withMx State.endRestore).preloadCycle
  let s := s.withMx State.saveCycle
  let s := s.fetchMicro
  let s := s.withMx (fun s r => if r.fault.isSome then s else s.loadCycle r)
  s.withMx (fun s r => if r.fault.isSome then s else s.streamCycle r)

/-- The output side of the matrix engine's cycle. -/
def State.matrixOutputs (s : State) : State := s.withMx (fun s r => if r.fault.isSome then s else s.writeOuts r [] r.outs)

/-- The running command of an engine stopped at the end of a cycle, with its leave released (R207, R216). -/
def State.stopEngine (s : State) (e : Engine) (p : Tag → Bool → Bool) : State :=
  let mine := match e, s.tile.mx.run with
    | .matrix, some r => p r.cmd.tag r.cmd.region
    | _, _ => false
  let s := if mine then s.releaseLeave else s
  s.modTile (fun t => t.stopRunning e p)

end Sys2Proof.Machine
end

