-- ==== Sys2Proof/Machine/Debug.lean ====
section
/-! DEFINITION. Debug, trace and paired runs (chapter 22), and the host's writes of registers that only hold what is written (R9). -/

namespace Sys2Proof.Machine

/-! ### Selection and worlds (R499) -/

/-- The tile and the tag that DSEL names. -/
def State.selTile (s : State) : TileId := ⟨fieldNat s.wafer.dbg.dsel 15 8, fieldNat s.wafer.dbg.dsel 7 0⟩
def State.selTag (s : State) : Tag := Fin.ofNat 8 (fieldNat s.wafer.dbg.dsel 18 16)

/-- A write that a host function may not make is ignored, and HOST_WORLD recorded; f is the write, in the focus of the selected tile. -/
def State.worldWrite (s0 : State) (secureFn : Bool) (denied : State → Bool) (f : State → State) : State :=
  let s := s0.focus s0.selTile
  if denied s && !secureFn then s0.hostEvent 0x96 else f s

/-! ### Holding and stepping (R500 to R503) -/

/-- Whether the selected context or its tile is secure. -/
def State.selSecure (s : State) : Bool := s.tile.life.secure || (s.tile.ctx s.selTag).life.secure

/-- DCTL_HALT (R501): the context is held before its next attempt, or takes 0xBD at it; one that DBGEN does not allow, or that is held
already, is left alone. -/
def execDctlHalt (trapReq secureFn : Bool) (s : State) : Result :=
  s.hostWrites 0xB04 fun s =>
  .next (s.worldWrite secureFn State.selSecure (fun s =>
    let k := s.selTag
    let c := s.tile.ctx k
    if !s.mayHold c ∨ c.life.st = .empty ∨ c.life.st = .killing then s
    else if trapReq then s.defer k 0xBD
    else if c.dbg.held then s else s.hold k 1 0))

/-- DCTL_RESUME (R501). -/
def execDctlResume (secureFn : Bool) (s : State) : Result :=
  s.hostWrites 0xB04 fun s =>
  .next (s.worldWrite secureFn State.selSecure (fun s =>
    s.modTile (fun t => t.modCtx s.selTag (fun c =>
      if c.dbg.held then { c with dbg := { c.dbg with held := false, reason := 0, watch := 0, step := none } } else c))))

/-- DCTL_STEP (R501, R503): a held context makes one step attempt. -/
def execDctlStep (trapReq secureFn : Bool) (s : State) : Result :=
  s.hostWrites 0xB04 fun s =>
  .next (s.worldWrite secureFn State.selSecure (fun s =>
    let k := s.selTag
    let c := s.tile.ctx k
    if !c.dbg.held ∨ (trapReq ∧ !s.mayHold c) then s
    else s.modTile (fun t => t.modCtx k (fun c => { c with dbg := { c.dbg with step := some trapReq } }))))

/-! ### Debug instructions (R505 to R507) -/

/-- BRK (R506): its bundle commits; then the context is held at the next PC, or traps as TRAP does. -/
def execBrk (p : BitVec 2) (n : BitVec 12) (s : State) : Result :=
  .next (SlotOp.run
    { slot := 0, pred := p,
      late := fun s =>
        let s := s.modCtx (fun c => { c with dbg := { c.dbg with brk := n } })
        if s.mayHold s.ctx ∧ !s.ctx.sys.inHandler then s.hold s.tag 2 0 else s.trapHere 0xBB 0 } s)

/-- Whether the tile's trace is of the other world (R507). -/
def State.traceForeign (s : State) : Bool := s.tile.dbg.tctl.toNat.testBit 29 != s.ctx.life.secure

/-- DBGMARK (R507). -/
def execDbgmark (p : BitVec 2) (a : BitVec 5) (n : BitVec 9) (s : State) : Result :=
  .next (SlotOp.run
    { slot := 0, pred := p, reads := [.g a], consumes := fun s => s.anyPoison [.g a],
      checks := fun s => if s.traceForeign then some 0xBF else none,
      act := fun s => s.trace s.tag 4 (s.g a) 0 n.toNat (pcIndex s.ctx.flow.pc) } s)

/-- TRCON and TRCOFF: the trace bit from the next bundle. -/
def opTraceBit (p : BitVec 2) (v : Bool) : SlotOp :=
  { slot := 0, pred := p, checks := fun s => if s.traceForeign then some 0xBF else none,
    late := fun s => s.modCtx (fun c => { c with dbg := { c.dbg with tracing := v } }) }

/-- TRCON (R507). -/
def execTrcon (p : BitVec 2) (s : State) : Result := .next ((opTraceBit p true).run s)
/-- TRCOFF (R507). -/
def execTrcoff (p : BitVec 2) (s : State) : Result := .next ((opTraceBit p false).run s)

/-! ### Accounts and trace (R299, R508, R509) -/

/-- ACHCMD_SNAPSHOT (R509): the values at the end of the cycle that has just ended. -/
def execAchcmdSnapshot (secureFn : Bool) (s : State) : Result :=
  s.hostWrites 0xBD0 fun s =>
  .next (s.worldWrite secureFn (fun s => s.tile.life.secure) (fun s =>
    let e := s.cycle - s.tile.acct.t0
    s.modTile (fun t => { t with acct := { t.acct with hostSnap := t.acct.counts, hostElapsed := e } })))

/-- ACHCMD_CLEAR (R299). -/
def execAchcmdClear (secureFn : Bool) (s : State) : Result :=
  s.hostWrites 0xBD0 fun s =>
  .next (s.worldWrite secureFn (fun s => s.tile.life.secure) (fun s =>
    let c := s.cycle
    s.modTile (fun t => { t with acct := t.acct.clear c })))

/-- TCTL_WRITE (R508): the ring is emptied. -/
def execTctlWrite (value : BitVec 32) (secureFn : Bool) (s : State) : Result :=
  s.hostWrites 0xBC0 fun s =>
  .next (s.worldWrite secureFn (fun s => s.tile.life.secure || s.tile.dbg.tctl.toNat.testBit 29 || value.toNat.testBit 29) (fun s =>
    s.modTile (fun t => { t with dbg := { t.dbg with tctl := value &&& 0xE0000000, ring := [], next := 0, used := 0, discards := 0 } })))

/-! ### Paired runs (R510, R511) -/

/-- Whether two ranges of n numbers meet. -/
def meets (a b n : Nat) : Bool := decide (a < b + n) && decide (b < a + n)

/-- PAIRCTL_WRITE (R510): EN = 1 defines two disjoint partitions, while no kernel is present on either; EN = 0 ends the run. -/
def execPairctlWrite (value : BitVec 32) (secureFn : Bool) (s : State) : Result :=
  s.hostWrites 0xC00 fun s =>
  let d := s.wafer.dbg
  let r : PairPart := { w := fieldNat value 15 8, h := fieldNat value 7 0, primary := d.pairp, shadow := d.pairs }
  let of (t : Tile) : Bool := r.inside r.primary t.at' || r.inside r.shadow t.at'
  let now (t : Tile) : Bool := match d.part with
    | some r => r.inside r.primary t.at' || r.inside r.shadow t.at' | none => false
  if !secureFn ∧ s.tiles.any (fun t => (of t || now t) && t.life.secure) then .next (s.hostEvent 0x96)
  else if !value.toNat.testBit 31 then
    .next (s.modWafer (fun w => { w with dbg := { w.dbg with pairctl := value &&& 0xFFFF, part := none, mismatch := false } }))
  else
    let apart := !(meets (fieldNat d.pairp 15 8) (fieldNat d.pairs 15 8) r.w && meets (fieldNat d.pairp 7 0) (fieldNat d.pairs 7 0) r.h)
    if !apart ∨ s.tiles.any (fun t => of t && !t.kernels.isEmpty) then .next s
    else
      .next (s.modWafer (fun w => { w with dbg := { w.dbg with
        pairctl := value &&& 0x8000FFFF, part := some r, mismatch := false, why := 0, mva := 0, msrc := 0, ordinals := [], beats := [] } }))

/-- A beat of a paired run by its serial number. -/
def State.beat? (s : State) (n : Nat) : Option PairBeat := s.wafer.dbg.beats.find? (fun b => b.serial == n)

/-- The paired beats changed. -/
def State.modBeats (s : State) (f : List PairBeat → List PairBeat) : State :=
  s.modWafer (fun w => { w with dbg := { w.dbg with beats := f w.dbg.beats } })

/-- The beat of a CPYX that waits at the edge, by its ordinal. -/
def BlockRun.waitsFor (r : BlockRun) (ordinal : Nat) : Bool :=
  decide (r.cmd.ordinal ≤ ordinal) && r.inFlight.any (fun f => f.beat == ordinal - r.cmd.ordinal && f.wait == .paired)

/-- The running CPYX of a tile changed by f, if it waits for a beat. -/
def State.modCopyBeat (s : State) (b : PairBeat) (f : BlockRun → BlockRun) : State :=
  s.modTileAt b.src (fun t => { t with cpy := { t.cpy with run := t.cpy.run.map (fun r => if r.waitsFor b.ordinal then f r else r) } })

/-- A beat acknowledged to its source: an RST is performed with its eighth beat. -/
def State.ackPaired (s : State) (b : PairBeat) : State :=
  match b.op with
  | none => s.modCopyBeat b (fun r => { r with inFlight := r.inFlight.filter (fun f => f.beat ≠ b.ordinal - r.cmd.ordinal) })
  | some serial =>
    let s := s.modNet b.src serial (fun o => { o with unitDone := o.unitDone + 1 })
    match (s.tileAt b.src).net? serial with
    | some o => if 8 ≤ o.unitDone ∧ !o.failing then s.dropNet b.src serial else s
    | none => s

/-- A beat refused: its operation fails with reason 11, its CPYX with 0x55. -/
def State.refusePaired (s : State) (b : PairBeat) : State :=
  match b.op with
  | none => s.modCopyBeat b (fun r =>
      { r with inFlight := r.inFlight.filter (fun f => f.beat ≠ b.ordinal - r.cmd.ordinal),
               fault := some (0x55, b.ordinal - r.cmd.ordinal, gaVa b.addr) })
  | some serial =>
    match (s.tileAt b.src).net? serial with
    | some o => if o.failing then s else s.failOp b.src b.src o 11
    | none => s

/-- 0x97 PAIR_MISMATCH recorded by the kernel of a partition. -/
def State.reportPair (s : State) (c : TileId) : State :=
  match (s.tileAt c).kernels with
  | k :: _ => s.modWafer (fun w => w.report k.kernel 0x97 c 0 0 false s.now)
  | [] => s

/-- The tile of the other partition at a beat's position. -/
def State.counterTile (s : State) (b : PairBeat) : TileId :=
  match s.wafer.dbg.part with
  | some r => let base := if b.shadow then r.primary else r.shadow; ⟨fieldNat base 15 8 + b.rx, fieldNat base 7 0 + b.ry⟩
  | none => b.src

/-- A mismatch (R511): why is 1 data, 2 address, 3 timeout; the beats that wait at the edge fail with it (log 177, DEDUCED). -/
def State.mismatch (s : State) (bs : List PairBeat) (why : BitVec 2) : State :=
  match bs with
  | [] => s
  | b :: _ =>
    let all := bs ++ s.wafer.dbg.beats.filter (fun x => x.here && !bs.any (fun y => y.serial == x.serial))
    let s := s.modBeats (fun l => l.filter (fun x => !all.any (fun y => y.serial == x.serial)))
    let s := s.modWafer (fun w => { w with dbg := if w.dbg.mismatch then w.dbg else
      { w.dbg with mismatch := true, why := why, mva := b.addr.setWidth 64,
                   msrc := BitVec.ofNat 32 (b.rx % 256 * 2 ^ 24 + b.ry % 256 * 2 ^ 16 + b.ordinal % 65536) } })
    let s := all.foldl State.refusePaired s
    (s.reportPair b.src).reportPair (s.counterTile b)

/-- PAIR_BEAT_ARRIVAL (R511): a beat meets its counterpart, or waits for it in the pair buffer of 256 beats; a full buffer leaves it in the
network, and after a mismatch every beat fails. -/
def execPairBeatArrival (n : Nat) (s : State) : Result :=
  match s.beat? n with
  | none => .next s
  | some b =>
    if b.here then .next s
    else if s.wafer.dbg.mismatch then .next ((s.modBeats (fun l => l.filter (fun y => y.serial ≠ n))).refusePaired b)
    else
      match s.wafer.dbg.beats.find? (fun x => x.here && x.shadow != b.shadow && x.rx == b.rx && x.ry == b.ry && x.ordinal == b.ordinal) with
      | some x =>
        if x.addr ≠ b.addr ∨ x.nt ≠ b.nt ∨ x.len ≠ b.len then .next (s.mismatch [b, x] 2)
        else if x.data ≠ b.data then .next (s.mismatch [b, x] 1)
        else
          let m := if b.shadow then x else b
          let s := s.modWafer (fun w => { w with ext := w.ext.writeNat 32 m.pa m.len m.data })
          .next (((s.modBeats (fun l => l.filter (fun y => y.serial ≠ b.serial ∧ y.serial ≠ x.serial))).ackPaired b).ackPaired x)
      | none =>
        if 256 ≤ (s.wafer.dbg.beats.filter (·.here)).length then .next (s.timer (s.now + 1) (.pairBeatArrival n))
        else
          .next ((s.modBeats (fun l => l.map (fun y => if y.serial = n then { y with here := true } else y))).timer
            (s.now + s.wafer.dbg.pairto.toNat) (.pairTimeout n))

/-- PAIR_TIMEOUT (R511). -/
def execPairTimeout (n : Nat) (s : State) : Result :=
  match s.beat? n with
  | some b => if b.here then .next (s.mismatch [b] 3) else .next s
  | none => .next s

/-! ### Registers without a behaviour of their own (R9) -/

/-- The fields of a host register that keep their old value outside a mask. -/
def maskOn {w : Nat} (old v m : BitVec w) : BitVec w := (old &&& ~~~ m) ||| (v &&& m)

/-- One half of a 64-bit register pair. -/
def putHalf (old : BitVec 64) (high : Bool) (v : BitVec 32) : BitVec 64 :=
  if high then v ++ old.setWidth 32 else old.extractLsb' 32 32 ++ v

/-- A register write by the host that changes the host registers of the launch window (Tables 13-5, 14-4, 18-4, 19-5). -/
def HostRegs.write (h : HostRegs) (off : Nat) (v : BitVec 32) : HostRegs :=
  match off with
  | 0x500 => { h with ewdog := v }
  | 0x504 => { h with abortLo := v }
  | 0x50C => { h with abortGrace := v }
  | 0x514 => { h with gangGrace := v }
  | 0x600 => { h with ldsrc := putHalf h.ldsrc false v }
  | 0x604 => { h with ldsrc := putHalf h.ldsrc true v }
  | 0x608 => { h with ldsize := v }
  | 0x700 => { h with astBase := (putHalf (h.astBase.setWidth 64) false (v &&& 0xFFFF0000)).setWidth 48 }
  | 0x704 => { h with astBase := (putHalf (h.astBase.setWidth 64) true v).setWidth 48 }
  | 0x710 => { h with tlbVa := putHalf h.tlbVa false (v &&& 0xFFFF0000) }
  | 0x714 => { h with tlbVa := putHalf h.tlbVa true (v &&& 0x01FFFFFF) }
  | 0x720 => { h with pgfRing := (putHalf (h.pgfRing.setWidth 64) false v).setWidth 48 }
  | 0x724 => { h with pgfRing := (putHalf (h.pgfRing.setWidth 64) true v).setWidth 48 }
  | 0x728 => { h with pgfHead := v.setWidth 8 }
  | 0x730 => { h with htBase := (putHalf (h.htBase.setWidth 64) false v).setWidth 48 }
  | 0x734 => { h with htBase := (putHalf (h.htBase.setWidth 64) true v).setWidth 48 }
  | 0x800 => { h with tsel := v.setWidth 16 }
  | 0x81C => { h with ceThresh := v }
  | 0x820 => { h with qTimeout := v }
  | _ => h

/-- The reticle that RSEL names. -/
def Wafer.selReticle (w : Wafer) : ReticleId := Fin.ofNat 96 (12 * fieldNat w.cruise.rsel 2 0 + fieldNat w.cruise.rsel 7 4)

/-- A write of a register of Table 20-9. -/
def State.reticleWrite (s : State) (off : Nat) (v : BitVec 32) : State :=
  let r := s.wafer.selReticle
  match off with
  | 0x900 =>
    s.modWafer (fun w =>
      let col := if 12 ≤ fieldNat v 7 4 then w.cruise.rsel &&& 0xF0 else v.setWidth 8 &&& 0xF0
      { w with cruise := { w.cruise with rsel := col ||| (v.setWidth 8 &&& 7) } })
  | 0x928 => s.modPower r (fun p => { p with ithrot := v })
  | 0x92C => s.modPower r (fun p => { p with leavebud := v })
  | 0x930 => s.modPower r (fun p => { p with leaveto := v })
  | 0x934 => s.modPower r (fun p => { p with crkth := v })
  | _ => s

/-- A write of a register of Table 21-6; an entry of zero is not listed. -/
def Links.write (l : Links) (off : Nat) (v : BitVec 32) : Links :=
  match off with
  | 0xA04 => { l with rsel := v.setWidth 16 }
  | 0xA08 =>
    let e : BitVec 16 := v.setWidth 16 &&& 0xFF3F
    if l.rsel = 0xFFFF then l
    else { l with routes := if e = 0 then assocDel l.routes l.rsel.toNat else assocPut l.routes l.rsel.toNat e }
  | 0xA0C => { l with time := v.setWidth 7 }
  | _ => l

/-- The ends whose peers lie on a wafer that a route entry has made unreachable lose them in the next cycle (R413, R485). -/
def State.routeGone (s : State) (wafer : Nat) : State :=
  if (s.wafer.portTo wafer).isSome then s
  else
    let ends := s.tiles.flatMap (fun t => (t.stores.chans.filter (fun e => s.farEnd e && e.peerWafer == wafer)).map (fun e => (t.at', e.kernel, e.n)))
    ends.foldl (fun s e => s.timer (s.now + 1) (.peerLost e.1 e.2.1 e.2.2)) s

/-- A write of a register of Table 21-7; LKCTL keeps its fields beside the command. -/
def PortRegs.write (r : PortRegs) (off : Nat) (v : BitVec 32) : PortRegs :=
  match off with
  | 0x00 =>
    { r with sec := v.toNat.testBit 29, devctl := v.toNat.testBit 28,
             minw := if 1 ≤ fieldNat v 27 24 ∧ fieldNat v 27 24 ≤ 8 then v.extractLsb' 24 4 else r.minw }
  | 0x0C => { r with peer := v &&& 0xFFFF00BF }
  | 0x14 => { r with pol := v }
  | 0x20 => { r with rplto := v }
  | 0x2C => { r with fecth := v }
  | 0x30 => { r with bmax := v }
  | 0x34 => { r with pmin := v }
  | _ => r

/-- A write of a register of Table 22-1 that selects or configures. -/
def DebugRegs.write (d : DebugRegs) (off : Nat) (v : BitVec 32) : DebugRegs :=
  match off with
  | 0xB00 => { d with dsel := v &&& 0x7FFFF }
  | 0xBD4 => { d with achsel := v &&& 0x1FFFF }
  | 0xC04 => { d with pairp := v.setWidth 16 }
  | 0xC08 => { d with pairs := v.setWidth 16 }
  | 0xC0C => { d with pairto := v }
  | _ => d

/-- A write of DBGEN: a non-secure function changes bit 0 only (R499). -/
def State.writeDbgen (s : State) (v : BitVec 32) (secureFn : Bool) : State :=
  let old := s.wafer.dbg.dbgen
  let new : BitVec 2 := v.setWidth 2
  let s := if !secureFn ∧ (old ^^^ new) &&& 2 ≠ 0 then s.hostEvent 0x96 else s
  s.modWafer (fun w => { w with dbg := { w.dbg with dbgen := if secureFn then new else maskOn old new 1 } })

/-- A write of WPADDR or WPCTL of the selected tile (R499, R504). -/
def State.writeWatch (s : State) (w : Fin 16) (ctl : Bool) (v : BitVec 32) (secureFn : Bool) : State :=
  s.worldWrite secureFn (fun s => s.tile.life.secure) (fun s => s.modTile (fun t =>
    let d := t.dbg
    { t with dbg :=
      if ctl then
        { d with wpCtl := d.wpCtl.set w.val (v &&& 0xFFFF0001) w.isLt,
                 wpHost := if secureFn then d.wpHost ||| BitVec.ofNat 16 (2 ^ w.val) else d.wpHost &&& ~~~ (BitVec.ofNat 16 (2 ^ w.val)) }
      else { d with wpAddr := d.wpAddr.set w.val (v.setWidth 24) w.isLt } }))

/-- A write of a word of a queue's record slots (Table 13-5). -/
def LaunchQueue.writeSlot (x : LaunchQueue) (off : Nat) (v : BitVec 32) : LaunchQueue :=
  let k := off / 64
  let w := off % 64 / 4
  let old := (assocGet x.ring k).getD 0
  { x with ring := assocPut x.ring k (maskOn old (v.setWidth 512 <<< (32 * w)) (0xFFFFFFFF#512 <<< (32 * w))) }

/-- REGISTER_WRITE (R9): the write of a register that has no behaviour of its own stores its field values; reserved bits stay zero. A
register with a behaviour of its own has its own step, and a command field has none here. -/
def execRegisterWrite (offset value : BitVec 32) (secureFn : Bool) (s : State) : Result :=
  let off := offset.toNat
  s.hostWrites off fun s =>
  if off % 4 ≠ 0 then .next s
  else if off < 0x400 then
    let q : QueueId := Fin.ofNat 16 (off / 0x40)
    let reg := off % 0x40
    if reg ≠ 0 ∧ reg ≠ 0x10 then .next s
    else if s.queueDenied q secureFn then .next (s.hostEvent 0x96)
    else .next (s.modQueue q (fun x => if reg = 0 then x.control value else { x with chead := value.setWidth 8 }))
  else if off < 0x900 then .next (s.modWafer (fun w => { w with host := w.host.write off value }))
  else if off < 0xA00 then .next (s.reticleWrite off value)
  else if off < 0xB00 then
    let s := s.modWafer (fun w => { w with links := w.links.write off value })
    .next (if off = 0xA08 then s.routeGone s.wafer.links.rsel.toNat else s)
  else if off = 0xB10 then .next (s.writeDbgen value secureFn)
  else if 0xB40 ≤ off ∧ off < 0xBC0 then .next (s.writeWatch (Fin.ofNat 16 ((off - 0xB40) / 8)) (off % 8 = 4) value secureFn)
  else if off < 0xD00 then .next (s.modWafer (fun w => { w with dbg := w.dbg.write off value }))
  else if 0x10000 ≤ off ∧ off < 0x50000 then
    let q : QueueId := Fin.ofNat 16 ((off - 0x10000) / 0x4000)
    if s.queueDenied q secureFn then .next (s.hostEvent 0x96)
    else .next (s.modQueue q (fun x => x.writeSlot ((off - 0x10000) % 0x4000) value))
  else if 0x70000 ≤ off ∧ off < 0x74000 then
    let p : PortId := Fin.ofNat 64 ((off - 0x70000) / 0x100)
    if s.portDenied p secureFn then .next (s.hostEvent 0x96)
    else .next (s.modPort p (fun x => { x with regs := x.regs.write ((off - 0x70000) % 0x100) value }))
  else .next s

end Sys2Proof.Machine
end

