-- ==== Sys2Proof/Machine/Migration.lean ====
section
/-! DEFINITION. Spares, region quiesce and migration (R431 to R442), scrubbing (R443 to R445), worlds (R446) and the tile registers
(R447). A tile's record is kept under its coordinate, so a migration changes the physical place it names. -/

namespace Sys2Proof.Machine

/-! ### Places, paths and spares (R431, R433) -/

/-- The physical place of a coordinate. -/
def Wafer.placeOf (w : Wafer) (c : TileId) : Option (Nat × Nat) := (w.map.find? (fun e => e.1 == c)).map (·.2)

/-- Physical distance. -/
def gap (a b : Nat) : Nat := if a ≤ b then b - a else a - b
def placeGap (a b : Nat × Nat) : Nat := gap a.1 b.1 + gap a.2 b.2

/-- The logical neighbours of a coordinate on the torus (R26). -/
def Wafer.neighbours (w : Wafer) (c : TileId) : List TileId :=
  [⟨(c.x + 1) % 180, c.y⟩, ⟨(c.x + 179) % 180, c.y⟩, ⟨c.x, (c.y + 1) % w.gridH⟩, ⟨c.x, (c.y + w.gridH - 1) % w.gridH⟩]

/-- The places on the way from one physical place to another, along the row first. -/
def wayTo (a b : Nat × Nat) : List (Nat × Nat) :=
  let span (x y : Nat) : List Nat :=
    if x ≤ y then (List.range (y + 1 - x)).map (· + x) else ((List.range (x + 1 - y)).map (· + y)).reverse
  (span a.1 b.1).map (fun x => (x, a.2)) ++ ((span a.2 b.2).drop 1).map (fun y => (b.1, y))

/-- The neighbour path that a rewrite has written from one coordinate to another (R431). -/
def Wafer.path? (w : Wafer) (a b : TileId) : Option NeighbourPath := w.paths.find? (fun p => p.at' == a && p.far == b && p.span == 1)

/-- The physical links of the neighbour path from one coordinate to another: the cruise's is one link. -/
def Wafer.pathLen (w : Wafer) (a b : TileId) : Nat := ((w.path? a b).map (·.links)).getD 1

/-- The new path from neighbour n of c to a spare (R431): straight over links between adjacent tiles, or, where that is shorter, by the path that n
has and the old tile's router: DEDUCED, unsafe, log 105. -/
def Wafer.newPath (w : Wafer) (c n : TileId) (spare : Nat × Nat) : Option NeighbourPath :=
  match w.placeOf c, w.placeOf n with
  | some old, some pn =>
    if placeGap spare pn ≤ placeGap spare old + w.pathLen n c then
      some { at' := n, far := c, links := placeGap spare pn, places := wayTo pn spare }
    else
      some { at' := n, far := c, links := placeGap spare old + w.pathLen n c,
             places := ((w.path? n c).map (·.places)).getD [pn, old] ++ (wayTo old spare).drop 1 }
  | _, _ => none

/-- The new paths from the neighbours of a coordinate to a spare. -/
def Wafer.newPaths (w : Wafer) (c : TileId) (spare : Nat × Nat) : List NeighbourPath := (w.neighbours c).filterMap (fun n => w.newPath c n spare)

/-- The physical links of those paths. -/
def Wafer.pathLinks (w : Wafer) (c : TileId) (spare : Nat × Nat) : List Nat := (w.newPaths c spare).map (·.links)

/-- The other direction of a path. -/
def NeighbourPath.back (p : NeighbourPath) : NeighbourPath := { p with at' := p.far, far := p.at', places := p.places.reverse }

/-- The neighbour paths with those of a migrated coordinate written anew in both directions (R432, R437). -/
def Wafer.rewritePaths (w : Wafer) (c : TileId) (spare : Nat × Nat) : Wafer :=
  let new := w.newPaths c spare
  { w with paths := w.paths.filter (fun p => !((p.at' == c || p.far == c) && p.span == 1)) ++ new ++ new.map NeighbourPath.back }

/-- The neighbour paths taken round a retired coordinate (R435): those of opposite neighbours lead to each other. How many links they take is
free: DESIGN CHOICE, log 170. -/
def State.bypass (s : State) (c : TileId) : State :=
  match s.freeDelay with
  | (d, s) =>
    let h := s.wafer.gridH
    let pair (a b : TileId) : List NeighbourPath := [{ at' := a, far := b, links := d, span := 2 }, { at' := b, far := a, links := d, span := 2 }]
    s.modWafer (fun w => { w with paths := w.paths ++ pair ⟨(c.x + 179) % 180, c.y⟩ ⟨(c.x + 1) % 180, c.y⟩
                                            ++ pair ⟨c.x, (c.y + h - 1) % h⟩ ⟨c.x, (c.y + 1) % h⟩ })

/-- Whether the cruise found a dead tile in the reticle row segment of a place (R17). -/
def Wafer.segmentBroken (w : Wafer) (p : Nat × Nat) : Bool :=
  w.cruise.reticles.toList.any (fun x => x.place == some (p.1 / 16, p.2 / 21) && x.dead.any (fun t => t.2 == p.2 % 21))

/-- The place of a spare in the order of R433 for a tile at t: class, distance, PTILEY, PTILEX. The kerf of a segment without a dead tile stands in
local column 15. -/
def spareRank (kerf : Bool) (t s : Nat × Nat) : Nat :=
  let cls := if kerf ∧ s.2 = t.2 ∧ s.1 / 16 = t.1 / 16 ∧ s.1 % 16 = 15 then 0 else if s.1 / 16 = t.1 / 16 ∧ s.2 / 21 = t.2 / 21 then 1 else 2
  ((cls * 1000 + placeGap t s) * 1000 + s.2) * 1000 + s.1

/-- The first spare in the order of R433 that has not failed and that some path of at most three links reaches. -/
def Wafer.findSpare (w : Wafer) (c : TileId) (failed : List (Nat × Nat)) : Option (Nat × Nat) :=
  match w.placeOf c with
  | none => none
  | some t =>
    let ok := w.spares.filter (fun s => !failed.contains s && (w.pathLinks c s).any (fun n => decide (n ≤ 3)))
    ok.foldl (fun b s => match b with
      | some x => if spareRank (!w.segmentBroken t) t s < spareRank (!w.segmentBroken t) t x then some s else b
      | none => some s) none

/-! ### Causes of tiles (R277) -/

/-- A cause recorded by a tile. -/
def State.tileCause (s : State) (c : TileId) (code : BitVec 8) : State :=
  (s.modTileAt c (fun t => { t with life := { t.life with causes := t.life.causes ++ [code] } })).modWafer (fun w =>
    { w with host := { w.host with migLast := code } })

/-- A cause recorded by the fault report of every kernel placed on a tile. -/
def State.kernelCause (s : State) (c : TileId) (code : BitVec 8) : State :=
  ((s.tileAt c).kernels.foldl (fun s k => s.modWafer (fun w => w.report k.kernel code c 0 0 false s.now)) s).modWafer (fun w =>
    { w with host := { w.host with migLast := code } })

/-! ### Retirement (R435) -/

/-- A LIVE tile retires with no spare: its contexts are killed, its kernels report, its coordinate leaves the map, channel peers are
lost, and the neighbour paths are taken round it. -/
def State.retire (s : State) (c : TileId) : State :=
  let place := (s.wafer.placeOf c).getD (0, 0)
  let s := (s.kernelCause c 0xA7).kernelCause c 0xAB
  let seqs := (s.tileAt c).kernels.map (·.kernel)
  let s := s.modTileAt c (fun t =>
    let t := seqs.foldl Tile.endShare t
    let t := (List.finRange 8).foldl (fun t k => t.beginKill k none true s.now) t
    { t with life := { t.life with st := .retired } })
  let s := s.modWafer (fun w => { w with map := w.map.filter (fun e => e.1 ≠ c), retired := w.retired ++ [place],
                                         migration := some { c := c, px := place.1, py := place.2, phase := .check, since := s.now,
                                                             due := s.now, retireOnly := true } })
  let peers := s.tiles.flatMap (fun t => (t.stores.chans.filter (fun e => e.peer == c && !s.farEnd e)).map (fun e => (t.at', e.kernel, e.n)))
  peers.foldl (fun s e => s.timer (s.now + 1) (.peerLost e.1 e.2.1 e.2.2)) s

/-! ### The start of a migration (R438, R439) -/

/-- A migration, or a retirement, of a LIVE coordinate begins: settle with the chosen spare reserved, or R435. -/
def State.beginMove (s : State) (c : TileId) (retire : Bool) : State :=
  match (if retire then none else s.wafer.findSpare c []) with
  | none => s.retire c
  | some p =>
    let s := s.modTileAt c (fun t => { t with life := { t.life with st := .migrating }, ctxs := t.ctxs.map Context.discardFeeds })
    s.modWafer (fun w => { w with migration := some { c := c, px := p.1, py := p.2, since := s.now } })

/-- A request to move a coordinate: at once when no migration runs and the tile is LIVE, else in its order; one for a tile that is
neither LIVE nor to be LIVE again has no effect. -/
def State.requestMove (s : State) (c : TileId) (retire : Bool) : State :=
  let st := (s.tileAt c).life.st
  if st = .retired ∨ st = .spare then s
  else if s.wafer.migration.isNone ∧ st = .live then s.beginMove c retire
  else s.modWafer (fun w => { w with migWaiting := w.migWaiting ++ [(c, retire)] })

/-- The requests that wait, the first whose tile is LIVE taken. -/
def State.nextMove (s : State) : List (TileId × Bool) → State
  | [] => s.modWafer (fun w => { w with migWaiting := [] })
  | (c, retire) :: rest =>
    if (s.tileAt c).life.st = .live then (s.modWafer (fun w => { w with migWaiting := rest })).beginMove c retire else s.nextMove rest

/-- The tiles of a region take up injection again. -/
def State.unquiesce (s : State) (cs : List TileId) : State :=
  cs.foldl (fun s c => s.modTileAt c (fun t => if t.life.st = .quiesced then { t with life := { t.life with st := .live } } else t)) s

/-- Resume notices go to every source that holds something for a coordinate (R440). -/
def State.sendResumes (s : State) (c : TileId) : State :=
  ((s.wafer.net.filter (fun m => m.held && m.dst == c)).map (·.src)).eraseDups.foldl (fun s x => s.post c x (.resume c)) s

/-- The migration that runs is over; the next request is taken. -/
def State.endMove (s : State) : State :=
  let s := s.modWafer (fun w => { w with migration := none })
  s.nextMove s.wafer.migWaiting

/-- The tile that TSEL names. -/
def State.hostTile (s : State) : TileId := ⟨fieldNat s.wafer.host.tsel 15 8, fieldNat s.wafer.host.tsel 7 0⟩

/-- MIGCMD_MIGRATE (R438, R439). -/
def execMigcmdMigrate (s : State) : Result :=
  s.hostWrites 0x810 fun s =>
  .next (s.requestMove s.hostTile false)
/-- MIGCMD_RETIRE (R435, R438). -/
def execMigcmdRetire (s : State) : Result :=
  s.hostWrites 0x810 fun s =>
  .next (s.requestMove s.hostTile true)

/-- Whether a move of a coordinate runs or waits. -/
def Wafer.moving (w : Wafer) (c : TileId) : Bool := w.migration.any (fun g => g.c == c) || w.migWaiting.any (fun e => e.1 == c)

/-- CE_THRESHOLD_MIGRATION (R438): the corrected errors of a tile reach CETHRESH within one grain, which asks for one migration. -/
def execCeThresholdMigration (c : TileId) (s : State) : Result :=
  let n := s.wafer.host.ceThresh.toNat
  let l := (s.tileAt c).life
  if n = 0 ∨ l.ceGrain < n ∨ l.ceTold then .next s
  else
    let s := s.modTileAt c (fun t => { t with life := { t.life with ceTold := true } })
    .next (if s.wafer.moving c then s else s.requestMove c false)

/-- WS_REFRESH_MISS (R438): the weight store of a tile with a coordinate reports a missed refresh, 0xAA. -/
def execWsRefreshMiss (c : TileId) (s : State) : Result :=
  if (s.tileAt c).life.st = .retired ∨ (s.tileAt c).life.st = .spare then .next s
  else
  let s := s.tileCause c 0xAA
  .next (if s.wafer.moving c then s else s.requestMove c false)

/-- WEIGHT_STORE_REFRESH (R144): bank b's window of 96 cycles begins where (CYCLE - 1024 b) mod 32,768 is 0. The window is a function of
CYCLE (inRefresh), which every access asks; the refresh itself leaves what the bank holds. -/
def execWeightStoreRefresh (_c : TileId) (_bank : Fin 32) (s : State) : Result := .next s

/-! ### Copy and check (R439, R440, R442) -/

/-- Whether a tile has settled (Table 19-3, phase 1): no command runs, every outlet is written, every network-queue entry is injected. -/
def Tile.hasSettled (t : Tile) : Bool :=
  t.mx.run.isNone && t.row.run.isNone && t.cpy.run.isNone && t.netq.all (·.injected)
  && t.ctxs.toList.all (fun c => c.outlets.toList.all (fun o => o.buf.isEmpty))

/-- The migration changed by f. -/
def State.modMove (s : State) (f : Migration → Migration) : State :=
  s.modWafer (fun w => { w with migration := w.migration.map f })

/-- Flits of a tile image (R439). -/
def imageFlits : Nat := 152192

/-- Words of a tile's image that read as uncorrectable: of its memories and of the registers in its tile-state block (R442). -/
def Tile.badWords (t : Tile) : Nat :=
  let m := t.mem
  m.spad.bad.length + m.acc.bad.length + m.wst.bad.length + m.istoreBad.length + m.rstoreBad.length
    + t.ctxs.toList.foldl (fun n c => n + c.regBad.length) 0

/-- Words of a tile whose next read corrects an error. -/
def TileMem.weakWords (m : TileMem) : Nat :=
  m.spad.weak.length + m.acc.weak.length + m.wst.weak.length + m.istoreWeak.length + m.rstoreWeak.length

/-- Every word written back corrected. -/
def TileMem.mended (m : TileMem) : TileMem :=
  { m with spad := { m.spad with weak := [] }, acc := { m.acc with weak := [] }, wst := { m.wst with weak := [] },
           istoreWeak := [], rstoreWeak := [] }

/-- The copy begins in the cycle that runs (R439, R440): one flit a cycle, then two cycles for each link of the way. An uncorrectable word
records 0xAC once in the migration; a word with a correctable error is corrected. -/
def State.beginCopy (s : State) (g : Migration) : State :=
  let t := s.tileAt g.c
  let place := (s.wafer.placeOf g.c).getD (0, 0)
  let sent := s.now + imageFlits - 1
  let s := if g.copied then s else (List.range t.badWords).foldl (fun s _ => s.tileCause g.c 0xAC) s
  let s := s.modTileAt g.c (fun t => { t with life := t.life.corrected t.mem.weakWords, mem := t.mem.mended })
  s.modMove (fun g => { g with phase := .copy, since := s.now, due := sent + 2 * placeGap place (g.px, g.py) + 1, acctAt := sent,
                               acct := none, copied := true })

/-- MIGRATION_COPY (R439): settle has ended, and the copy takes its first flit in the next cycle, the one after its entry at the earliest; from here
on arrivals are held. -/
def execMigrationCopy (s : State) : Result :=
  match s.wafer.migration with
  | none => .next s
  | some g => if g.phase = .settle ∧ !g.retireOnly ∧ g.since < s.now ∧ (s.tileAt g.c).hasSettled then .next (s.beginCopy g) else .next s

/-- A place leaves the spare pool; a place joins the retired ones. -/
def Wafer.dropSpare (w : Wafer) (p : Nat × Nat) : Wafer :=
  { w with spares := w.spares.filter (fun q => q ≠ p), spareMem := w.spareMem.filter (fun e => (e.px, e.py) ≠ p) }
def Wafer.retirePlace (w : Wafer) (p : Nat × Nat) : Wafer := { w with retired := w.retired ++ [p] }

/-- The target spare has failed (R434, R440): it is RETIRED, and the copy starts again to the next one; with none left the migration is
given up, its tile is LIVE and 0xA8 and 0xAB are recorded. -/
def State.failSpare (s : State) (g : Migration) : State :=
  let failed := (g.px, g.py) :: g.failed
  let s := s.modWafer (fun w => (w.dropSpare (g.px, g.py)).retirePlace (g.px, g.py))
  let s := s.unquiesce g.region
  match s.wafer.findSpare g.c failed with
  | some p =>
    let g : Migration := { g with px := p.1, py := p.2, failed := failed, retried := false, region := [], timedOut := false }
    let s := s.modMove (fun _ => g)
    if g.phase = .settle then s else s.beginCopy g
  | none =>
    let s := s.modTileAt g.c (fun t => { t with life := { t.life with st := .live } })
    let s := (s.tileCause g.c 0xA8).tileCause g.c 0xAB
    ((s.modWafer (fun w => { w with migration := none })).sendResumes g.c).endMove

/-- MIGRATION_CHECK (R439, R442): the CRCs are equal, and the rewrite is next; a first mismatch copies to the same spare again, a second one
fails the spare. -/
def execMigrationCheck (equal : Bool) (s : State) : Result :=
  match s.wafer.migration with
  | none => .next s
  | some g =>
    if g.phase ≠ .copy ∨ s.now + 1 < g.due ∨ (equal ∧ s.now < g.due) then .next s
    else if equal then .next (s.modMove (fun g => { g with phase := .check, since := s.now, due := s.now + 1 }))
    else if g.retried then .next (s.failSpare g)
    else .next ((s.beginCopy g).modMove (fun g => { g with retried := true }))

/-- SPARE_FAILURE (R440). -/
def execSpareFailure (s : State) : Result :=
  match s.wafer.migration with
  | none => .next s
  | some g => if g.retireOnly then .next s else .next (s.failSpare g)

/-! ### Rewrite (R436, R437) -/

/-- The region of a rewrite (R436): row and column of the coordinate, and the tiles on its old and its new paths. -/
def Wafer.regionOf (w : Wafer) (c : TileId) (spare : Nat × Nat) : List TileId :=
  let ways := (w.paths.filter (fun p => p.far == c) ++ w.newPaths c spare).flatMap (·.places)
  (w.map.filter (fun e => e.1.x == c.x || e.1.y == c.y || ways.contains e.2)).map (·.1)

/-- Whether no flit lies in a router or a link of the region. -/
def Wafer.drained (w : Wafer) (region : List TileId) : Bool := w.net.all (fun m => m.held || region.all (fun t => !w.passes m t))

/-- MIGRATION_REWRITE (R437): the region is quiesced, and when no flit lies in it the neighbour paths are written; injection resumes in the
next cycle. With no path of at most three links the target is treated as failed, 0xAD. -/
def execMigrationRewrite (s : State) : Result :=
  match s.wafer.migration with
  | none => .next s
  | some g =>
    if g.phase = .check then
      if s.now < g.due then .next s
      else if !g.retireOnly ∧ (s.wafer.pathLinks g.c (g.px, g.py)).any (fun n => decide (3 < n)) then
        .next ((s.tileCause g.c 0xAD).failSpare g)
      else
        let region := s.wafer.regionOf g.c (g.px, g.py)
        let s := region.foldl (fun s c => s.modTileAt c (fun t =>
          if t.life.st = .live then { t with life := { t.life with st := .quiesced } } else t)) s
        .next (s.modMove (fun g => { g with phase := .rewrite, since := s.now, region := region }))
    else if g.phase = .rewrite ∧ g.since < s.now ∧ s.wafer.drained g.region then
      let s := if g.retireOnly then s.bypass g.c else s.modWafer (fun w => w.rewritePaths g.c (g.px, g.py))
      .next (s.modMove (fun g => { g with phase := .resume, since := s.now, due := s.now + 1 }))
    else .next s

/-- QUIESCE_TIMEOUT (R437): a drain of more than QTIMEOUT cycles records 0xAE once, and goes on. -/
def execQuiesceTimeout (s : State) : Result :=
  match s.wafer.migration with
  | none => .next s
  | some g =>
    if g.phase = .rewrite ∧ !g.timedOut ∧ s.wafer.host.qTimeout.toNat < s.now - g.since then
      .next ((s.tileCause g.c 0xAE).modMove (fun g => { g with timedOut := true }))
    else .next s

/-! ### Resume (R441, R514) -/

/-- The tile as the spare takes it: LIVE at its place, TLB empty, the copied account store with 4 QUIESCE for each cycle since it was read,
the active tile to be read again by its LOADW, the shadow zero; the corrected errors of a grain are the new tile's own. -/
def Tile.moved (t : Tile) (g : Migration) (now : Nat) : Tile :=
  let acct := match g.acct with
    | some (a, k, range) => a.charge k range 19 (4 * (now - g.acctAt))
    | none => t.acct
  { t with life := { t.life with st := .live, px := g.px, py := g.py, sram := { began := now }, wst := { began := now },
                                  ceGrain := 0, ceLast := 0, ceTold := false },
           stores := { t.stores with tlb := [] }, acct := acct,
           mx := { t.mx with replay := true, shadow := {}, pendingShadow := false, shadowSrc := none, preload := none, preBad := none } }

/-- MIGRATION_RESUME (R439, R441): the map names the spare, which is LIVE; the old tile is RETIRED; resume notices go out. After the
paths have been taken round a retired tile nothing is left to do. -/
def execMigrationResume (s : State) : Result :=
  match s.wafer.migration with
  | none => .next s
  | some g =>
    if g.phase ≠ .resume ∨ s.now < g.due then .next s
    else
      let s := s.unquiesce g.region
      if g.retireOnly then .next s.endMove
      else
        let old := (s.wafer.placeOf g.c).getD (0, 0)
        let s := s.modWafer (fun w =>
          { (w.dropSpare (g.px, g.py)).retirePlace old with
            map := w.map.map (fun e => if e.1 = g.c then (g.c, g.px, g.py) else e), migration := none })
        .next (((s.modTileAt g.c (fun t => t.moved g s.now)).sendResumes g.c).endMove)

/-! ### Scrubbing (R443 to R445) -/

/-- Beats of a pass, and its deadline in cycles (R443). -/
def scrubBeats (sram : Bool) : Nat := if sram then 41216 else 262144
def scrubDeadline (sram reduced : Bool) : Nat :=
  let n := if sram then 80000000 else 1250000000
  if reduced then n / 2 else n

/-- The pass of a tile that is named. -/
def TileLife.scrub (l : TileLife) (sram : Bool) : ScrubPass := if sram then l.sram else l.wst
def TileLife.setScrub (l : TileLife) (sram : Bool) (p : ScrubPass) : TileLife := if sram then { l with sram := p } else { l with wst := p }

/-- The beats that a pass should have scrubbed by a cycle. -/
def ScrubPass.expected (p : ScrubPass) (sram reduced : Bool) (now : Nat) : Nat :=
  (now - p.began) * scrubBeats sram / scrubDeadline sram reduced

/-- Whether a pass is late (R443). -/
def ScrubPass.isLate (p : ScrubPass) (sram reduced : Bool) (now : Nat) : Bool :=
  decide (p.beat + 1024 < p.expected sram reduced now)

/-- A pass one beat further: it may be late no longer; its last beat begins the next pass, unless it comes past the deadline. -/
def ScrubPass.scrubbed (p : ScrubPass) (sram reduced : Bool) (now : Nat) : ScrubPass :=
  let q : ScrubPass := { p with beat := p.beat + 1 }
  if q.beat < scrubBeats sram then { q with late := q.late && decide (q.beat + 1024 < q.expected sram reduced now) }
  else if p.began + scrubDeadline sram reduced < now then { q with overdue := true }
  else { began := p.began + scrubDeadline sram reduced }

/-- Whether a beat is offered in a cycle: on the pace of the deadline, at twice the pace while the last grain's corrected errors exceed
CETHRESH / 4 (R469), in every cycle while the pass is late (R444). -/
def State.scrubOffered (s : State) (l : TileLife) (sram : Bool) : Bool :=
  let p := l.scrub sram
  let pace := p.expected sram s.wafer.cruise.reduced s.now
  let th := s.wafer.host.ceThresh.toNat
  let fast := decide (th < 4 * l.ceLast)
  p.late || decide (p.beat < min (scrubBeats sram) (if fast then 2 * pace else pace))

/-- The memory and the offset of a beat of a pass: scratchpad, accumulator, then the instruction and routine stores (no offset). -/
def scrubPlace (sram : Bool) (beat : Nat) : Option (Space × Nat) :=
  if !sram then some (.wst, 64 * beat)
  else if beat < 32768 then some (.spad, 64 * beat)
  else if beat < 36864 then some (.acc, 64 * (beat - 32768))
  else none

/-- Whether a word of the instruction store, or of the routine store, lies in a beat of an SRAM pass: bundles 4 k to 4 k + 3 and
microinstructions 8 k to 8 k + 7 of a window. -/
def inFetchBeat (beat : Nat) (e : Nat × Nat) : Bool := e.2 / 4 == beat - 36864
def inRoutineBeat (beat : Nat) (e : Nat × Nat) : Bool := e.2 / 8 == beat - 40960

/-- Whether a beat of an SRAM pass holds an uncorrectable word of those stores. -/
def TileMem.storeBad (m : TileMem) (beat : Nat) : Bool :=
  if beat < 40960 then m.istoreBad.any (inFetchBeat beat) else m.rstoreBad.any (inRoutineBeat beat)

/-- A beat of those stores read: its corrected errors are counted and written back (R22, R445). -/
def Tile.mendStore (t : Tile) (beat : Nat) : Tile :=
  if beat < 40960 then
    { t with life := t.life.corrected (t.mem.istoreWeak.filter (inFetchBeat beat)).length,
             mem := { t.mem with istoreWeak := t.mem.istoreWeak.filter (fun e => !inFetchBeat beat e) } }
  else
    { t with life := t.life.corrected (t.mem.rstoreWeak.filter (inRoutineBeat beat)).length,
             mem := { t.mem with rstoreWeak := t.mem.rstoreWeak.filter (fun e => !inRoutineBeat beat e) } }

/-- The words with a correctable error in 64 bytes at a written back. -/
def Store.mend (m : Store) (g a : Nat) : Store :=
  { m with weak := m.weak.filter (fun k => !(decide (g * k < a + 64) && decide (a < g * (k + 1)))) }

/-- Whether a beat of a pass holds an uncorrectable word. -/
def Tile.beatBad (t : Tile) (sram : Bool) (beat : Nat) : Bool :=
  match scrubPlace sram beat with | some (sp, a) => t.readBad sp a 64 | none => t.mem.storeBad beat

/-- A beat of a pass read: its corrected errors are counted and written back (R443, R445). -/
def Tile.mendBeat (t : Tile) (sram : Bool) (beat : Nat) : Tile :=
  match scrubPlace sram beat with
  | some (sp, a) => (t.countCorrected sp a 64).setStore sp ((t.store sp).mend sp.word a)
  | none => t.mendStore beat

/-- A beat read by the scrubber: corrected errors are counted and written back, an uncorrectable word is recorded and left. -/
def State.scrubRead (s : State) (sram : Bool) (beat : Nat) : State :=
  let t := s.tile
  let bad := t.beatBad sram beat
  let s := s.modTile (fun t => t.mendBeat sram beat)
  if bad then (s.tileCause t.at' 0xA6).modTile (fun t => { t with life := { t.life with uncorrected := min (t.life.uncorrected + 1) 0xFFFF } })
  else s

/-- Whether the beat's bank is free for the scrubber (R142, R217, R444). -/
def State.scrubFree (s : State) (sram : Bool) (beat : Nat) : Bool :=
  match scrubPlace sram beat with
  | some (sp, a) => s.tile.bankIdle s.now s.cycle sp a 64
  | none => true

/-- The beat taken by the scrubber. -/
def State.scrubTake (s : State) (sram : Bool) (beat : Nat) : State :=
  match scrubPlace sram beat with
  | some (sp, a) => s.modTile (fun t => t.takeBeat sp a 64)
  | none => s

/-- SCRUB_BEAT (R443 to R445): the next beat of a pass is scrubbed where the core leaves it free; the last one begins the next pass, unless
the pass has run past its deadline, which SCRUB_LATE records. -/
def execScrubBeat (c : TileId) (sram : Bool) (s0 : State) : Result :=
  let s := s0.focus c
  let l := s.tile.life
  let p := l.scrub sram
  let reduced := s.wafer.cruise.reduced
  if l.st = .retired ∨ l.st = .migrating ∨ p.overdue ∨ !s.scrubOffered l sram ∨ !s.scrubFree sram p.beat then .next s0
  else
    let s := (s.scrubTake sram p.beat).scrubRead sram p.beat
    .next (s.modTile (fun t => { t with life := t.life.setScrub sram (p.scrubbed sram reduced s.now) }))

/-- SCRUB_LATE (R443, R444): a pass falls more than 1,024 beats behind, or has ended past its deadline: 0xA9, and the next pass begins. -/
def execScrubLate (c : TileId) (sram : Bool) (s0 : State) : Result :=
  let s := s0.focus c
  let p := s.tile.life.scrub sram
  if p.overdue then .next ((s.tileCause c 0xA9).modTile (fun t => { t with life := t.life.setScrub sram { began := s.now } }))
  else if !p.late ∧ p.isLate sram s.wafer.cruise.reduced s.now then
    .next (s.modTile (fun t => { t with life := t.life.setScrub sram { p with late := true } }))
  else .next s0

/-! ### Spares (R434, R443) -/

/-- A pass of a spare. -/
def SpareTile.scrub (t : SpareTile) (sram : Bool) : ScrubPass := if sram then t.sram else t.wst
def SpareTile.setScrub (t : SpareTile) (sram : Bool) (p : ScrubPass) : SpareTile := if sram then { t with sram := p } else { t with wst := p }

/-- A pass of a spare in a cycle, with the causes that it records (0xA6, 0xA9): nothing else uses its memories, so a beat is scrubbed whenever one
is offered; a corrected error is written back. -/
def SpareTile.scrubCycle (t : SpareTile) (sram reduced : Bool) (now : Nat) : SpareTile × List (BitVec 8) :=
  let p := t.scrub sram
  if p.overdue then (t.setScrub sram { began := now }, [0xA9])
  else
    let p := { p with late := p.late || p.isLate sram reduced now }
    if p.late ∨ p.beat < min (scrubBeats sram) (p.expected sram reduced now) then
      let u : Tile := { at' := ⟨0, 0⟩, mem := t.mem }
      (({ t with mem := (u.mendBeat sram p.beat).mem }).setScrub sram (p.scrubbed sram reduced now),
       if u.beatBad sram p.beat then [0xA6] else [])
    else (t.setScrub sram p, [])

/-- A spare in a cycle: both its passes; one in which a scrub finds an uncorrectable beat retires, unless it is reserved (Table 19-1). -/
def State.scrubSpare (s : State) (t : SpareTile) : State :=
  match t.scrubCycle true s.wafer.cruise.reduced s.now with
  | (a, c) => match a.scrubCycle false s.wafer.cruise.reduced s.now with
    | (b, d) =>
      let place := (t.px, t.py)
      let s := s.modWafer (fun w => { w with
        spareMem := w.spareMem.map (fun e => if (e.px, e.py) = place then b else e),
        host := { w.host with migLast := (c ++ d).getLastD w.host.migLast } })
      if (c ++ d).contains 0xA6 ∧ !s.wafer.migration.any (fun g => (g.px, g.py) == place && !g.retireOnly) then
        s.modWafer (fun w => (w.dropSpare place).retirePlace place)
      else s

/-- The spares in a cycle. -/
def State.scrubSpares (s : State) : State := s.wafer.spareMem.foldl State.scrubSpare s

/-! ### Late passes -/

/-- Whether a late pass takes this cycle from a seat-0 context of PRIO 0 (R444): the last of every 64 such cycles. -/
def State.scrubTakes (s : State) : Bool :=
  let l := s.tile.life
  (l.sram.late || l.wst.late) && l.scrubTurn == 63
  && (match s.tile.core.seats[0] with | some st => (s.tile.ctx st.tag).sys.prio == 0 | none => false)

/-! ### Worlds (R446) -/

/-- The worlds of a tile's banks that a write asks for: a non-secure tile holds only non-secure banks. -/
def TileLife.wantedBanks (l : TileLife) : BitVec 32 := if l.wantSecure.getD l.secure then l.wantWssec.getD l.wssec else 0

/-- A change of world that must wait for a kernel records 0xAF. -/
def State.worldWaits (s : State) (c : TileId) (changes : Bool) : State :=
  if changes ∧ !(s.tileAt c).kernels.isEmpty then s.tileCause c 0xAF else s

/-- TWORLD_WRITE (R446): a change of the world of the tile of TSEL is requested. -/
def execTworldWrite (value : BitVec 1) (s : State) : Result :=
  s.hostWrites 0x808 fun s =>
  let c := s.hostTile
  let want := value == 1
  let s := s.modTileAt c (fun t => { t with life := { t.life with wantSecure := if t.life.secure = want then none else some want } })
  .next (s.worldWaits c (s.tileAt c).life.wantSecure.isSome)

/-- WSSEC_WRITE (R446): a change of the worlds of its weight-store banks is requested. -/
def execWssecWrite (value : BitVec 32) (s : State) : Result :=
  s.hostWrites 0x80C fun s =>
  let c := s.hostTile
  let s := s.modTileAt c (fun t => { t with life := { t.life with wantWssec := if t.life.wssec = value then none else some value } })
  .next (s.worldWaits c (s.tileAt c).life.wantWssec.isSome)

/-- Every memory of a tile written with zeros, and its weights (R446, R514). -/
def Tile.wipe (t : Tile) (images : List Nat) : Tile :=
  { t with mem := { t.mem with spad := {}, acc := {}, wst := {}, istoreBad := [], rstoreBad := [], istoreWeak := [],
                               rstoreWeak := [], wiped := images },
           mx := { t.mx with active := {}, shadow := {}, activeSrc := none, shadowSrc := none, pendingShadow := false, replay := false,
                             preload := none, preBad := none } }

/-- A weight-store bank written with zeros, which occupies it for 8,192 cycles (R446). -/
def Tile.zeroBank (t : Tile) (now b : Nat) : Tile :=
  let t := t.setStore .wst ((t.store .wst).zero Space.wst.word (b * 0x80000) 0x80000)
  { t with core := { t.core with banks := t.core.banks ++ [{ sp := .wst, bank := b, start := now, free := now + 8192 }] } }

/-- WORLD_CHANGE (R446): with no kernel present the waiting changes take effect. A change of the tile's world zeroes every memory of
it; a change of a bank's world zeroes the bank. -/
def execWorldChange (c : TileId) (s : State) : Result :=
  let t := s.tileAt c
  let l := t.life
  if !t.kernels.isEmpty ∨ (l.wantSecure.isNone ∧ l.wantWssec.isNone) then .next s
  else
    let secure := l.wantSecure.getD l.secure
    let banks := l.wantedBanks
    let changed := (List.range 32).filter (fun b => l.wssec.toNat.testBit b != banks.toNat.testBit b)
    let images := s.wafer.images.map (·.handle)
    .next (s.modTileAt c (fun t =>
      let t := if secure != l.secure then t.wipe images else t
      let t := changed.foldl (fun t b => t.zeroBank s.now b) t
      { t with life := { t.life with secure := secure, wssec := banks, wantSecure := none, wantWssec := none } }))

/-! ### Tile registers (R447, Table 19-5) -/

/-- CECOUNT_READ (R447): the read returns CECOUNT of the tile of TSEL and clears it. -/
def execCecountRead (s : State) : Result :=
  let v : BitVec 64 := (s.tileAt s.hostTile).life.ceCount.setWidth 64
  .next ((s.modTileAt s.hostTile (fun t => { t with life := { t.life with ceCount := 0 } })).hostRead v)

/-- Codes of Table 19-2. -/
def TileSt.code : TileSt → Nat
  | .spare => 0 | .live => 1 | .quiesced => 2 | .migrating => 3 | .retired => 4

/-- TSTATE of the tile of TSEL. -/
def State.tstate (s : State) : BitVec 32 :=
  let l := (s.tileAt s.hostTile).life
  BitVec.ofNat 32 (l.st.code * 2 ^ 28 + bnat l.secure * 2 ^ 27 + l.px % 256 * 2 ^ 16 + l.py % 256 * 2 ^ 8)

/-- MIGSTAT. -/
def State.migstat (s : State) : BitVec 32 :=
  let phase : Nat := match s.wafer.migration with
    | none => 0
    | some g => match g.phase with | .settle => 1 | .copy => 2 | .check => 3 | .rewrite => 4 | .resume => 5
  BitVec.ofNat 32 (bnat s.wafer.migration.isSome * 2 ^ 31 + phase * 2 ^ 28 + s.wafer.host.migLast.toNat * 2 ^ 16 + s.wafer.spares.length % 65536)

/-- SCRSTAT of the tile of TSEL. -/
def State.scrstat (s : State) : BitVec 32 :=
  let l := (s.tileAt s.hostTile).life
  BitVec.ofNat 32 (bnat l.sram.late * 2 ^ 31 + bnat l.wst.late * 2 ^ 30 + l.uncorrected % 65536)

end Sys2Proof.Machine
end

