-- ==== Sys2Proof/Machine/Reticle.lean ====
section
/-! DEFINITION. The cruise (R448 to R458): self-test, keys, probing, the messages of the management links, election, claims, placement, the
route-table base. Times are in units of 0.1 ns of wafer.time. -/

namespace Sys2Proof.Machine

/-! ### Reticles and their sides -/

/-- A reticle of the state. -/
def State.ret (s : State) (r : ReticleId) : Reticle := s.wafer.cruise.reticles[r]

/-- The cruise changed by f. -/
def State.modCruise (s : State) (f : Cruise → Cruise) : State := s.modWafer (fun w => { w with cruise := f w.cruise })

/-- The neighbour of a reticle on a side: 0 N, 1 E, 2 S, 3 W (R15). -/
def beside (r : ReticleId) (side : Fin 4) : Option ReticleId :=
  let col := r.val % 12
  let row := r.val / 12
  match side.val with
  | 0 => if row < 7 then some (Fin.ofNat 96 (r.val + 12)) else none
  | 1 => if col < 11 then some (Fin.ofNat 96 (r.val + 1)) else none
  | 2 => if 0 < row then some (Fin.ofNat 96 (r.val - 12)) else none
  | _ => if 0 < col then some (Fin.ofNat 96 (r.val - 1)) else none

/-- The side that faces a side. -/
def facing (side : Fin 4) : Fin 4 := Fin.ofNat 4 (side.val + 2)

/-- A side of a reticle changed by f. -/
def Reticle.modSide (x : Reticle) (side : Fin 4) (f : SideState → SideState) : Reticle :=
  { x with side := x.side.set side.val (f x.side[side]) side.isLt }

/-- A cause recorded in RCAUSE (R470). -/
def State.retCause (s : State) (r : ReticleId) (code : BitVec 8) : State :=
  s.modReticle r (fun x => { x with cause := code, causes := BitVec.ofNat 16 (min (x.causes.toNat + 1) 0xFFFF) })

/-- A step of the cruise put on its timer list, d units from now. -/
def State.cruiseTimer (s : State) (d : Nat) (a : Auto) : State :=
  s.modCruise (fun c => { c with timers := c.timers ++ [(s.wafer.time + d, a)] })

/-! ### Messages (R454, Tables 20-3 and 20-4) -/

/-- Fields of a cruise message. -/
def msgType (m : BitVec 512) : Nat := fieldNat m 31 28
def msgRound (m : BitVec 512) : BitVec 16 := m.extractLsb' 0 16
def msgSeq (m : BitVec 512) : BitVec 32 := m.extractLsb' 32 32
def msgKey (m : BitVec 512) : BitVec 64 := m.extractLsb' 64 64
/-- w bits of the payload from byte b of the message on. -/
def msgField (m : BitVec 512) (b w : Nat) : BitVec w := m.extractLsb' (8 * b) w

/-- CRC-32C of bytes 0 to 59. -/
def msgCrc (m : BitVec 512) : BitVec 32 := crcBytes m 60 0 0xFFFFFFFF ^^^ 0xFFFFFFFF

/-- A message with its CRC. -/
def msgSeal (m : BitVec 512) : BitVec 512 :=
  let body : BitVec 512 := m &&& (BitVec.ofNat 512 (2 ^ 480 - 1))
  body ||| ((msgCrc body).setWidth 512 <<< 480)

/-- The bytes of the payload that a type uses, as a mask over the message. -/
def payloadMask (typ : Nat) : Nat :=
  let bytes (b n : Nat) : Nat := (2 ^ (8 * n) - 1) * 2 ^ (8 * b)
  match typ with
  | 0 => bytes 16 2 + bytes 20 4
  | 1 => bytes 16 2 + bytes 20 4
  | 2 => bytes 16 8
  | 3 => bytes 16 8
  | 4 => bytes 16 1 + (2 ^ 42 - 1) * 2 ^ (8 * 18) + (2 ^ 84 - 1) * 2 ^ (8 * 24) + bytes 36 8
  | 5 => bytes 16 33
  | 6 => bytes 16 3
  | 7 => bytes 16 8
  | _ => bytes 16 9

/-- Whether a message is discarded (R454): its CRC, its TYPE, a field marked zero. -/
def msgBad (m : BitVec 512) : Bool :=
  msgCrc m != m.extractLsb' 480 32 || decide (9 ≤ msgType m) || fieldNat m 19 16 != 0
  || (m.toNat / 2 ^ 128 * 2 ^ 128 % 2 ^ 480) &&& payloadMask (msgType m) != m.toNat / 2 ^ 128 * 2 ^ 128 % 2 ^ 480

/-- A message handed to the link on a side: it crosses in at most 1 µs, behind those that went before it. -/
def State.sendMsg (s : State) (r : ReticleId) (side : Fin 4) (m : BitVec 512) : State :=
  match beside r side with
  | none => s
  | some q =>
    match s.freeVal 16 with
    | (d, s) =>
      let at' := s.wafer.time + 1 + d.toNat % usec
      let last := s.wafer.cruise.timers.foldl (fun n t =>
        match t.2 with | .cruiseMessage p k _ => if p = q ∧ k = facing side then max n t.1 else n | _ => n) 0
      s.modCruise (fun c => { c with timers := c.timers ++ [(max at' last, .cruiseMessage q (facing side) m)] })

/-- The UP sides of a reticle. -/
def Reticle.upSides (x : Reticle) : List (Fin 4) := (List.finRange 4).filter (fun k => (x.side[k]).res == .up)

/-- A message flooded on every UP side but one. -/
def State.flood (s : State) (r : ReticleId) (m : BitVec 512) (but : Option (Fin 4)) : State :=
  ((s.ret r).upSides.filter (fun k => some k != but)).foldl (fun s k => s.sendMsg r k m) s

/-- A message that a reticle makes: its key and its next SEQ; a flooded one counts as seen. payload stands from byte 16 on. -/
def State.makeMsg (s : State) (r : ReticleId) (typ : Nat) (key : BitVec 64) (payload : Nat) : BitVec 512 × State :=
  let x := s.ret r
  let m := msgSeal (BitVec.ofNat 512 (x.round.toNat + typ * 2 ^ 28 + x.seq.toNat * 2 ^ 32 + key.toNat * 2 ^ 64 + payload % 2 ^ 352 * 2 ^ 128))
  (m, s.modReticle r (fun x => { x with seq := x.seq + 1, seen := (typ, key.toNat, x.seq.toNat) :: x.seen }))

/-- A message made and flooded. -/
def State.floodNew (s : State) (r : ReticleId) (typ payload : Nat) : State :=
  match s.makeMsg r typ (s.ret r).key payload with
  | (m, s) => s.flood r m none

/-- A flooded message passed on, once for each TYPE, SRCKEY and SEQ; whether it is new here. -/
def State.passFlood (s : State) (r : ReticleId) (side : Fin 4) (m : BitVec 512) : Bool × State :=
  let id : Nat × Nat × Nat := (msgType m, (msgKey m).toNat, (msgSeq m).toNat)
  if (s.ret r).seen.contains id then (false, s)
  else
    let hops : BitVec 512 := (BitVec.ofNat 512 ((fieldNat m 27 20 + 1) % 256)) <<< 20
    let n := msgSeal ((m &&& ~~~(0xFF00000#512)) ||| hops)
    (true, (s.modReticle r (fun x => { x with seen := id :: x.seen })).flood r n (some side))

/-- Whether a Koldiot core takes messages: it is past self-test. -/
def RetSt.hears : RetSt → Bool
  | .reset => false | .selfTest => false | .failed => false | _ => true

/-- A message of one type reaches a reticle on a side: discarded ones are counted, and three in a row make the side DEAD (R454). -/
def State.msgIn (s : State) (r : ReticleId) (side : Fin 4) (m : BitVec 512) (typ : Nat) (f : State → State) : Result :=
  let x := s.ret r
  let k := x.side[side]
  if !x.st.hears ∨ 3 ≤ k.discards ∨ (x.st ≠ .probe ∧ k.res ≠ .up) then .next s
  else if msgBad m then
    .next (s.modReticle r (fun x => x.modSide side (fun k =>
      { k with discards := k.discards + 1, res := if k.discards + 1 = 3 then .dead else k.res })))
  else if msgType m ≠ typ then .next s
  else .next (f (s.modReticle r (fun x => x.modSide side (fun k => { k with discards := 0 }))))

/-! ### Self-test and keys (R450 to R452) -/

/-- Time moves on to a moment that the cruise has reached. -/
def State.reach (s : State) (t : Nat) : State := s.modWafer (fun w => { w with time := max w.time t })

/-- RESET_RELEASE (R450, R451): every reticle in RESET begins self-test; the records of the boot flash are read (R449). With none in RESET
nothing happens (R13). -/
def execResetRelease (s : State) : Result :=
  if (List.finRange 96).all (fun q => (s.ret q).st != .reset) then .next s
  else
  .next (s.modCruise (fun c =>
    { c with reticles := c.reticles.map (fun x => if x.st = .reset then { x with st := .selfTest, entered := s.wafer.time } else x),
             busy := true, newdef := 0, keyBad := c.flash.keys.isNone, defBad := c.flash.defects.isNone, geoBad := c.flash.geometry.isNone }))

/-- PUFID of the secret of a reticle. -/
def secretId (r : ReticleId) : BitVec 56 :=
  let n := Config.pufSecret r.val
  BitVec.ofNat 56 (sha384 ((List.range 48).map (fun k => BitVec.ofNat 8 (n / 256 ^ (47 - k)))))

/-- The PUFID that a reticle derives: that of its secret where the geometry record has its helper data, else that of a raw reading. -/
def State.pufId (s : State) (r : ReticleId) : BitVec 56 × State :=
  let id := secretId r
  if (s.wafer.cruise.flash.geometry.getD []).any (fun g => g.1 == id) then (id, s) else s.freeVal 56

/-- Distinct tiles of a reticle in a list of local places. -/
def localTiles (l : List (Nat × Nat)) : List (Nat × Nat) := (l.filter (fun t => decide (t.1 < 16) && decide (t.2 < 21))).eraseDups

/-- A PROBE or PROBE_ACK payload: side, and the results of the boundary data links. -/
def probePayload (side : Fin 4) (bits : BitVec 32) : Nat := side.val + bits.toNat * 2 ^ 32

/-- Boundary data links of a side. -/
def boundaryLinks (side : Fin 4) : Nat := if side.val % 2 = 0 then 16 else 21

/-- The results of a side's data links that a reticle sends. -/
def Reticle.linkResults (x : Reticle) (side : Fin 4) : BitVec 32 :=
  (x.side[side]).linkBits &&& BitVec.ofNat 32 (2 ^ boundaryLinks side - 1)

/-- SELF_TEST_END (R451 to R453): after 2,000 µs a reticle whose core, PLL, rail or domain has failed is FAILED; another knows its dead
tiles, its health score and its key, and probes its sides. -/
def execSelfTestEnd (r : ReticleId) (ok : Bool) (failed : List (Nat × Nat)) (s : State) : Result :=
  let x := s.ret r
  if x.st ≠ .selfTest then .next s
  else
    let s := s.reach (x.entered + 2000 * usec)
    if !ok then .next (s.modReticle r (fun x => { x with st := .failed, entered := s.wafer.time }))
    else
      match s.pufId r with
      | (id, s) =>
        let listed := ((s.wafer.cruise.flash.defects.getD []).find? (fun d => d.1 == id)).elim [] (fun d => localTiles d.2)
        let bad := localTiles failed
        let fresh := bad.filter (fun t => !listed.contains t)
        let dead := listed ++ fresh
        let health := BitVec.ofNat 8 (255 * (336 - dead.length) / 336)
        let s := s.modCruise (fun c => { c with newdef := c.newdef + BitVec.ofNat 32 fresh.length })
        let s := s.modReticle r (fun x =>
          { x with st := .probe, entered := s.wafer.time, dead := dead, health := health, key := health ++ id,
                   side := x.side.map (fun (k : SideState) => { k with sentAt := s.wafer.time }) })
        let s := (List.finRange 4).foldl (fun s k =>
          match s.makeMsg r 0 (s.ret r).key (probePayload k ((s.ret r).linkResults k)) with | (m, s) => s.sendMsg r k m) s
        .next (s.cruiseTimer (100 * usec) (.probeEnd r))

/-! ### Probing (R453) -/

/-- PROBE_MESSAGE (R453): the neighbour's PROBE is answered. -/
def execProbeMessage (r : ReticleId) (side : Fin 4) (msg : BitVec 512) (s : State) : Result :=
  s.msgIn r side msg 0 (fun s =>
    if (s.ret r).st ≠ .probe then s
    else
      let s := s.modReticle r (fun x => x.modSide side (fun k => { k with seen := true, linkBits := k.linkBits &&& msgField msg 20 32 }))
      match s.makeMsg r 1 (s.ret r).key (probePayload side ((s.ret r).linkResults side)) with
      | (m, s) => s.sendMsg r side m)

/-- PROBE_ACK (R453): the side answers; its latency is half the round trip, to 10 ns. -/
def execProbeAck (r : ReticleId) (side : Fin 4) (msg : BitVec 512) (s : State) : Result :=
  s.msgIn r side msg 1 (fun s =>
    if (s.ret r).st ≠ .probe then s
    else s.modReticle r (fun x => x.modSide side (fun k =>
      { k with acked := true, linkBits := k.linkBits &&& msgField msg 20 32,
               latency := BitVec.ofNat 16 ((s.wafer.time - k.sentAt) / 200) })))

/-- What a side shows at the end of probing. -/
def sideResult (r : ReticleId) (side : Fin 4) (k : SideState) : SideRes :=
  if (beside r side).isNone then .edge else if k.acked && k.seen && decide (k.discards < 3) then .up else .dead

/-- The tiles that the failing data links of the N and E sides make dead: those on their south and west ends are this reticle's. -/
def Reticle.linkDead (x : Reticle) : List (Nat × Nat) :=
  let fails (side : Fin 4) (n : Nat) : List Nat :=
    if (x.side[side]).res = .up then (List.range n).filter (fun i => !(x.side[side]).linkBits.toNat.testBit i) else []
  (fails 0 16).map (fun i => (i, 20)) ++ (fails 1 21).map (fun i => (15, i))

/-! ### Election (R455) -/

/-- A reticle enters a round with a best key, which it floods. -/
def State.enterRound (s : State) (r : ReticleId) (n : BitVec 16) (best : BitVec 64) (up : Option (Fin 4)) : State :=
  let t := s.wafer.time
  let s := s.modReticle r (fun x =>
    { x with st := .elect, entered := t, roundAt := t, round := n, best := best, up := up, reports := [], routes := [],
             clock := { x.clock with startAt := none } })
  let s := s.modCruise (fun c => { c with round := if c.round.toNat < n.toNat then n else c.round, busy := true,
                                          leader := if c.leader = some r then none else c.leader })
  (s.floodNew r 2 best.toNat).cruiseTimer (200 * usec) (.roundTimer r)

/-- A re-election begins at a reticle. -/
def State.reElect (s : State) (r : ReticleId) : State :=
  let x := s.ret r
  (s.retCause r 0xBA).enterRound r (x.round + 1) x.key none

/-- PROBE_END (R453, R455): the sides are known, tiles on failing boundary links are dead, and round 1 begins. -/
def execProbeEnd (r : ReticleId) (s : State) : Result :=
  let x := s.ret r
  if x.st ≠ .probe ∨ s.wafer.time < x.entered + 100 * usec then .next s
  else
    let x : Reticle := { x with side := Vector.ofFn (fun (k : Fin 4) =>
      let v := x.side[k]
      { v with res := sideResult r k v }) }
    let x : Reticle := { x with dead := (x.dead ++ x.linkDead).eraseDups }
    .next ((s.modReticle r (fun _ => x)).enterRound r 1 x.key none)

/-- Whether a reticle takes part in an election now. -/
def Reticle.elects (x : Reticle) : Bool :=
  !x.barred && (match x.st with
    | .elect => true | .follower => true | .leader => true | .map => true | .clock => true | .ready => true | _ => false)

/-- A reticle joins the round of an ELECT with the higher of its own key and the one received. -/
def State.joinRound (s : State) (r : ReticleId) (n : BitVec 16) (key : BitVec 64) (side : Fin 4) : State :=
  let own := (s.ret r).key
  s.enterRound r n (if own.toNat < key.toNat then key else own) (if own.toNat < key.toNat then some side else none)

/-- Whether a reticle leads: it is LEADER, or the primary leader that has gone on. -/
def State.leads (s : State) (r : ReticleId) : Bool := (s.ret r).st == .leader || s.wafer.cruise.leader == some r

/-- LEADER_MESSAGE (R455): a heartbeat of this round or a later one is heard. -/
def execLeaderMessage (r : ReticleId) (side : Fin 4) (msg : BitVec 512) (s : State) : Result :=
  s.msgIn r side msg 3 (fun s =>
    match s.passFlood r side msg with
    | (false, s) => s
    | (true, s) => if (msgRound msg).toNat < (s.ret r).round.toNat then s else s.modReticle r (fun x => { x with heard := s.wafer.time }))

/-- LEADER_HEARTBEAT (R455): a leader floods LEADER every 10 µs. -/
def execLeaderHeartbeat (r : ReticleId) (s : State) : Result :=
  if !s.leads r ∨ (s.ret r).st = .failed then .next s
  else .next ((s.floodNew r 3 (s.ret r).key.toNat).cruiseTimer (10 * usec) (.leaderHeartbeat r))

/-! ### Reports (R455, Table 20-4) -/

/-- Dead tiles of local row k, as a report gives them: 3 for two or more. -/
def Reticle.deadCode (x : Reticle) (k : Nat) : Nat := let n := (x.dead.filter (fun t => t.2 == k)).length; if 2 ≤ n then 3 else n
/-- The dead column of a row with one dead tile. -/
def Reticle.deadCol (x : Reticle) (k : Nat) : Nat :=
  if x.deadCode k = 1 then ((x.dead.find? (fun t => t.2 == k)).map (·.1)).getD 0 else 0

def SideRes.code : SideRes → Nat
  | .dead => 0 | .up => 1 | .edge => 2

/-- The report of a reticle. -/
def Reticle.report (x : Reticle) (via : Fin 4) : ReportRec :=
  let sum (n w : Nat) (f : Nat → Nat) : Nat := (List.range n).foldl (fun v k => v + f k * 2 ^ (w * k)) 0
  { key := x.key, sides := BitVec.ofNat 16 (sum 4 2 (fun k => (x.side[Fin.ofNat 4 k]).res.code)),
    deads := BitVec.ofNat 48 (sum 21 2 x.deadCode), cols := BitVec.ofNat 96 (sum 21 4 x.deadCol),
    lats := BitVec.ofNat 64 (sum 4 16 (fun k => (x.side[Fin.ofNat 4 k]).latency.toNat)), via := via }

/-- A report as a payload, and back. -/
def ReportRec.payload (p : ReportRec) : Nat :=
  p.sides.toNat + p.deads.toNat * 2 ^ 16 + p.cols.toNat * 2 ^ 64 + p.lats.toNat * 2 ^ 160
def readReport (m : BitVec 512) (via : Fin 4) : ReportRec :=
  { key := msgKey m, sides := msgField m 16 16, deads := msgField m 18 48, cols := msgField m 24 96, lats := msgField m 36 64, via := via }

/-- Live tiles of a report: a row with code 3 is counted with two dead. -/
def ReportRec.live (p : ReportRec) : Nat :=
  (List.range 21).foldl (fun n k => let c := fieldNat p.deads (2 * k + 1) (2 * k); n + 16 - (if c = 3 then 2 else c)) 0

/-- Whether the reticle beside one on a side still takes messages. -/
def State.alive (s : State) (r : ReticleId) (k : Fin 4) : Bool := (beside r k).any (fun q => (s.ret q).st.hears)

/-- The side by which a shortest way over UP sides leads from a reticle into a set that grows from its target. -/
def State.around (s : State) (r : ReticleId) : Nat → List ReticleId → Option (Fin 4)
  | 0, _ => none
  | n + 1, set =>
    match (s.ret r).upSides.find? (fun k => (beside r k).any set.contains) with
    | some k => some k
    | none => s.around r n ((set ++ (set.flatMap (fun q => (s.ret q).upSides.filterMap (beside q))).filter (fun q => (s.ret q).st.hears)).eraseDups)

/-- A message toward the reticle of a key goes by the ways that its REPORT came, and around a way that has died. -/
def State.toward (s : State) (r : ReticleId) (key : BitVec 64) (m : BitVec 512) : State :=
  let ways := ((((s.ret r).routes.filter (fun e => e.1 == key.toNat)).map (·.2)).eraseDups).filter (s.alive r)
  let ways := if ways.isEmpty then
      ((s.around r 96 ((List.finRange 96).filter (fun q => (s.ret q).key == key && (s.ret q).st.hears))).map (fun k => [k])).getD []
    else ways
  ways.foldl (fun s k => s.sendMsg r k m) s

/-- EXCLUDE sent to the reticle of a key. -/
def State.sendExclude (s : State) (r : ReticleId) (key : BitVec 64) (reason : Nat) : State :=
  match s.makeMsg r 8 (s.ret r).key (key.toNat + reason * 2 ^ 64) with
  | (m, s) => s.toward r key m

/-- A reticle is excluded: ISOLATED with 0xB8; reason 2 bars it from later rounds. -/
def State.exclude (s : State) (r : ReticleId) (reason : Nat) : State :=
  (s.modReticle r (fun x => { x with st := .isolated, entered := s.wafer.time, place := none, barred := x.barred || reason == 2 })).retCause r 0xB8

/-- REPORT_MESSAGE (R455): toward the leader, which keeps it; two reports with one PUFID are both excluded, and a round begins. -/
def execReportMessage (r : ReticleId) (side : Fin 4) (msg : BitVec 512) (s : State) : Result :=
  s.msgIn r side msg 4 (fun s =>
    let s := s.modReticle r (fun x => { x with routes := x.routes ++ [((msgKey msg).toNat, side)] })
    let x := s.ret r
    if (msgRound msg) ≠ x.round then s
    else if x.best = x.key ∧ (x.st = .elect ∨ x.st = .leader) then
      let p := readReport msg side
      let twin (k : BitVec 64) : Bool := fieldNat k 55 0 == fieldNat p.key 55 0
      let s := s.modReticle r (fun x => { x with reports := x.reports ++ [p] })
      if x.st = .leader ∧ twin x.key then (s.sendExclude r p.key 2).exclude r 2
      else if x.st = .leader ∧ x.reports.any (fun q => twin q.key) then
        let both := (p.key :: (x.reports.filter (fun q => twin q.key)).map (·.key)).eraseDups
        (both.foldl (fun s k => s.sendExclude r k 2) s).reElect r
      else s
    else match x.up with
      | some k => s.sendMsg r k msg
      | none => s)

/-- ROUND_TIMER (R455): 200 µs after a reticle entered a round it is LEADER, when the best key is its own, or a FOLLOWER that reports. -/
def execRoundTimer (r : ReticleId) (s : State) : Result :=
  let x := s.ret r
  let t := s.wafer.time
  if x.st ≠ .elect ∨ t < x.roundAt + 200 * usec then .next s
  else if x.best = x.key then
    let s := s.modReticle r (fun x => { x with st := .leader, entered := t })
    let twin := x.reports.any (fun p => fieldNat p.key 55 0 == fieldNat x.key 55 0)
    let s := s.floodNew r 3 x.key.toNat
    .next (if twin then ((x.reports.filter (fun p => fieldNat p.key 55 0 == fieldNat x.key 55 0)).foldl (fun s p => s.sendExclude r p.key 2) s).exclude r 2
      else (s.cruiseTimer (10 * usec) (.leaderHeartbeat r)).cruiseTimer (200 * usec) (.claimPost r))
  else
    let s := (s.modReticle r (fun x => { x with st := .follower, entered := t, heard := t })).cruiseTimer (50 * usec + 1) (.heartbeatTimeout r)
    match x.up with
    | none => .next s
    | some k => match s.makeMsg r 4 x.key (x.report 0).payload with | (m, s) => .next (s.sendMsg r k m)

/-! ### Claims (R456) -/

/-- CLAIM_POST (R456). -/
def execClaimPost (r : ReticleId) (s : State) : Result :=
  let x := s.ret r
  if x.st ≠ .leader ∨ s.wafer.time < x.entered + 200 * usec then .next s
  else
    let live := (x.report 0).live + x.reports.foldl (fun n p => n + p.live) 0
    let s := s.modCruise (fun c => { c with claims := c.claims ++ [{ key := x.key, round := x.round, live := live }] })
    .next (s.cruiseTimer (100 * usec) (.claimWindowEnd r))

/-- The primary claim: of the highest round, the most live tiles, then the higher key. -/
def bestClaim (l : List Claim) : Option Claim :=
  let top := l.foldl (fun n c => max n c.round.toNat) 0
  (l.filter (fun c => c.round.toNat == top)).foldl (fun b c => match b with
    | some x => if x.live < c.live ∨ (x.live = c.live ∧ x.key.toNat < c.key.toNat) then some c else b
    | none => some c) none

/-! ### Placement (R457) -/

/-- A reticle as the leader knows it. -/
structure MapNode where
  id : ReticleId
  key : BitVec 64
  rec' : ReportRec
  deriving DecidableEq, Repr

/-- The component of a leader: itself and the reporters that are not FAILED or ISOLATED. -/
def State.component (s : State) (r : ReticleId) : List MapNode :=
  let x := s.ret r
  let who (k : BitVec 64) : Option ReticleId := (List.finRange 96).find? (fun q =>
    (s.ret q).key == k && (s.ret q).st.hears && (s.ret q).st != .isolated && q != r)
  { id := r, key := x.key, rec' := x.report 0 } :: x.reports.filterMap (fun p => (who p.key).map (fun q => { id := q, key := p.key, rec' := p }))

/-- What a report says of a side. -/
def ReportRec.sideCode (p : ReportRec) (k : Fin 4) : Nat := fieldNat p.sides (2 * k.val + 1) (2 * k.val)

/-- The step to the neighbour on a side: field columns, field rows. -/
def sideStep (k : Fin 4) : Int × Int := match k.val with | 0 => (0, 1) | 1 => (1, 0) | 2 => (0, -1) | _ => (-1, 0)

/-- The nodes beside a node over UP sides. -/
def MapNode.besides (n : MapNode) (ns : List MapNode) : List (Fin 4 × MapNode) :=
  (List.finRange 4).filterMap (fun (k : Fin 4) =>
    if n.rec'.sideCode k = 1 then ((beside n.id k).bind (fun q => ns.find? (fun m => m.id == q))).map (fun m => (k, m)) else none)

/-- Positions relative to the first node, over UP sides, spread n steps. -/
def spread (ns : List MapNode) : Nat → List (MapNode × Int × Int) → List (MapNode × Int × Int)
  | 0, l => l
  | n + 1, l =>
    let new := l.flatMap (fun e => (e.1.besides ns).map (fun q => (q.2, e.2.1 + (sideStep q.1).1, e.2.2 + (sideStep q.1).2)))
    let l' := new.foldl (fun l e => if l.any (fun x => x.1.id == e.1.id) then l else l ++ [e]) l
    if l'.length = l.length then l else spread ns n l'

/-- The offset that an EDGE result fixes: lo at the low side, hi at the high side. -/
def edgeOffset (l : List (MapNode × Int × Int)) (lo hi : Fin 4) (top : Int) (pick : MapNode × Int × Int → Int) : Option Int :=
  match l.find? (fun e => e.1.rec'.sideCode lo == 2) with
  | some e => some (-(pick e))
  | none => (l.find? (fun e => e.1.rec'.sideCode hi == 2)).map (fun e => top - pick e)

/-- A position in the field, from integers. -/
def fieldPos (c r : Int) : Option (Nat × Nat) := if 0 ≤ c ∧ c < 12 ∧ 0 ≤ r ∧ r < 8 then some (c.toNat, r.toNat) else none

/-- The positions that EDGE results and links fix. -/
def derivedPlaces (ns : List MapNode) : List (MapNode × (Nat × Nat)) :=
  match ns with
  | [] => []
  | n :: _ =>
    let l := spread ns 96 [(n, 0, 0)]
    match edgeOffset l 3 1 11 (fun e => e.2.1), edgeOffset l 2 0 7 (fun e => e.2.2) with
    | some ox, some oy =>
      let ps := l.filterMap (fun e => (fieldPos (e.2.1 + ox) (e.2.2 + oy)).map (fun p => (e.1, p)))
      ps.filter (fun e => ps.all (fun f => f.1.id == e.1.id || f.2 != e.2))
    | _, _ => []

/-- An element put into a list of nodes in decreasing key order. -/
def insertKey (n : MapNode) : List MapNode → List MapNode
  | [] => [n]
  | m :: r => if m.key.toNat < n.key.toNat then n :: m :: r else m :: insertKey n r

/-- The placement of a component: derived positions, then recorded ones that are free and agree with the UP sides, in decreasing key order. -/
def placeAll (ns : List MapNode) (geo : List (BitVec 56 × Nat × Nat)) : List (MapNode × (Nat × Nat)) :=
  let fixed := derivedPlaces ns
  let rest := (ns.filter (fun n => fixed.all (fun e => e.1.id != n.id))).foldr insertKey []
  rest.foldl (fun l n =>
    match geo.find? (fun g => g.1 == (n.key.extractLsb' 0 56 : BitVec 56)) with
    | none => l
    | some (_, c, r) =>
      let free := l.all (fun e => e.2 != (c, r)) && decide (c < 12) && decide (r < 8)
      let agrees := (n.besides ns).all (fun q =>
        match l.find? (fun e => e.1.id == q.2.id) with
        | some e => fieldPos ((c : Int) + (sideStep q.1).1) ((r : Int) + (sideStep q.1).2) == some e.2
        | none => true)
      if free && agrees then l ++ [(n, (c, r))] else l) fixed

/-! ### The route-table base and the clock tree (R458, R459) -/

/-- The removed rows of a placement (R18): a segment with no placed reticle, or with more than one dead tile. -/
def removedRows (ps : List (MapNode × (Nat × Nat))) : BitVec 168 :=
  let gone (y : Nat) : Bool := (List.range 12).any (fun c =>
    match ps.find? (fun e => e.2 == (c, y / 21)) with
    | none => true
    | some e => fieldNat e.1.rec'.deads (2 * (y % 21) + 1) (2 * (y % 21)) == 3)
  BitVec.ofNat 168 ((List.range 168).foldl (fun v y => if gone y then v + 2 ^ y else v) 0)

/-- H: the clear bits of the route-table base. -/
def gridRows (b : BitVec 168) : Nat := ((List.range 168).filter (fun y => !b.toNat.testBit y)).length

/-- The corner of a field position: its bit of the carrier references. -/
def cornerBit (p : Nat × Nat) : Option Nat :=
  if p = (0, 0) then some 0 else if p = (11, 0) then some 1 else if p = (0, 7) then some 2 else if p = (11, 7) then some 3 else none

/-- The root of the clock tree: the corner with a working carrier reference, the highest key of several. -/
def clockRoot (ps : List (MapNode × (Nat × Nat))) (refs : BitVec 4) : Option MapNode :=
  (ps.filter (fun e => (cornerBit e.2).any refs.toNat.testBit)).foldl (fun b e => match b with
    | some n => if n.key.toNat < e.1.key.toNat then some e.1 else b
    | none => some e.1) none

/-- The breadth-first spanning tree over the UP sides: parent side and depth of each node. -/
def clockTree (ns : List MapNode) : Nat → List (MapNode × BitVec 3 × Nat) → List (MapNode × BitVec 3 × Nat)
  | 0, l => l
  | n + 1, l =>
    let new := l.flatMap (fun e => (e.1.besides ns).map (fun q => (q.2, BitVec.ofNat 3 (facing q.1).val, e.2.2 + 1)))
    let l' := new.foldl (fun l e => if l.any (fun x => x.1.id == e.1.id) then l else l ++ [e]) l
    if l'.length = l.length then l else clockTree ns n l'

/-- A MAP payload: target key, field column and row, H, clock parent side in [7:5] and depth in [4:0], route-table base. -/
def mapPayload (key : BitVec 64) (p : Nat × Nat) (h : Nat) (parent : BitVec 3) (depth : Nat) (rows : BitVec 168) : Nat :=
  key.toNat + p.1 * 2 ^ 64 + p.2 * 2 ^ 72 + h % 256 * 2 ^ 80 + (parent.toNat * 32 + depth % 32) * 2 ^ 88 + rows.toNat * 2 ^ 96

/-! ### READY (R17 to R19, R434, R463) -/

/-- The coordinate of no tile: the focus rests there while tiles change their names. -/
def nowhere : TileId := ⟨1000000, 1000000⟩

/-- The name of a tile's record while the map is being made again. -/
def unnamed (px py : Nat) : TileId := ⟨1000 + px, 1000 + py⟩

/-- The columns of local row k that are not dead. -/
def Reticle.aliveCols (x : Reticle) (k : Nat) : List Nat := (List.range 16).filter (fun c => !x.dead.contains (c, k))

/-- The tiles of a placed reticle that hold coordinates (R17, R18). -/
def Reticle.liveTiles (x : Reticle) (p : Nat × Nat) : List (TileId × Nat × Nat) :=
  (List.range 21).flatMap (fun k =>
    let py := 21 * p.2 + k
    let y := ((List.range py).filter (fun q => !x.rowsGone.toNat.testBit q)).length
    if x.rowsGone.toNat.testBit py then []
    else ((x.aliveCols k).take 15).zipIdx.map (fun e => ((⟨15 * p.1 + e.2, y⟩ : TileId), 16 * p.1 + e.1, py)))

/-- The tiles of a placed reticle that are spares (R19). -/
def Reticle.spareTiles (x : Reticle) (p : Nat × Nat) : List (Nat × Nat) :=
  (List.range 21).flatMap (fun k =>
    let py := 21 * p.2 + k
    ((if x.rowsGone.toNat.testBit py then x.aliveCols k else (x.aliveCols k).drop 15)).map (fun c => (16 * p.1 + c, py)))

/-- A spare as the cruise leaves it at a place: it keeps its memories. -/
def State.spareAt (s : State) (q : Nat × Nat) : SpareTile :=
  { px := q.1, py := q.2, mem := ((s.others.find? (fun t => t.at' == unnamed q.1 q.2)).map (·.mem)).getD {},
    sram := { began := s.now }, wst := { began := s.now } }

/-- A tile that enters LIVE from the cruise under its coordinate: its memories stay, its accounts and weights are clear (R299, R514). -/
def Tile.enterLive (t : Tile) (c : TileId) (now : Nat) (cycle : BitVec 64) : Tile :=
  { at' := c, mem := t.mem, dbg := t.dbg, acct := { t0 := cycle },
    life := { t.life with st := .live, sram := { began := now }, wst := { began := now } } }

/-- A placed reticle is READY: its tiles are LIVE, SPARE or RETIRED (Table 19-1), at 625 MHz in reduced service. With the first one the
shared counter is at 0. -/
def State.enterReady (s0 : State) (r : ReticleId) (p : Nat × Nat) : State :=
  let s := s0.focus nowhere
  let x := s.ret r
  let first := (List.finRange 96).all (fun q => (s.ret q).st != .ready)
  let live := x.liveTiles p
  let dead := x.dead.map (fun t => (16 * p.1 + t.1, 21 * p.2 + t.2))
  let s := s.modReticle r (fun x => { x with st := .ready, entered := s.wafer.time,
                                             power := { x.power with calibrated := false, fixed := false, throttle := false, noLeave := false,
                                                                     fifo := [], held := [], over640 := 0 } })
  let s := s.modWafer (fun w => { w with
    cycle := if first then 0 else w.cycle, gridH := gridRows x.rowsGone, map := w.map ++ live, spares := w.spares ++ x.spareTiles p,
    spareMem := w.spareMem ++ (x.spareTiles p).map (fun q => s.spareAt q),
    retired := w.retired ++ dead,
    images := w.images.filter (fun i => decide (i.gridH ≤ gridRows x.rowsGone)) })
  let s := s.modReticle r (fun x => { x with clock := { x.clock with liveAt := s.wafer.cycle, skew := 0, ran := 0, throttled := 0 } })
  let waits := (List.finRange 96).any (fun q => ((s.ret q).st == .clock || (s.ret q).st == .map) && (s.ret q).place.isSome)
  let s := s.modCruise (fun c => { c with reduced := true, busy := waits })
  let mine (t : Tile) : Option TileId := (live.find? (fun e => t.at' == unnamed e.2.1 e.2.2)).map (·.1)
  let kept := s.others.filterMap (fun t => match mine t with
    | some c => some (t.enterLive c s.now s.wafer.cycle)
    | none => if live.any (fun e => e.1 == t.at') || (x.spareTiles p).any (fun q => t.at' == unnamed q.1 q.2) then none else some t)
  { s with others := kept }

/-- A reticle in CLOCK is READY when its PLL has locked and START has arrived (Table 20-1). -/
def State.tryReady (s : State) (r : ReticleId) : State :=
  let x := s.ret r
  match x.place with
  | some p => if x.st = .clock ∧ x.clock.hasPll ∧ x.clock.startAt.isSome then s.enterReady r p else s
  | none => s

/-- A map applied at its reticle, which enters CLOCK; its PLL must lock to its parent within 200 µs, unless it is locked to it already. -/
def State.applyMap (s : State) (r : ReticleId) (p : Nat × Nat) (parent : BitVec 3) (depth : Nat) (rows : BitVec 168) : State :=
  let s := s.modReticle r (fun x =>
    let same := x.clock.hasPll && x.clock.pll == .locked && x.clock.parent == parent
    { x with st := .clock, entered := s.wafer.time, place := some p, rowsGone := rows,
             clock := { x.clock with parent := parent, depth := BitVec.ofNat 8 depth, hasPll := same, pll := if same then .locked else .hold } })
  (s.cruiseTimer (200 * usec) (.pllLockTimeout r)).tryReady r

/-- The primary leader maps its component (R457 to R459, R464): EXCLUDE to the unplaced, MAP to the placed, START, its own map; positions that
no placed reticle holds record 0xB9. -/
def State.mapComponent (s : State) (r : ReticleId) : State :=
  let ns := s.component r
  let ps := placeAll ns (s.wafer.cruise.flash.geometry.getD [])
  let rows := removedRows ps
  let h := gridRows rows
  let unplaced := ns.filter (fun n => ps.all (fun e => e.1.id != n.id))
  let placed : List MapNode := ps.map (·.1)
  let refs := s.wafer.cruise.carrierRef
  let tree : List (MapNode × BitVec 3 × Nat) := match clockRoot ps refs with
    | some n => clockTree placed 96 [(n, 4, 0)]
    | none => clockTree placed 96 ((placed.filter (fun n => n.id == r)).map (fun n => (n, 5, 0)))
  let s := if (clockRoot ps refs).isNone then s.retCause r 0xB7 else s
  let s := s.modCruise (fun c => { c with leader := some r, busy := true })
  let s := (List.range 96).foldl (fun s k =>
    if ps.any (fun e => e.2 == (k % 12, k / 12)) then s else s.retCause (Fin.ofNat 96 k) 0xB9) s
  let s := unplaced.foldl (fun s n => if n.id = r then s else s.sendExclude r n.key 1) s
  let way (n : MapNode) : BitVec 3 × Nat := ((tree.find? (fun e => e.1.id == n.id)).map (·.2)).getD (5, 0)
  let s := ps.foldl (fun s e =>
    if e.1.id = r then s
    else match s.makeMsg r 5 (s.ret r).key (mapPayload e.1.key e.2 h (way e.1).1 (way e.1).2 rows) with
      | (m, s) => s.toward r e.1.key m) s
  match ps.find? (fun e => e.1.id == r) with
  | none => s.exclude r 1
  | some e =>
    let start := s.wafer.time + 300 * usec
    let s := s.applyMap r e.2 (way e.1).1 (way e.1).2 rows
    let s := s.floodNew r 7 (start / 100)
    (s.modReticle r (fun x => { x with clock := { x.clock with startAt := some (start / 100 * 100) } })).tryReady r

/-- CLAIM_WINDOW_END (R456): the primary leader maps its component; another is ISOLATED and excludes its own. -/
def execClaimWindowEnd (r : ReticleId) (s : State) : Result :=
  let x := s.ret r
  if x.st ≠ .leader ∨ s.wafer.time < x.entered + 300 * usec then .next s
  else if (bestClaim s.wafer.cruise.claims).any (fun c => c.key == x.key && c.round == x.round) then .next (s.mapComponent r)
  else .next ((x.reports.foldl (fun s p => s.sendExclude r p.key 0) s).exclude r 0)

/-- MAP_MESSAGE (R458): the map of this reticle is applied, another's passed on; one of another round is ignored. -/
def execMapMessage (r : ReticleId) (side : Fin 4) (msg : BitVec 512) (s : State) : Result :=
  s.msgIn r side msg 5 (fun s =>
    let x := s.ret r
    if msgField msg 16 64 ≠ x.key then s.toward r (msgField msg 16 64) msg
    else if msgRound msg ≠ x.round ∨ (x.st ≠ .follower ∧ x.st ≠ .map ∧ x.st ≠ .clock) then s
    else
      let w := (msgField msg 27 8).toNat
      s.applyMap r ((msgField msg 24 8).toNat, (msgField msg 25 8).toNat) (BitVec.ofNat 3 (w / 32)) (w % 32) (msgField msg 28 168))

/-- EXCLUDE_MESSAGE (R455, R457): the reticle that it names is ISOLATED, if it is a FOLLOWER (Table 20-1, R13); one that a leader maps again, in MAP
or CLOCK, is ISOLATED too when it is left out, since R464 lets no reticle stay there: DEDUCED, unsafe, log 176. -/
def execExcludeMessage (r : ReticleId) (side : Fin 4) (msg : BitVec 512) (s : State) : Result :=
  s.msgIn r side msg 8 (fun s =>
    let x := s.ret r
    let reason := (msgField msg 24 8).toNat
    if msgField msg 16 64 ≠ x.key then s.toward r (msgField msg 16 64) msg
    else if x.st = .follower ∧ reason = 2 then s.exclude r 2
    else if reason < 2 ∧ msgRound msg = x.round ∧ (x.st = .follower ∨ x.st = .map ∨ x.st = .clock) then s.exclude r reason
    else s)

end Sys2Proof.Machine
end

