-- ==== Sys2Proof/Machine/Recruise.lean ====
section
/-! DEFINITION. Re-cruise and full cruise (R465), the clock tree in service and the corrections of CYCLE (R459 to R461), reduced service
(R463). -/

namespace Sys2Proof.Machine

/-! ### The end of every kernel (R465) -/

/-- The record of a tile while the grid is made again: its memories, its worlds and its debug state. -/
def Tile.idled (t : Tile) : Tile :=
  { at' := unnamed t.life.px t.life.py, mem := { t.mem with colours := 0 }, dbg := t.dbg, life := { t.life with st := .retired } }

/-- Every kernel of the wafer has completed ABORTED with FCAUSE 0xBA, every context is gone, nothing is in the network, OPEN queues are
STOPPED; no tile has a coordinate; tiles RETIRED since the last self-test count as dead (R432). -/
def State.endAll (s0 : State) : State :=
  let s := s0.focus nowhere
  let held (t : Tile) : Bool := t.life.st == .live || t.life.st == .quiesced || t.life.st == .migrating || decide (1000 ≤ t.at'.x)
  let keep (t : Tile) : Tile := if 1000 ≤ t.at'.x then { t with kernels := [] } else t.idled
  let spares := s.wafer.spareMem.map (fun e => ({ at' := unnamed e.px e.py, mem := e.mem, life := { px := e.px, py := e.py } } : Tile))
  let s := { s with tile := { at' := nowhere }, others := (s.others.filter (fun t => held t && t.at' != nowhere)).map keep ++ spares }
  let endAt (k : Kernel) : Kernel :=
    if k.st = .complete then k
    else { k with st := .ending, status := 5, endCycle := s.wafer.cycle,
                  first := match k.first with
                    | some (_, c, tag, pc, d) => some (0xBA, c, tag, pc, d)
                    | none => some (0xBA, ⟨0, 0⟩, 0, 0, false) }
  let open' := (s.wafer.kernels.filter (fun k => k.st != .complete)).map (·.seq)
  let gone := s.wafer.retired
  let s := s.modWafer (fun w => { w with
    kernels := w.kernels.map endAt, net := [], walks := [], map := [], spares := [], paths := [], spareMem := [], retired := [],
    migration := none, migWaiting := [],
    gridH := 0, queues := w.queues.map (fun (q : LaunchQueue) => { q with st := if q.st = .opened then .stopped else q.st, cond := none }),
    links := { w.links with stepDone := false, stepWaits := false }, dbg := { w.dbg with beats := [] } })
  let s := s.modCruise (fun c => { c with
    claims := [], switchAt := none, holdUntil := 0, busy := true,
    reticles := c.reticles.map (fun (x : Reticle) => match x.place with
      | some p =>
        let mine := gone.filterMap (fun t => if t.1 / 16 = p.1 ∧ t.2 / 21 = p.2 then some (t.1 % 16, t.2 % 21) else none)
        { x with dead := (x.dead ++ mine).eraseDups, power := { x.power with fifo := [], held := [] } }
      | none => x) })
  open'.foldl (fun s k => match execKernelComplete k s with | .next s => s | _ => s) s

/-- The members of the grid wait for a map (Table 20-1: READY to MAP). -/
def State.toMap (s : State) : State :=
  s.modCruise (fun c => { c with reticles := c.reticles.map (fun x =>
    match x.st with
    | .ready => { x with st := .map, clock := { x.clock with startAt := none } }
    | .clock => { x with st := .map, clock := { x.clock with startAt := none } }
    | _ => x) })

/-- A reticle has died: it is FAILED and its neighbours' sides toward it are DEAD. -/
def State.retDies (s : State) (r : ReticleId) : State :=
  let s := s.modReticle r (fun x => { x with st := .failed, entered := s.wafer.time, clock := { x.clock with startAt := none } })
  (List.finRange 4).foldl (fun s k => match beside r k with
    | some q => s.modReticle q (fun x => x.modSide (facing k) (fun v => if v.res = .up then { v with res := .dead } else v))
    | none => s) s

/-- The leader's reports as its component now stands: a re-cruise runs no self-test, but rows may have lost tiles. -/
def State.refreshReports (s : State) (r : ReticleId) : State :=
  let who (k : BitVec 64) : Option ReticleId := (List.finRange 96).find? (fun q => (s.ret q).key == k && (s.ret q).st.hears && q != r)
  s.modReticle r (fun x => { x with reports := x.reports.map (fun p => match who p.key with
    | some q => (s.ret q).report p.via
    | none => p) })

/-- A re-cruise (R465): kernels end, and the leader, when it lives, maps again; without it every reticle waits for a heartbeat in vain. -/
def State.reCruise (s : State) (died : Option ReticleId) : State :=
  let s := (match died with | some r => s.retDies r | none => s).endAll.toMap
  match s.wafer.cruise.leader with
  | some l => if (s.ret l).st.hears then (s.refreshReports l).mapComponent l else s.modCruise (fun c => { c with leader := none })
  | none => s

/-- Whether the wafer is in service. -/
def State.anyReady (s : State) : Bool := (List.finRange 96).any (fun q => (s.ret q).st == .ready)

/-- RECRUISE (R465): a reticle dies, or a re-cruise is called for. -/
def execRecruise (died : Option ReticleId) (s : State) : Result :=
  if !s.anyReady then .next s else .next (s.reCruise died)

/-- WCMD_RECRUISE (R465). -/
def execWcmdRecruise (s : State) : Result :=
  s.hostWrites 0x938 fun s =>
  if !s.anyReady then .next s else .next (s.reCruise none)

/-- The uncorrectable words of a tile's memories, which no reset clears (R512); what else the memories hold after one the spec does not say: they
are as an unwritten memory: DESIGN CHOICE, unsafe, log 173. -/
def TileMem.errors (m : TileMem) : TileMem :=
  { spad := { bad := m.spad.bad }, acc := { bad := m.acc.bad }, wst := { bad := m.wst.bad }, istoreBad := m.istoreBad, rstoreBad := m.rstoreBad }

/-- The record of an idled tile after the common reset. -/
def Tile.afterReset (t : Tile) : Tile := { at' := t.at', mem := t.mem.errors, life := { px := t.life.px, py := t.life.py } }

/-- WCMD_FULL_CRUISE (R450, R465): kernels end, and every reticle that is not FAILED is in RESET; the common reset's release follows. Queues
are DISABLED, launch semaphores zero and sequence numbers begin at 1 after the cruise (R319, R322, R329). -/
def execWcmdFullCruise (s : State) : Result :=
  s.hostWrites 0x938 fun s =>
  if (List.finRange 96).all (fun q => (s.ret q).st != .ready && (s.ret q).st != .isolated) then .next s
  else
    let s := s.endAll
    let s := { s with others := s.others.map Tile.afterReset }
    let s := s.modWafer (fun w => { w with
      queues := w.queues.map (fun (q : LaunchQueue) => { q with st := .disabled, recs := [] }),
      ls := Vector.replicate 64 0, lsInc := Vector.replicate 64 0, nextSeq := 1, kernels := [] })
    .next (s.modCruise (fun c =>
      { flash := c.flash, newdef := c.newdef, rsel := c.rsel, carrierRef := c.carrierRef, busy := true,
        reticles := c.reticles.map (fun x => if x.st = .failed then x else { entered := s.wafer.time, barred := false }) }))

/-! ### Lost leaders (R455, R465) -/

/-- A reticle that is READY leaves service before it elects. -/
def State.leaveService (s : State) (r : ReticleId) : State :=
  if (s.ret r).st = .ready then ((s.modCruise (fun c => { c with leader := none })).endAll).toMap else s

/-- HEARTBEAT_TIMEOUT (R455): a follower, or a reticle in MAP, CLOCK or READY, has heard no LEADER for 50 µs. -/
def execHeartbeatTimeout (r : ReticleId) (s : State) : Result :=
  let x := s.ret r
  let waits := x.st = .follower ∨ x.st = .map ∨ x.st = .clock ∨ x.st = .ready
  let due := x.heard + 50 * usec
  if !waits ∨ s.leads r then .next s
  else if s.wafer.time ≤ due then .next (s.cruiseTimer (due + 1 - s.wafer.time) (.heartbeatTimeout r))
  else .next ((s.leaveService r).reElect r)

/-- ELECT_MESSAGE (R455): passed on; a higher key of this round is the best key, a higher round is joined, a lower one ignored. -/
def execElectMessage (r : ReticleId) (side : Fin 4) (msg : BitVec 512) (s : State) : Result :=
  s.msgIn r side msg 2 (fun s =>
    match s.passFlood r side msg with
    | (false, s) => s
    | (true, s) =>
      let x := s.ret r
      let n := msgRound msg
      let key := msgField msg 16 64
      if !x.elects ∨ n.toNat < x.round.toNat then s
      else if x.round.toNat < n.toNat then (s.leaveService r).joinRound r n key side
      else if x.st = .elect ∧ x.best.toNat < key.toNat then s.modReticle r (fun x => { x with best := key, up := some side })
      else s)

/-! ### PLLs (R450, R459, R460) -/

/-- A CLOCK message on every UP side: condition, depth, and whether the receiver is the parent. -/
def State.announce (s : State) (r : ReticleId) : State :=
  let x := s.ret r
  let cond : Nat := match x.clock.pll with | .locked => 0 | .hold => 1 | .slew => 2
  x.upSides.foldl (fun s k =>
    match s.makeMsg r 6 x.key (cond + x.clock.depth.toNat * 2 ^ 8 + bnat (x.clock.parent.toNat == k.val) * 2 ^ 16) with
    | (m, s) => s.sendMsg r k m) s

/-- START_MESSAGE (R461): START names the boot time of CYCLE 0. -/
def execStartMessage (r : ReticleId) (side : Fin 4) (msg : BitVec 512) (s : State) : Result :=
  s.msgIn r side msg 7 (fun s =>
    match s.passFlood r side msg with
    | (false, s) => s
    | (true, s) =>
      let x := s.ret r
      if msgRound msg ≠ x.round ∨ (x.st ≠ .follower ∧ x.st ≠ .map ∧ x.st ≠ .clock) then s
      else
        let t := (msgField msg 16 64).toNat * 100
        (s.modReticle r (fun x => { x with clock := { x.clock with startAt := some t } })).tryReady r)

/-- PLL_LOCK (R450, R460): the PLL of a reticle in CLOCK locks, which it announces; with START the reticle is READY. -/
def execPllLock (r : ReticleId) (s : State) : Result :=
  let x := s.ret r
  if x.st ≠ .clock ∨ x.clock.hasPll then .next s
  else
    let s := s.modReticle r (fun x => { x with clock := { x.clock with hasPll := true, pll := .locked, since := s.wafer.time } })
    .next ((s.announce r).tryReady r)

/-- PLL_LOCK_TIMEOUT (R450): 200 µs after MAP a PLL that has not locked makes its reticle FAILED, 0xB9, and the leader maps again. -/
def execPllLockTimeout (r : ReticleId) (s : State) : Result :=
  let x := s.ret r
  if x.st ≠ .clock ∨ x.clock.hasPll ∨ s.wafer.time < x.entered + 200 * usec then .next s
  else .next ((s.retCause r 0xB9).reCruise (some r))

/-- A PLL enters HOLD (R460): 0xB6, announced; it selects a parent within 40 µs, and fails its reticle after 5 ms. -/
def State.enterHold (s : State) (r : ReticleId) : State :=
  let s := s.modReticle r (fun x => { x with clock :=
    { x.clock with pll := .hold, since := s.wafer.time, holds := BitVec.ofNat 16 (min (x.clock.holds.toNat + 1) 0xFFFF) } })
  let s := ((s.retCause r 0xB6).announce r)
  match s.freeVal 32 with
  | (d, s) =>
    let wait := if 4 ≤ (s.ret r).clock.parent.toNat then 40 * usec else 1 + d.toNat % (40 * usec)
    (s.cruiseTimer wait (.parentSelection r)).cruiseTimer (5000 * usec + 1) (.holdLimit r)

/-- REFERENCE_FAILURE (R460): the reference of a PLL fails; at the root it is the carrier's. -/
def execReferenceFailure (r : ReticleId) (s : State) : Result :=
  let x := s.ret r
  let s := if x.clock.parent = 4 then s.modCruise (fun c => { c with carrierRef := match x.place.bind cornerBit with
      | some b => c.carrierRef &&& ~~~(BitVec.ofNat 4 (2 ^ b))
      | none => c.carrierRef }) else s
  if x.st ≠ .ready ∨ x.clock.pll = .hold then .next s else .next (s.enterHold r)

/-- The sides whose neighbours are candidates: live, LOCKED, and not its own children (R460). -/
def State.candidates (s : State) (r : ReticleId) : List (Fin 4) :=
  (s.ret r).upSides.filter (fun k => s.alive r k && ((s.ret r).side[k]).nbPll == .locked && !((s.ret r).side[k]).nbChild)

/-- The candidate of least depth, then of highest key. -/
def State.bestCandidate (s : State) (r : ReticleId) : Option (Fin 4) :=
  let v (k : Fin 4) : SideState := (s.ret r).side[k]
  (s.candidates r).foldl (fun b k => match b with
    | some j => if (v k).nbDepth.toNat < (v j).nbDepth.toNat ∨ ((v k).nbDepth = (v j).nbDepth ∧ (v j).nbKey.toNat < (v k).nbKey.toNat)
        then some k else b
    | none => some k) none

/-- The next root: the corner in service whose carrier reference works, the highest key of several. -/
def State.nextRoot (s : State) : Option ReticleId :=
  ((List.finRange 96).filter (fun q => (s.ret q).st == .ready && ((s.ret q).place.bind cornerBit).any s.wafer.cruise.carrierRef.toNat.testBit)).foldl
    (fun b q => match b with
      | some p => if (s.ret p).key.toNat < (s.ret q).key.toNat then some q else b
      | none => some q) none

/-- A PLL slews to a new reference. -/
def State.slewTo (s : State) (r : ReticleId) (parent : BitVec 3) (depth : BitVec 8) : State :=
  (s.modReticle r (fun x => { x with clock := { x.clock with pll := .slew, parent := parent, depth := depth } })).announce r

/-- PARENT_SELECTION (R460): a PLL in HOLD takes the best candidate; for a root without one the leader names the next root, itself on its boot
oscillator where no carrier reference works (0xB7). -/
def execParentSelection (r : ReticleId) (s : State) : Result :=
  let x := s.ret r
  if x.st ≠ .ready ∨ x.clock.pll ≠ .hold then .next s
  else
    match s.bestCandidate r with
    | some k => .next (s.slewTo r (BitVec.ofNat 3 k.val) ((x.side[k]).nbDepth + 1))
    | none =>
      if x.clock.parent.toNat < 4 then .next s
      else match s.nextRoot with
        | some q => .next (s.slewTo q 4 0)
        | none => match s.wafer.cruise.leader with
          | some l => .next ((s.retCause l 0xB7).slewTo l 5 0)
          | none => .next s

/-- SLEW_LOCKED (R460): the frequency matches; the PLL is LOCKED, which it announces. -/
def execSlewLocked (r : ReticleId) (s : State) : Result :=
  if (s.ret r).clock.pll ≠ .slew then .next s
  else .next ((s.modReticle r (fun x => { x with clock := { x.clock with pll := .locked, since := s.wafer.time } })).announce r)

/-- HOLD_LIMIT (R460): more than 5 ms in HOLD: 0xB7, the tiles stop, the reticle is FAILED and a re-cruise starts. -/
def execHoldLimit (r : ReticleId) (s : State) : Result :=
  let x := s.ret r
  if x.st ≠ .ready ∨ x.clock.pll ≠ .hold ∨ s.wafer.time ≤ x.clock.since + 5000 * usec then .next s
  else .next ((s.retCause r 0xB7).reCruise (some r))

/-- CLOCK_MESSAGE (R460): what a neighbour announces. A HOLD of the parent is taken over; a neighbour that is LOCKED while this PLL holds is
a candidate, selected within 40 µs. -/
def execClockMessage (r : ReticleId) (side : Fin 4) (msg : BitVec 512) (s : State) : Result :=
  s.msgIn r side msg 6 (fun s =>
    let cond := (msgField msg 16 8).toNat
    if 3 ≤ cond then s
    else
      let pll : PllSt := if cond = 0 then .locked else if cond = 1 then .hold else .slew
      let s := s.modReticle r (fun x => x.modSide side (fun k =>
        { k with nbPll := pll, nbDepth := msgField msg 17 8, nbKey := msgKey msg, nbChild := msgField msg 18 8 == 1 }))
      let x := s.ret r
      if x.st ≠ .ready then s
      else if pll = .hold ∧ x.clock.parent.toNat = side.val ∧ x.clock.pll ≠ .hold then s.enterHold r
      else if x.clock.pll = .hold ∧ (s.candidates r).contains side then
        match s.freeVal 32 with | (d, s) => s.cruiseTimer (1 + d.toNat % (40 * usec)) (.parentSelection r)
      else s)

/-! ### Corrections (R34, R461) -/

/-- The departure of a reticle's parent. -/
def State.parentSkew (s : State) (r : ReticleId) : Int :=
  let p := (s.ret r).clock.parent.toNat
  if p < 4 then ((beside r (Fin.ofNat 4 p)).map (fun q => (s.ret q).clock.skew)).getD 0 else 0

/-- CYCLE_CORRECTION (R461): a LOCKED reticle whose CYCLE differs from its parent's withholds or adds one increment, at most once in every
1,024 cycles, those of R490 among them (R34). -/
def execCycleCorrection (r : ReticleId) (s : State) : Result :=
  let x := s.ret r
  let d := s.parentSkew r - x.clock.skew
  if x.st ≠ .ready ∨ x.clock.pll ≠ .locked ∨ d = 0 ∨ s.now < x.clock.lastCorr + 1024
      ∨ s.now < s.wafer.links.lastCorr + 1024 then .next s
  else .next ((s.modReticle r (fun x => { x with clock := { x.clock with skew := x.clock.skew + d.sign, lastCorr := s.now } })).moveEpochs
    (· == r) d.sign)

/-- The drift of a reticle whose PLL holds or slews (R461): its CYCLE departs by at most one cycle, and one more in every 50,000. -/
def State.drift (s : State) (r : ReticleId) : State :=
  let x := s.ret r
  if x.st ≠ .ready ∨ x.clock.pll = .locked ∨ s.now < x.clock.lastCorr + 50000 ∨ s.now < s.wafer.links.lastCorr + 1024 then s
  else match s.freeVal 2 with
    | (v, s) =>
      let d : Int := if v = 1 then 1 else if v = 2 then -1 else 0
      (s.modReticle r (fun x => { x with clock := { x.clock with skew := x.clock.skew + d, lastCorr := s.now } })).moveEpochs (· == r) d

/-! ### Reduced service (R463) -/

/-- AVS_CALIBRATION_DONE (R463): a domain has found its voltage, or runs at 0.80 V fixed with 0xB5; when every domain has finished, the leader
names the switch value, 1,024 cycles ahead. -/
def execAvsCalibrationDone (r : ReticleId) (ok : Bool) (s : State) : Result :=
  let x := s.ret r
  if x.st ≠ .ready ∨ !s.wafer.cruise.reduced ∨ x.power.calibrated then .next s
  else
    let s := s.modPower r (fun p => { p with calibrated := true, fixed := !ok, mv := if ok then p.mv else 800 })
    let s := if ok then s else s.retCause r 0xB5
    let done := (List.finRange 96).all (fun q => match (s.ret q).st with
      | .ready => (s.ret q).power.calibrated
      | .map => false | .clock => false | .elect => false | .leader => false
      | _ => true)
    .next (if done then s.modCruise (fun c => { c with switchAt := some (s.wafer.cycle + 1024) }) else s)

/-- FREQUENCY_SWITCH (R463): from the switch value every tile withholds issue for 2,048 cycles while the PLLs double their output. -/
def execFrequencySwitch (s : State) : Result :=
  match s.wafer.cruise.switchAt with
  | none => .next s
  | some v =>
    if s.wafer.cycle.toNat < v.toNat then .next s
    else .next ((s.modCruise (fun c => { c with switchAt := none, holdUntil := s.now + 2048 })).timer (s.now + 2048) .reducedServiceEnd)

/-- REDUCED_SERVICE_END (R463): 2,048 cycles after the switch value the tiles issue again, at 1.25 GHz, and WSTAT.REDUCED falls. -/
def execReducedServiceEnd (s : State) : Result :=
  let c := s.wafer.cruise
  if c.holdUntil = 0 ∨ s.now < c.holdUntil then .next s
  else .next (s.modCruise (fun c => { c with reduced := false, holdUntil := 0 }))

end Sys2Proof.Machine
end

