-- ==== Sys2Proof/Machine/Power.lean ====
section
/-! DEFINITION. The power controller of a reticle (R466, R467, R469) and the registers of Table 20-9 (R470). -/

namespace Sys2Proof.Machine

/-- The tiles of a reticle that anything has touched changed by f. -/
def State.modDomain (s : State) (r : ReticleId) (f : Tile → Tile) : State :=
  s.mapTiles (fun t => if t.life.st ≠ .retired ∧ reticleOf t.life.px t.life.py = r then f t else t)

/-- The commands that run on a tile end as faults (R466). -/
def Tile.powerStop (t : Tile) (now : Nat) : Tile :=
  let stop (e : BlockEngine) (code : BitVec 8) : BlockEngine :=
    { e with run := e.run.map (fun r => { r with fault := some (code, r.reached now) }) }
  { t with mx := { t.mx with run := t.mx.run.map (fun m => { m with leave := .none, fault := some (0x5D, m.rt.idx, 0) }) },
           row := stop t.row 0x5E, cpy := stop t.cpy 0x5F }

/-- Every leave of a domain is revoked and its running commands end as faults (R466): cause, and 0xB3 once. -/
def State.revoke (s : State) (r : ReticleId) (code : BitVec 8) : State :=
  let s := s.modPower r (fun p => { p with held := [], noLeave := true })
  (((s.modDomain r (fun t => t.powerStop s.now)).retCause r code).retCause r 0xB3)

/-- The sense groups beside a group, in a field of 4 by 4. -/
def groupsBeside (g : Nat) : List Nat :=
  (if g % 4 = 0 then [] else [g - 1]) ++ (if g % 4 = 3 then [] else [g + 1]) ++ (if g < 4 then [] else [g - 4]) ++ (if 12 ≤ g then [] else [g + 4])

/-- Whether a group's share departs from the mean share of its adjacent groups by more than CRKTH / 1,024 (R467). -/
def departs (groups : List Nat) (th g : Nat) : Bool :=
  let all := groups.foldl (· + ·) 0
  let near := groupsBeside g
  let sum := near.foldl (fun n k => n + groups.getD k 0) 0
  decide (th * near.length * all < gap (near.length * groups.getD g 0) sum * 1024)

/-- The crack watch of a grain (R467): five grains in a row set the group's bit; 0xB0 is recorded once per group. -/
def State.crackGrain (s : State) (r : ReticleId) (groups : List Nat) : State :=
  (List.finRange 16).foldl (fun s (g : Fin 16) =>
    let p := (s.ret r).power
    let n := if departs groups p.crkth.toNat g.val then (p.crackRuns[g]) + 1 else 0
    let s := s.modPower r (fun p => { p with crackRuns := p.crackRuns.set g.val n g.isLt })
    if n < 5 then s
    else
      let bit := BitVec.ofNat 16 (2 ^ g.val)
      let s := if p.cracked &&& bit = 0 then s.retCause r 0xB0 else s
      s.modPower r (fun p => { p with crack := p.crack ||| bit, cracked := p.cracked ||| bit })) s

/-- POWER_GRAIN (R466, R467, R469): the end of a 1 ms grain. mean is its mean current, groups those of the sense groups, monitorsPass what
the path monitors show, tempOver whether a carrier temperature sensor is above its limit. Corrected errors are counted anew. -/
def execPowerGrain (r : ReticleId) (mean : BitVec 16) (groups : List Nat) (monitorsPass tempOver : Bool) (s : State) : Result :=
  let x := s.ret r
  if x.st ≠ .ready then .next s
  else
    let m := mean.toNat
    let above := decide (x.power.ithrot.toNat < m) || tempOver
    let run := if 6400 < m then x.power.over640 + 1 else 0
    let s := s.modPower r (fun p =>
      { p with mean := mean, peak := if p.peak.toNat < m then mean else p.peak, over640 := run, throttle := above, noLeave := above,
               budget := p.leavebud.toNat - (m - p.ithrot.toNat),
               mv := if p.fixed then p.mv else if monitorsPass then BitVec.ofNat 16 (max 700 (p.mv.toNat - 5))
                     else BitVec.ofNat 16 (min 800 (p.mv.toNat + 5)) })
    let s := if tempOver then s.retCause r 0xB4 else s
    let s := if 10 ≤ run ∨ 10000 < m then s.revoke r 0xB1 else s
    let s := s.crackGrain r groups
    .next (s.modDomain r (fun t => { t with life := { t.life with ceLast := t.life.ceGrain, ceGrain := 0, ceTold := false } }))

/-- PWR_DROOP (R466): the domain's voltage has been below 0.68 V for more than 1 µs. -/
def execPwrDroop (r : ReticleId) (mv : BitVec 16) (s : State) : Result :=
  if (s.ret r).st ≠ .ready ∨ 680 ≤ mv.toNat then .next s else .next (s.revoke r 0xB2)

/-! ### Registers (R470, Table 20-9) -/

/-- RCRACK_WRITE: a write of 1 clears the bit of a group. -/
def execRcrackWrite (value : BitVec 32) (s : State) : Result :=
  s.hostWrites 0x91C fun s =>
  .next (s.modPower s.wafer.selReticle (fun p => { p with crack := p.crack &&& ~~~(value.setWidth 16) }))

/-- RPEAK_READ: the read returns the highest grain mean and clears it. -/
def execRpeakRead (s : State) : Result :=
  let v : BitVec 64 := (s.ret s.wafer.selReticle).power.peak.setWidth 64
  .next ((s.modPower s.wafer.selReticle (fun p => { p with peak := 0 })).hostRead v)

/-- RCAUSE_READ: the read returns the last cause and the count, and clears them. -/
def execRcauseRead (s : State) : Result :=
  let x := s.ret s.wafer.selReticle
  let v : BitVec 64 := BitVec.ofNat 64 (x.causes.toNat * 2 ^ 16 + x.cause.toNat)
  .next ((s.modReticle s.wafer.selReticle (fun x => { x with cause := 0, causes := 0 })).hostRead v)

/-- Codes of Table 20-2. -/
def RetSt.code : RetSt → Nat
  | .reset => 0 | .selfTest => 1 | .probe => 2 | .elect => 3 | .follower => 4 | .leader => 5 | .map => 6 | .clock => 7 | .ready => 8
  | .isolated => 9 | .failed => 10

/-- RSTATE of the position of RSEL; one that no placed reticle holds reads FAILED with health score 0 (R464). -/
def State.rstate (s : State) : BitVec 32 :=
  let x := s.ret s.wafer.selReticle
  let sides := (List.finRange 4).foldl (fun v k => v + (x.side[k]).res.code * 4 ^ k.val) 0
  if s.wafer.cruise.leader.isSome ∧ x.place.isNone then BitVec.ofNat 32 (10 * 2 ^ 28)
  else BitVec.ofNat 32 (x.st.code * 2 ^ 28 + x.health.toNat * 2 ^ 20 + sides * 2 ^ 12 + (336 - x.dead.length))

/-- RCLK of the position of RSEL. -/
def State.rclk (s : State) : BitVec 32 :=
  let c := (s.ret s.wafer.selReticle).clock
  let pll : Nat := match c.pll with | .locked => 0 | .hold => 1 | .slew => 2
  BitVec.ofNat 32 (pll * 2 ^ 30 + c.parent.toNat * 2 ^ 27 + c.depth.toNat * 2 ^ 16 + c.holds.toNat)

/-- WSTAT. -/
def State.wstat (s : State) : BitVec 32 :=
  let c := s.wafer.cruise
  let l := match c.leader with | some r => (r.val % 12, r.val / 12) | none => (0, 0)
  BitVec.ofNat 32 (l.1 * 2 ^ 28 + l.2 * 2 ^ 25 + s.wafer.gridH * 2 ^ 16 + c.round.toNat % 256 * 2 ^ 8 + bnat c.keyBad * 128 + bnat c.defBad * 64
    + bnat c.geoBad * 32 + bnat c.reduced * 16 + bnat c.busy * 8)

end Sys2Proof.Machine
end

