-- ==== Sys2Proof/Machine/Cycle.lean ====
section
/-! DEFINITION. The end of a tile clock cycle (TILE_CLOCK_CYCLE, R34): the charges of R301 to R306, the semaphores that the cycle changed
(R111), what instructions leave to its end, and the shared counter. -/

namespace Sys2Proof.Machine

/-! ### The charged account (R303) -/

/-- Whether the power controller, or the switch to full clock, withholds issue from the tiles of a reticle in this cycle (R463, R466): one
cycle in four, or every cycle of the switch. -/
def State.withheldAt (s : State) (r : ReticleId) : Bool :=
  ((s.ret r).power.throttle && s.now % 4 == 0) || decide (s.now < s.wafer.cruise.holdUntil)

/-- Whether issue is withheld from a tile in this cycle. -/
def State.withheld (s : State) (t : Tile) : Bool := s.withheldAt (reticleOf t.life.px t.life.py)

/-- A context in the cycles of a swap (R262). -/
def Core.swapping (c : Core) : Option Tag :=
  match c.swap with
  | some w => if w.decided.isSome then w.outTag else none
  | none => none

/-- Whether a blocked context is never charged: its block is a YIELD (R271) or a GSLICE.wait (R384). -/
def Life.uncharged (l : Life) : Bool := l.yieldUntil.isSome || l.waits.any (fun w => match w with | .gang _ => true | _ => false)

/-- The tags of a tile whose context p selects. -/
def Tile.tagsWhere (t : Tile) (p : Context → Bool) : List Tag := (List.finRange 8).filter (fun k => p (t.ctx k))

/-- The tag account that R303 names for a cycle with no issue; none is the tile account. -/
def Tile.chargedTag (t : Tile) : Option Tag :=
  match t.core.log.seatZero with
  | some k => some k
  | none =>
    match t.core.swapping.filter (fun k => (t.core.seatOf k).isNone) with
    | some k => some k
    | none =>
      match (List.finRange 8).find? (fun k => (t.ctx k).life.st == .killing || t.core.log.killed.any (·.1 == k)) with
      | some k => some k
      | none =>
        match t.bestOf (t.tagsWhere (fun c => c.life.st == .blocked && !c.life.uncharged)) with
        | some k => some k
        | none => t.bestOf (t.tagsWhere (fun c => c.life.st == .faulted))

/-! ### Its cause and PC (R304, R305) -/

/-- The cause of a failed attempt in this cycle, or the one recorded when the block of a context began (R304). -/
def Tile.attemptCause (t : Tile) (k : Tag) : Option Nat :=
  let c := t.ctx k
  match t.core.log.failed.find? (fun f => f.1 == k) with
  | some f => some f.2
  | none => if c.life.st = .blocked then some c.life.blockCause else none

/-- Whether a context is in trap entry or in recovery (R278, R290). -/
def Tile.inEntry (t : Tile) (now : Nat) (k : Tag) : Bool :=
  let c := t.ctx k
  c.life.st != .faulted && (c.life.entering || decide (now < c.life.resumeAt) || t.core.log.trapped.contains k)

/-- The cause of a cycle with no issue (Table 12-3). -/
def State.idleCause (s : State) (t : Tile) : Option Tag → Nat
  | none =>
    if t.life.st = .quiesced ∨ t.life.st = .migrating then 19 else if s.withheld t then 21 else if t.core.log.scrub then 20 else 23
  | some k =>
    let c := t.ctx k
    if t.life.st = .quiesced ∨ t.life.st = .migrating then 19
    else if c.dbg.held ∨ c.dbg.step.isSome ∨ c.life.partLanded then 22
    else if c.life.st = .killing ∨ t.core.log.killed.any (·.1 == k) then 25
    else if t.core.swapping = some k then 17
    else if t.inEntry s.now k ∨ c.life.st = .faulted then 18
    else if t.core.log.bubbleZero ∧ t.core.log.seatZero = some k then 5
    else if s.withheld t then 21
    else if t.core.log.scrub then 20
    else (t.attemptCause k).getD 14

/-- The charged PC of a cycle with no issue. -/
def Tile.idlePc (t : Tile) (now : Nat) (k : Tag) : BitVec 14 :=
  match t.core.log.killed.find? (fun e => e.1 == k) with
  | some e => e.2
  | none => if (t.ctx k).life.st != .killing && t.inEntry now k then (t.ctx k).sys.epc.extractLsb' 4 14 else pcIndex (t.ctx k).flow.pc

/-! ### The charges of a cycle (R301, R302) -/

/-- n charges of a cause to the account of a tag, under the range of a bundle. -/
def Tile.chargeTag (t : Tile) (k : Tag) (pc : BitVec 14) (cause n : Nat) : Tile :=
  { t with acct := t.acct.charge k.val (rangeOf t.acct.ranges[k] pc.toNat) cause n }

/-- The cause of a slot position in use (Table 12-2). -/
def SlotUse.cause : SlotUse → Nat
  | .header => 3 | .off => 1 | .empty => 2 | _ => 0

/-- The charge of slot position p in a cycle with issue. -/
def Tile.chargeSlot (t : Tile) (log : CycleLog) (p : Fin 4) : Tile :=
  match log.issued.find? (fun b => b.uses[p] != .empty) with
  | some b => t.chargeTag b.tag b.pc (b.uses[p]).cause 1
  | none =>
    match log.issued.find? (·.seat == 0), log.issued, log.readyLost with
    | some _, [_], some l => t.chargeTag l.1 l.2 4 1
    | some a, _, _ => t.chargeTag a.tag a.pc 2 1
    | none, b :: _, _ => t.chargeTag b.tag b.pc 2 1
    | none, [], _ => t

/-- The four charges of a tile's cycle. -/
def State.chargeCycle (s : State) (t : Tile) : Tile :=
  let log := t.core.log
  match log.stepped, log.issued with
  | some (k, _, on, pc), _ => (t.chargeTag k pc (if on then 0 else 1) 1).chargeTag k pc 22 3
  | none, _ :: _ => (List.finRange 4).foldl (fun t p => t.chargeSlot log p) t
  | none, [] =>
    match t.chargedTag with
    | some k => t.chargeTag k (t.idlePc s.now k) (s.idleCause t (some k)) 4
    | none => { t with acct := t.acct.charge 8 63 (s.idleCause t none) 4 }

/-- The states of a tile that runs cycles. -/
def TileSt.runs : TileSt → Bool
  | .live => true | .quiesced => true | .migrating => true | _ => false

/-- The account store read with the last flit of a copy, before this cycle's charges, with the account that R303 names and the range of its
charged PC (R305, R439, R441). -/
def State.readAccounts (s : State) : State :=
  let t := s.tile
  s.modMove (fun g =>
    if g.c = t.at' ∧ g.phase = .copy ∧ g.acctAt = s.now then
      { g with acct := some (t.acct, match t.chargedTag with
        | some k => (k.val, rangeOf t.acct.ranges[k] (t.idlePc s.now k).toNat)
        | none => (8, 63)) } else g)

/-- The tile in focus charged for the cycle. -/
def State.charge (s : State) : State :=
  if s.tile.life.st.runs then let s := s.readAccounts; s.modTile (fun t => s.chargeCycle t) else s

/-! ### Semaphores at the end of a cycle (R111) -/

/-- The value that semaphore k has from the next cycle on: a value put, then the increments. -/
def Sems.next (q : Sems) (k : Fin 32) : Nat :=
  (match q.put.reverse.find? (fun e => e.1.toNat == k.val) with | some e => e.2.toNat | none => (q.s[k]).toNat) + q.inc[k]

/-- The semaphores as the next cycle sees them; true when one has passed 65,535. -/
def Sems.folded (q : Sems) : Sems × Bool :=
  ({ q with s := Vector.ofFn (fun k => BitVec.ofNat 16 (min (q.next k) 65535)), inc := Vector.replicate 32 0, put := [] },
   (List.finRange 32).any (fun k => decide (65535 < q.next k)))

/-- Whether a cycle has changed semaphores. -/
def Sems.touched (q : Sems) : Bool := !q.put.isEmpty || q.inc.toList.any (fun n => n != 0)

/-- The semaphores of a tag; one that overflows defers 0x60. -/
def State.foldSems (s : State) (k : Tag) : State :=
  let q := (s.tile.ctx k).sems
  if !q.touched then s
  else
    let s := s.modTile (fun t => t.modCtx k (fun c => { c with sems := q.folded.1 }))
    if q.folded.2 then s.defer k 0x60 else s

/-! ### What instructions leave to the end of their cycle -/

/-- A context halted by CSTOP (R274). -/
def Tile.haltTag (t : Tile) (k : Tag) : Tile :=
  let st := (t.ctx k).life.st
  if st = .ready ∨ st = .issuing ∨ st = .blocked then
    { (t.modCtx k (fun c => { c with life := { c.life with st := .halted } })) with core := t.core.leave k }
  else t

/-- The handler start that a killed context took in the cycle goes to another or waits (R254, Table 10-8). -/
def Tile.giveBack (t : Tile) (k : Tag) : Tile :=
  { t with stores := { t.stores with
      handlers := (t.core.log.begun.filter (fun e => e.1 == k)).map Prod.snd ++ t.stores.handlers } }

/-- count colours from first on set to a value (R148). -/
def setColours (old : BitVec 64) (first count : Nat) (val : Bool) : BitVec 64 :=
  let m : BitVec 64 := BitVec.ofNat 64 ((2 ^ count - 1) * 2 ^ first)
  if val then old ||| m else old &&& ~~~m

/-- A range table with entry n set (R312). -/
def setRange (l : List (Nat × Nat × Nat)) (n start stop : Nat) : List (Nat × Nat × Nat) := l.filter (fun r => r.1 ≠ n) ++ [(n, start, stop)]

/-- The end of a QPRIO: the number of changed entries lands in gd at the context's next bundle (R341). -/
def State.endReprio (s : State) (k : Tag) (e n : BitVec 2) (d : BitVec 5) (serial : Nat) : State :=
  let r := s.tile.reprio k e n
  let p : Pending := { write := .g d (BitVec.ofNat 32 r.1), remain := 1, arrive := s.now + 1, serial := serial, slot := 0 }
  s.modTile (fun _ => r.2.modCtx k (fun c => { c with pending := insertPending p c.pending }))

/-- One effect that an instruction has left to the end of its cycle; snapshots come last. -/
def State.endAct (s : State) : EndAct → State
  | .halt k => s.modTile (fun t => t.haltTag k)
  | .killBegin k byTag byHost => s.modTile (fun t => (t.beginKill k byTag byHost (s.now + 1)).giveBack k)
  | .colours first count val => s.modTile (fun t => { t with mem := { t.mem with colours := setColours t.mem.colours first count val } })
  | .arm k val => s.modTile (fun t => t.modCtx k (fun c => { c with sys := { c.sys with armed := val } }))
  | .prio k val => s.modTile (fun t => t.modCtx k (fun c => { c with sys := { c.sys with prio := val } }))
  | .range k n start stop => s.modTile (fun t =>
      { t with acct := { t.acct with ranges := t.acct.ranges.set k.val (setRange t.acct.ranges[k] n start stop) k.isLt } })
  | .snapshot => s
  | .fold k => s.modTile (fun t => { t with acct := t.acct.fold k })
  | .stop e k regionOnly => s.stopEngine e (fun g r => g == k && (!regionOnly || r))
  | .release kernel units => s.releaseUnits s.tile.at' kernel units
  | .discard k => s.modTile (fun t => t.modCtx k Context.discardFeeds)
  | .reprio k e n d serial => s.endReprio k e n d serial

/-- Whether a program's snapshot is asked for. -/
def Core.snaps (c : Core) : Bool := c.atEnd.any (fun a => match a with | .snapshot => true | _ => false)

/-- The PRIO 0 seat-0 cycles counted while a pass is late (R444). -/
def Tile.countScrub (t : Tile) : Tile :=
  let mine := match t.core.log.seatZero with | some k => (t.ctx k).sys.prio == 0 | none => false
  let late := t.life.sram.late || t.life.wst.late
  { t with life := { t.life with scrubTurn := if !late then 0 else if mine then (t.life.scrubTurn + 1) % 64 else t.life.scrubTurn } }

/-- The core with the cycle's scratch cleared. -/
def Core.cleared (c : Core) (now : Nat) : Core :=
  { c with banks := c.banks.filter (fun b => decide (now + 1 < b.free)), log := {}, atEnd := [] }

/-- The end of the cycle on the tile in focus. -/
def State.endTile (s0 : State) : State :=
  let s := s0.charge
  let s := (List.finRange 8).foldl State.foldSems s
  let s := s.tile.core.atEnd.foldl State.endAct s
  let s := if s.tile.core.snaps then s.modTile (fun t => { t with acct := t.acct.takeSnap s.cycle }) else s
  s.modTile (fun t => let t := t.countScrub; { t with core := t.core.cleared s.now })

/-! ### The wafer's clock (R34, R461, R490) -/

/-- A cycle of a READY reticle counted. -/
def State.countCycle (s : State) (r : ReticleId) : State :=
  if (s.ret r).st ≠ .ready then s
  else
    let held := s.withheldAt r
    s.modReticle r (fun x => { x with clock := { x.clock with ran := x.clock.ran + 1, throttled := x.clock.throttled + bnat held } })

/-- The region of a rewrite that is drained may inject again from the next cycle on (R437). -/
def State.rewriteEnds (s : State) : State :=
  match s.wafer.migration with
  | some g => if g.phase = .resume ∧ g.due = s.now + 1 then s.unquiesce g.region else s
  | none => s

/-- A load that has ended is BUSY no longer (R346). -/
def State.loadEnds (s : State) : State :=
  match s.wafer.host.loadUntil with
  | some d =>
    if d ≤ s.now + 1 then
      s.modWafer (fun w => { w with host := { w.host with loadUntil := none, ldstat := w.host.ldstat &&& 0x7FFFFFFF } })
    else s
  | none => s

/-- TILE_CLOCK_CYCLE (R34): a tile clock cycle ends. Every tile's slots are charged, its semaphores and what instructions left to the end take
effect, launch semaphores count, kernels leave tiles, kills begin, spares are scrubbed; then CYCLE counts, with its correction if one is due. -/
def execTileClockCycle (s0 : State) : Result :=
  let s := ((s0.tiles.map (·.at')).eraseDups).foldl (fun s c => (s.focus c).endTile) s0
  let s := s.modWafer Wafer.lsFold
  let s := ((((s.leaveAll).dueKills).rewriteEnds).loadEnds).scrubSpares
  let s := (List.finRange 96).foldl (fun s r => (s.drift r).countCycle r) s
  match s.slewCycle with
  | (d, s) =>
    .next (((s.modWafer (fun w =>
      { w with cycle := w.cycle + 1 + BitVec.ofInt 64 d, time := w.time + (if w.cruise.reduced then 16 else 8) })).focus s0.tile.at').focusTag s0.tag
      |> (fun s => { s with now := s.now + 1 }))

end Sys2Proof.Machine
end

