-- ==== Sys2Proof/Machine/Control.lean ====
section
/-! DEFINITION. NOP, headers, reserved encodings, control transfers, hardware loops, WAIT and SIG, MOVS and SMOV (R63 to R66,
R78, R102 to R116). -/

namespace Sys2Proof.Machine

/-- A NOP bundle issues with no effect (R63). Beside other slots a NOP takes no part. -/
def execNop (s : State) : Result :=
  match s.issue.phase with
  | .single => .next (s.attempt { gather := id, commit := id, late := id })
  | _ => .next s

/-! ### Headers (R65, R66) -/

/-- The waits of a header: each active wait needs as many as there are active waits on its semaphore (R66). -/
def headerWaits (w : BitVec 1) (a : BitVec 5) (x : BitVec 1) (b : BitVec 5) : List WaitCond :=
  let both : Nat := if w = 1 ∧ x = 1 ∧ a = b then 2 else 1
  (if w = 1 then [.sem a both] else []) ++ (if x = 1 then [.sem b both] else [])

/-- The header of a bundle seen in gather: its fields govern the other slots, its waits hold the bundle unless slots of it are
done (R502). -/
def headerGather (word : BitVec 32) (ws : List WaitCond) (s : State) : State :=
  let s := ({ s with issue := { s.issue with header := word } }).use 0 .header
  if s.ctx.doneSlots = 0 then s.wait ws else s

/-- At issue each active wait takes one (R66). -/
def headerCommit (w : BitVec 1) (a : BitVec 5) (x : BitVec 1) (b : BitVec 5) (s : State) : State :=
  if s.ctx.doneSlots ≠ 0 then s
  else
    let s := if w = 1 then s.modCtx (fun c => { c with sems := c.sems.take a 1 }) else s
    if x = 1 then s.modCtx (fun c => { c with sems := c.sems.take b 1 }) else s

/-- HEADER (R65 to R67): it carries no operation. -/
def execHeader (w : BitVec 1) (a : BitVec 5) (x : BitVec 1) (b : BitVec 5) (r i : BitVec 3) (l : BitVec 9) (s : State) : Result :=
  let word : BitVec 32 := 0x1F#5 ++ w ++ a ++ x ++ b ++ r ++ i ++ l
  let g := headerGather word (headerWaits w a x b)
  match s.issue.phase with
  | .single => .next (s.attempt { gather := g, commit := headerCommit w a x b, late := id })
  | .gather => .next (g s)
  | .commit => .next (headerCommit w a x b s)
  | .late => .next s

/-! ### Reserved encodings (R78) -/

/-- The write that poisons the default destination of a class (Table 3-1), none when it is g0. -/
def reservedDest (k : Fin 4) (w : BitVec 32) : Option (Nat × RegWrite) :=
  match k with
  | 1 => some (2, .v (w.extractLsb' 20 4) 0 fullMask true)
  | 3 => some (1, .x (w.extractLsb' 21 3) 0)
  | _ => if w.extractLsb' 19 5 = 0 then none else some (1, .g (w.extractLsb' 19 5) 0)

/-- The gather of a reserved encoding: g0 cannot hold poison, so the bundle traps with 0x01 (R78). Of two in one bundle POISONREC holds the
higher slot's word, and where a lower slot fails with another cause none is recorded: DESIGN CHOICE, unsafe, log 152. -/
def reservedGather (k : Fin 4) (w : BitVec 32) (kind : BitVec 5) (s : State) : State :=
  let s := s.use k.val .reserved
  match reservedDest k w with
  | some _ => s
  | none => { s.fail k.val 0x01 with issue := { (s.fail k.val 0x01).issue with reserved := poisonRecord w k.val kind s.ctx.flow.pc } }

/-- The commit of a reserved encoding: its default destination is poisoned and POISONREC written (R78, R79). -/
def reservedCommit (k : Fin 4) (w : BitVec 32) (kind : BitVec 5) (s : State) : State :=
  match reservedDest k w with
  | some (l, d) => (s.pend k.val (.n l) d true).modCtx (fun c => c.recordPoison (poisonRecord w k.val kind c.flow.pc))
  | none => s

/-- RESERVED_ENCODING (R77, R78): its predicate is ignored. -/
def execReservedEncoding (k : Fin 4) (w : BitVec 32) (kind : BitVec 5) (s : State) : Result :=
  match s.issue.phase with
  | .single => .next (s.attempt { gather := reservedGather k w kind, commit := reservedCommit k w kind, late := id })
  | .gather => .next (reservedGather k w kind s)
  | .commit => .next (reservedCommit k w kind s)
  | .late => .next s

/-! ### Control transfers (R102 to R105) -/

/-- A control transfer: v and c are its own condition, rs the target register, link whether g31 takes PC + 32, kind its trace
record (0 transfer, 1 RET). The poison of c is consumed whenever the slot is on, that of the target when it is taken. -/
def opTransfer (p : BitVec 2) (v : BitVec 1) (c : BitVec 3) (rs : List RegRef) (target : State → Int) (link : Bool)
    (kind : Nat) : SlotOp :=
  let taken : State → Bool := fun s => s.p c != (v == 1)
  { slot := 0, pred := p, reads := [.p c],
    consumes := fun s => s.anyPoison [.p c] || (taken s && s.anyPoison rs),
    checks := fun s =>
      if taken s then (if rs.any (fun r => s.ctx.regBad.contains r) then some 0xA5 else s.badTarget (target s)) else none,
    plan := fun s =>
      if taken s then { s with issue := { s.issue with transfer := some (BitVec.ofInt 32 (target s)) } } else s,
    act := fun s =>
      if taken s then
        let s := s.trace s.tag kind (BitVec.ofInt 32 (target s)) 0 0 (pcIndex s.ctx.flow.pc)
        if link then s.resultG 0 (.n 1) 31 (s.ctx.flow.pc + 32) false else s
      else s }

/-- BR (R103). -/
def execBr (p : BitVec 2) (v : BitVec 1) (c : BitVec 3) (o : BitVec 20) (s : State) : Result :=
  .next ((opTransfer p v c [] (fun s => s.relTarget o) false 0).run s)
/-- CALL (R103): the link is PC + 32. -/
def execCall (p : BitVec 2) (v : BitVec 1) (c : BitVec 3) (o : BitVec 20) (s : State) : Result :=
  .next ((opTransfer p v c [] (fun s => s.relTarget o) true 0).run s)
/-- BRR (R103). -/
def execBrr (p : BitVec 2) (v : BitVec 1) (c : BitVec 3) (a : BitVec 5) (s : State) : Result :=
  .next ((opTransfer p v c [.g a] (fun s => (s.g a).toNat) false 0).run s)
/-- CALLR (R103). -/
def execCallr (p : BitVec 2) (v : BitVec 1) (c : BitVec 3) (a : BitVec 5) (s : State) : Result :=
  .next ((opTransfer p v c [.g a] (fun s => (s.g a).toNat) true 0).run s)
/-- RET (R103): as BRR of g31, traced as a return. -/
def execRet (p : BitVec 2) (v : BitVec 1) (c : BitVec 3) (s : State) : Result :=
  .next ((opTransfer p v c [.g 31] (fun s => (s.g 31).toNat) false 1).run s)

/-! ### Loops (R106, R107) -/

/-- A loop start for level l with a count and a body length in bundles; in a handler it traps with 0x04 HANDLER_LOOP (R280). -/
def opLoop (p : BitVec 2) (l : BitVec 2) (rs : List RegRef) (count : State → Word) (len : Nat) : SlotOp :=
  { slot := 0, pred := p, reads := rs, consumes := fun s => s.anyPoison rs,
    checks := fun s => if s.ctx.sys.inHandler then some 0x04 else none,
    plan := fun s => { s with issue := { s.issue with loop := some (Fin.ofNat 4 l.toNat, count s, len) } } }

/-- LOOP (R106). -/
def execLoop (p l : BitVec 2) (a : BitVec 5) (n : BitVec 14) (s : State) : Result :=
  .next ((opLoop p l [.g a] (fun s => s.g a) n.toNat).run s)
/-- LOOPI (R106). -/
def execLoopi (p l : BitVec 2) (c : BitVec 12) (n : BitVec 10) (s : State) : Result :=
  .next ((opLoop p l [] (fun _ => c.setWidth 32) n.toNat).run s)

/-! ### Semaphores (R110 to R112) -/

/-- WAIT (R110): the bundle issues only when sN is at least n; then it takes n. -/
def execWait (p : BitVec 2) (k : BitVec 5) (n : BitVec 16) (s : State) : Result :=
  .next (SlotOp.run
    { slot := 0, pred := p, waits := fun _ => [.sem k n.toNat],
      act := fun s => s.modCtx (fun c => { c with sems := c.sems.take k n.toNat }) } s)

/-- SIG (R110, R112): above 65,535 it traps with 0x60. -/
def execSig (p : BitVec 2) (k : BitVec 5) (n : BitVec 16) (s : State) : Result :=
  .next (SlotOp.run
    { slot := 0, pred := p,
      checks := fun s => if 65535 < s.ctx.sems.val k + n.toNat then some 0x60 else none,
      act := fun s => s.modCtx (fun c => { c with sems := c.sems.arrive k n.toNat }) } s)

/-! ### System registers (R113 to R115) -/

/-- The value of system register n (Table 4-8). -/
def State.sysRead (s : State) (n : Nat) : Word :=
  let c := s.ctx
  if 0x40 ≤ n then (c.sems.s.toList.getD (n - 0x40) 0).setWidth 32
  else match n with
  | 0x00 => c.sys.fpc
  | 0x01 => c.sys.srstep
  | 0x02 => c.sys.cause.setWidth 32
  | 0x03 => c.sys.epc
  | 0x04 => c.sys.doneMask.setWidth 32
  | 0x05 => c.sys.poisonRec.extractLsb' 0 32
  | 0x06 => c.sys.poisonRec.extractLsb' 32 32
  | 0x08 => BitVec.ofNat 32 s.tile.at'.x
  | 0x09 => BitVec.ofNat 32 s.tile.at'.y
  | 0x0A => BitVec.ofNat 32 s.tile.life.px
  | 0x0B => BitVec.ofNat 32 s.tile.life.py
  | 0x0C => BitVec.ofNat 32 ((c.life.num.map (·.val)).getD 0)
  | 0x0D => if s.tile.life.secure then 1 else 0
  | 0x0E => c.sys.prio.setWidth 32
  | 0x10 => s.cycle.setWidth 32
  | 0x11 => c.sys.cycleHs
  | 0x12 => s.cycle.extractLsb' 32 32
  | 0x18 => if c.flow.loops[0].active then c.flow.loops[0].cnt else 0
  | 0x19 => if c.flow.loops[1].active then c.flow.loops[1].cnt else 0
  | 0x1A => if c.flow.loops[2].active then c.flow.loops[2].cnt else 0
  | 0x1B => if c.flow.loops[3].active then c.flow.loops[3].cnt else 0
  | 0x1C => (boolBit c.flow.loops[3].active ++ boolBit c.flow.loops[2].active ++ boolBit c.flow.loops[1].active
              ++ boolBit c.flow.loops[0].active : BitVec 4).setWidth 32
  | _ => 0

/-- MOVS (R113, R115): the result carries no poison; CYCLELO also copies CYCLE[63:32] into CYCLEHS. -/
def execMovs (p : BitVec 2) (d : BitVec 5) (n : BitVec 10) (s : State) : Result :=
  .next (SlotOp.run
    { slot := 0, pred := p,
      act := fun s =>
        let s := if n = 0x10 then s.modCtx (fun c => { c with sys := { c.sys with cycleHs := s.cycle.extractLsb' 32 32 } }) else s
        s.resultG 0 (.n 1) d (s.sysRead n.toNat) false } s)

/-- The context after an SMOV of w to system register n (Table 4-8). -/
def Context.sysWrite (c : Context) (n : Nat) (w : Word) : Context :=
  if 0x40 ≤ n then { c with sems := { c.sems with put := c.sems.put ++ [(BitVec.ofNat 5 (n - 0x40), w.setWidth 16)] } }
  else match n with
  | 0x00 => { c with sys := c.sys.writeFpc w }
  | 0x01 => { c with sys := { c.sys with srstep := w } }
  | 0x03 => { c with sys := { c.sys with epc := w, epcDelay := false } }
  | 0x04 => { c with sys := { c.sys with doneMask := w.setWidth 4 } }
  | 0x05 => { c with sys := c.sys.writePoison w }
  | _ => c

/-- SMOV (R113): bundles after its own see the write; a semaphore takes it at the end of the cycle (R111). -/
def execSmov (p : BitVec 2) (a : BitVec 5) (n : BitVec 10) (s : State) : Result :=
  .next (SlotOp.run
    { slot := 0, pred := p, reads := [.g a], consumes := fun s => s.anyPoison [.g a],
      late := fun s => s.modCtx (fun c => c.sysWrite n.toNat (s.g a)) } s)

end Sys2Proof.Machine
end

