-- ==== Sys2Proof/Machine/Scalar.lean ====
section
/-! DEFINITION. The S slot's arithmetic: register and immediate ALU, SU forms, bit fields, compares, predicate logic, select
(R94 to R101). One definition per instruction over the shared forms at the head. -/

namespace Sys2Proof.Machine

/-- gd from a function of ga and gb (Table 4-1, R94). -/
def opAlu (fn : AluFn) (l : Nat) (p : BitVec 2) (d a b : BitVec 5) : SlotOp :=
  { slot := 0, pred := p, reads := [.g a, .g b],
    act := fun s => s.resultG 0 (.n l) d (aluResult fn (s.g a) (s.g b)) (s.anyPoison [.g a, .g b]) }

/-- gd from a function of ga alone; the gb field is zero (R94). -/
def opAlu1 (fn : AluFn) (p : BitVec 2) (d a : BitVec 5) : SlotOp :=
  { slot := 0, pred := p, reads := [.g a],
    act := fun s => s.resultG 0 (.n 1) d (aluResult fn (s.g a) 0) (s.anyPoison [.g a]) }

/-- gd from a function of ga and an immediate word (R96). -/
def opAluImm (fn : AluFn) (l : Nat) (p : BitVec 2) (d a : BitVec 5) (imm : Word) : SlotOp :=
  { slot := 0, pred := p, reads := [.g a],
    act := fun s => s.resultG 0 (.n l) d (aluResult fn (s.g a) imm) (s.anyPoison [.g a]) }

/-- gd from a value that reads no register (R97). -/
def opSet (p : BitVec 2) (d : BitVec 5) (val : State → Word) : SlotOp :=
  { slot := 0, pred := p, act := fun s => s.resultG 0 (.n 1) d (val s) false }

/-- SETP and SETPI (R99): b is the second operand; the old pd is read when cb is 01 or 10. -/
def opSetp (p : BitVec 2) (d : BitVec 3) (cb : BitVec 2) (a : BitVec 5) (rs : List RegRef) (b : State → Word) (k : BitVec 4) : SlotOp :=
  let old : List RegRef := if cb = 0 then [] else [.p d]
  { slot := 0, pred := p, reads := (.g a :: rs) ++ old,
    act := fun s => s.resultP d (combine cb (s.p d) (scalarCond k (s.g a) (b s))) (s.anyPoison ((.g a :: rs) ++ old)) }

/-- PLOG (R100). -/
def opPlog (f : Bool → Bool → Bool) (p : BitVec 2) (d a b : BitVec 3) (x y : BitVec 1) : SlotOp :=
  { slot := 0, pred := p, reads := [.p a, .p b],
    act := fun s => s.resultP d (f (s.p a != (x == 1)) (s.p b != (y == 1))) (s.anyPoison [.p a, .p b]) }

/-- ADD (R94). -/
def execAdd (p : BitVec 2) (d a b : BitVec 5) (s : State) : Result := .next ((opAlu .add 1 p d a b).run s)
/-- SUB (R94). -/
def execSub (p : BitVec 2) (d a b : BitVec 5) (s : State) : Result := .next ((opAlu .sub 1 p d a b).run s)
/-- AND (R94). -/
def execAnd (p : BitVec 2) (d a b : BitVec 5) (s : State) : Result := .next ((opAlu .and 1 p d a b).run s)
/-- OR (R94). -/
def execOr (p : BitVec 2) (d a b : BitVec 5) (s : State) : Result := .next ((opAlu .or 1 p d a b).run s)
/-- XOR (R94). -/
def execXor (p : BitVec 2) (d a b : BitVec 5) (s : State) : Result := .next ((opAlu .xor 1 p d a b).run s)
/-- ANDN (R94). -/
def execAndn (p : BitVec 2) (d a b : BitVec 5) (s : State) : Result := .next ((opAlu .andn 1 p d a b).run s)
/-- SHL (R94). -/
def execShl (p : BitVec 2) (d a b : BitVec 5) (s : State) : Result := .next ((opAlu .shl 1 p d a b).run s)
/-- SHR (R94). -/
def execShr (p : BitVec 2) (d a b : BitVec 5) (s : State) : Result := .next ((opAlu .shr 1 p d a b).run s)
/-- SAR (R94). -/
def execSar (p : BitVec 2) (d a b : BitVec 5) (s : State) : Result := .next ((opAlu .sar 1 p d a b).run s)
/-- ROL (R94). -/
def execRol (p : BitVec 2) (d a b : BitVec 5) (s : State) : Result := .next ((opAlu .rol 1 p d a b).run s)
/-- MIN (R94). -/
def execMin (p : BitVec 2) (d a b : BitVec 5) (s : State) : Result := .next ((opAlu .min 1 p d a b).run s)
/-- MAX (R94). -/
def execMax (p : BitVec 2) (d a b : BitVec 5) (s : State) : Result := .next ((opAlu .max 1 p d a b).run s)
/-- MINU (R94). -/
def execMinu (p : BitVec 2) (d a b : BitVec 5) (s : State) : Result := .next ((opAlu .minu 1 p d a b).run s)
/-- MAXU (R94). -/
def execMaxu (p : BitVec 2) (d a b : BitVec 5) (s : State) : Result := .next ((opAlu .maxu 1 p d a b).run s)
/-- MUL (R94). -/
def execMul (p : BitVec 2) (d a b : BitVec 5) (s : State) : Result := .next ((opAlu .mul 3 p d a b).run s)
/-- MULH (R94). -/
def execMulh (p : BitVec 2) (d a b : BitVec 5) (s : State) : Result := .next ((opAlu .mulh 3 p d a b).run s)
/-- MULHU (R94). -/
def execMulhu (p : BitVec 2) (d a b : BitVec 5) (s : State) : Result := .next ((opAlu .mulhu 3 p d a b).run s)
/-- DIV (R94). -/
def execDiv (p : BitVec 2) (d a b : BitVec 5) (s : State) : Result := .next ((opAlu .div 34 p d a b).run s)
/-- DIVU (R94). -/
def execDivu (p : BitVec 2) (d a b : BitVec 5) (s : State) : Result := .next ((opAlu .divu 34 p d a b).run s)
/-- REM (R94). -/
def execRem (p : BitVec 2) (d a b : BitVec 5) (s : State) : Result := .next ((opAlu .rem 34 p d a b).run s)
/-- REMU (R94). -/
def execRemu (p : BitVec 2) (d a b : BitVec 5) (s : State) : Result := .next ((opAlu .remu 34 p d a b).run s)
/-- ADDS (R94). -/
def execAdds (p : BitVec 2) (d a b : BitVec 5) (s : State) : Result := .next ((opAlu .adds 1 p d a b).run s)
/-- SUBS (R94). -/
def execSubs (p : BitVec 2) (d a b : BitVec 5) (s : State) : Result := .next ((opAlu .subs 1 p d a b).run s)
/-- CLZ (R94). -/
def execClz (p : BitVec 2) (d a : BitVec 5) (s : State) : Result := .next ((opAlu1 .clz p d a).run s)
/-- CTZ (R94). -/
def execCtz (p : BitVec 2) (d a : BitVec 5) (s : State) : Result := .next ((opAlu1 .ctz p d a).run s)
/-- POPC (R94). -/
def execPopc (p : BitVec 2) (d a : BitVec 5) (s : State) : Result := .next ((opAlu1 .popc p d a).run s)
/-- BREV (R94). -/
def execBrev (p : BitVec 2) (d a : BitVec 5) (s : State) : Result := .next ((opAlu1 .brev p d a).run s)
/-- BSWAP (R94). -/
def execBswap (p : BitVec 2) (d a : BitVec 5) (s : State) : Result := .next ((opAlu1 .bswap p d a).run s)
/-- ADDI (R96). -/
def execAddi (p : BitVec 2) (d a : BitVec 5) (i : BitVec 14) (s : State) : Result :=
  .next ((opAluImm .add 1 p d a (sx i)).run s)
/-- ANDI (R96). -/
def execAndi (p : BitVec 2) (d a : BitVec 5) (i : BitVec 14) (s : State) : Result :=
  .next ((opAluImm .and 1 p d a (sx i)).run s)
/-- ORI (R96). -/
def execOri (p : BitVec 2) (d a : BitVec 5) (i : BitVec 14) (s : State) : Result :=
  .next ((opAluImm .or 1 p d a (sx i)).run s)
/-- XORI (R96). -/
def execXori (p : BitVec 2) (d a : BitVec 5) (i : BitVec 14) (s : State) : Result :=
  .next ((opAluImm .xor 1 p d a (sx i)).run s)
/-- MULI (R96). -/
def execMuli (p : BitVec 2) (d a : BitVec 5) (i : BitVec 14) (s : State) : Result :=
  .next ((opAluImm .mul 3 p d a (sx i)).run s)
/-- SHLI (R96). -/
def execShli (p : BitVec 2) (d a i : BitVec 5) (s : State) : Result :=
  .next ((opAluImm .shl 1 p d a (i.setWidth 32)).run s)
/-- SHRI (R96). -/
def execShri (p : BitVec 2) (d a i : BitVec 5) (s : State) : Result :=
  .next ((opAluImm .shr 1 p d a (i.setWidth 32)).run s)
/-- SARI (R96). -/
def execSari (p : BitVec 2) (d a i : BitVec 5) (s : State) : Result :=
  .next ((opAluImm .sar 1 p d a (i.setWidth 32)).run s)
/-- MOVI (R97). -/
def execMovi (p : BitVec 2) (d : BitVec 5) (i : BitVec 19) (s : State) : Result := .next ((opSet p d (fun _ => sx i)).run s)
/-- MOVHI (R97). -/
def execMovhi (p : BitVec 2) (d : BitVec 5) (i : BitVec 19) (s : State) : Result :=
  .next ((opSet p d (fun _ => i.setWidth 32 <<< 13)).run s)
/-- LEAB (R97). -/
def execLeab (p : BitVec 2) (d : BitVec 5) (i : BitVec 19) (s : State) : Result :=
  .next ((opSet p d (fun s => s.ctx.flow.pc + (sx i <<< 4))).run s)
/-- BFX (R98). -/
def execBfx (p : BitVec 2) (d a l k : BitVec 5) (s : State) : Result :=
  .next (SlotOp.run
    { slot := 0, pred := p, reads := [.g a],
      act := fun s => s.resultG 0 (.n 1) d (bitFieldS (s.g a) k.toNat (l.toNat + 1)) (s.anyPoison [.g a]) } s)
/-- BFXU (R98). -/
def execBfxu (p : BitVec 2) (d a l k : BitVec 5) (s : State) : Result :=
  .next (SlotOp.run
    { slot := 0, pred := p, reads := [.g a],
      act := fun s => s.resultG 0 (.n 1) d (bitField (s.g a) k.toNat (l.toNat + 1)) (s.anyPoison [.g a]) } s)
/-- BFI (R98): gd is a third source. -/
def execBfi (p : BitVec 2) (d a l k : BitVec 5) (s : State) : Result :=
  .next (SlotOp.run
    { slot := 0, pred := p, reads := [.g a, .g d],
      act := fun s => s.resultG 0 (.n 1) d (bitInsert (s.g d) (s.g a) k.toNat (l.toNat + 1)) (s.anyPoison [.g a, .g d]) } s)
/-- SETP (R99). -/
def execSetp (p : BitVec 2) (d : BitVec 3) (cb : BitVec 2) (a b : BitVec 5) (k : BitVec 4) (s : State) : Result :=
  .next ((opSetp p d cb a [.g b] (fun s => s.g b) k).run s)
/-- SETPI (R99). -/
def execSetpi (p : BitVec 2) (d : BitVec 3) (cb : BitVec 2) (a : BitVec 5) (k : BitVec 4) (i : BitVec 10) (s : State) : Result :=
  .next ((opSetp p d cb a [] (fun _ => sx i) k).run s)
/-- PAND (R100). -/
def execPand (p : BitVec 2) (d a b : BitVec 3) (x y : BitVec 1) (s : State) : Result := .next ((opPlog (· && ·) p d a b x y).run s)
/-- POR (R100). -/
def execPor (p : BitVec 2) (d a b : BitVec 3) (x y : BitVec 1) (s : State) : Result := .next ((opPlog (· || ·) p d a b x y).run s)
/-- PXOR (R100). -/
def execPxor (p : BitVec 2) (d a b : BitVec 3) (x y : BitVec 1) (s : State) : Result := .next ((opPlog (· != ·) p d a b x y).run s)
/-- SEL (R101): poison of any of the three operands, whichever is selected. -/
def execSel (p : BitVec 2) (d a b : BitVec 5) (c : BitVec 3) (v : BitVec 1) (s : State) : Result :=
  .next (SlotOp.run
    { slot := 0, pred := p, reads := [.g a, .g b, .p c],
      act := fun s => s.resultG 0 (.n 1) d (if s.p c != (v == 1) then s.g a else s.g b) (s.anyPoison [.g a, .g b, .p c]) } s)

end Sys2Proof.Machine
end

