-- ==== Sys2Proof/Machine/VectorFloat.lean ====
section
/-! DEFINITION. The V slot's floating instructions and reductions (R121, R124 to R126, R135). -/

namespace Sys2Proof.Machine

/-- The format of a floating ty code (Table 3-4). -/
def floatTy (t : Nat) : Fmt := match t with | 0 => .f32 | 1 => .bf16 | _ => .f16

/-- The draw of element j of width w under an SRSTEP value (R45, R121): position j mod (32 / w) of lane j / (32 / w). -/
def elemDraw (md : FpMode) (step w j : Nat) : Nat := drawOf md step (j / (32 / w)) (j % (32 / w))

/-- The packed vector of elements of format f. -/
def ofFloats (f : Fmt) (g : Nat → Nat) : Vec := ofElems f.width g

/-- The value of element j under DAZ (R46). -/
def floatAt (f : Fmt) (md : FpMode) (v : Vec) (j : Nat) : FVal := f.decodeDaz md.daz (element f.width v j)

/-- A two-operand function that rounds (R124). -/
def roundMap2 (f : Fmt) (md : FpMode) (step : Nat) (g : Rm → FVal → FVal → FVal) (a b : Vec) : Vec :=
  ofFloats f (fun j => f.encode md (elemDraw md step f.width j) (g md.rm (floatAt f md a j) (floatAt f md b j)))

/-- A function that does not round: its result is exact in the format, FTZ and the NaN policy apply (R124). -/
def exactMap (f : Fmt) (md : FpMode) (g : Nat → FVal) : Vec := ofFloats f (fun j => f.encode { md with rm := .rtz } 0 (g j))

/-- VFADD, VFSUB, VFMUL on V sources (R124): latency 4, one SRSTEP value. -/
def opVFRound (g : Rm → FVal → FVal → FVal) (p : BitVec 2) (d : BitVec 4) (a b : BitVec 5) (m t : BitVec 3) : SlotOp :=
  { slot := 1, pred := p, reads := srcRegs a ++ srcRegs b ++ [.m m], pops := srcPops a ++ srcPops b,
    act := fun s =>
      let md := s.fpMode
      let (k, s) := s.takeStep
      let x := s.vsrc a
      let y := s.vsrc b
      s.resultV 1 (.n 4) d m (roundMap2 (floatTy t.toNat) md k g x.1 y.1) (x.2 || y.2) }

/-- The same with a scalar second operand (R124): gb under F32, gb[15:0] in every element under BF16 and F16. -/
def opVFRoundS (g : Rm → FVal → FVal → FVal) (p : BitVec 2) (d : BitVec 4) (a b : BitVec 5) (m t : BitVec 3) : SlotOp :=
  { slot := 1, pred := p, reads := srcRegs a ++ [.g b, .m m], pops := srcPops a,
    act := fun s =>
      let md := s.fpMode
      let (k, s) := s.takeStep
      let x := s.vsrc a
      s.resultV 1 (.n 4) d m (roundMap2 (floatTy t.toNat) md k g x.1 (splatElem (floatTy t.toNat).width (s.g b))) (x.2 || s.anyPoison [.g b]) }

/-- VFMIN and VFMAX on V sources (R124). -/
def opVFSel (g : FVal → FVal → FVal) (p : BitVec 2) (d : BitVec 4) (a b : BitVec 5) (m t : BitVec 3) : SlotOp :=
  { slot := 1, pred := p, reads := srcRegs a ++ srcRegs b ++ [.m m], pops := srcPops a ++ srcPops b,
    act := fun s =>
      let md := s.fpMode
      let f := floatTy t.toNat
      let x := s.vsrc a
      let y := s.vsrc b
      s.resultV 1 (.n 2) d m (exactMap f md (fun j => g (floatAt f md x.1 j) (floatAt f md y.1 j))) (x.2 || y.2) }

/-- VFMIN and VFMAX with a scalar second operand (R124). -/
def opVFSelS (g : FVal → FVal → FVal) (p : BitVec 2) (d : BitVec 4) (a b : BitVec 5) (m t : BitVec 3) : SlotOp :=
  { slot := 1, pred := p, reads := srcRegs a ++ [.g b, .m m], pops := srcPops a,
    act := fun s =>
      let md := s.fpMode
      let f := floatTy t.toNat
      let x := s.vsrc a
      s.resultV 1 (.n 2) d m (exactMap f md (fun j => g (floatAt f md x.1 j) (f.decodeDaz md.daz ((s.g b).toNat % 2 ^ f.width))))
        (x.2 || s.anyPoison [.g b]) }

/-- A one-operand operation on elements: bits to bits, under the mode. -/
def opVF1 (lat : Nat) (g : Fmt → FpMode → Nat → Nat) (p : BitVec 2) (d : BitVec 4) (a : BitVec 5) (m t : BitVec 3) : SlotOp :=
  { slot := 1, pred := p, reads := srcRegs a ++ [.m m], pops := srcPops a,
    act := fun s =>
      let md := s.fpMode
      let f := floatTy t.toNat
      let x := s.vsrc a
      s.resultV 1 (.n lat) d m (ofFloats f (fun j => g f md (element f.width x.1 j))) x.2 }

/-- VFABS and VFNEG of an element (R124): a NaN result takes the sign operation only under PROP. -/
def signElem (op : Bool → Bool) (f : Fmt) (md : FpMode) (b : Nat) : Nat :=
  match f.decodeDaz md.daz b with
  | .nan s m w =>
    let r := f.encode md 0 (.nan s m w)
    let sg := decide (2 ^ (f.width - 1) ≤ r)
    if md.prop then r % 2 ^ (f.width - 1) + f.signBits (op sg) else r
  | .inf s => f.encode md 0 (.inf (op s))
  | .num s m e => f.encode { md with rm := .rtz } 0 (.num (op s) m e)

/-- A transcendental of an element (R57 to R60, R124): the F32 algorithm, then one rounding to the format with RNE. -/
def transcElem (g : FVal → FVal) (f : Fmt) (md : FpMode) (b : Nat) : Nat :=
  f.encode { md with rm := .rne } 0 (g (f.decodeDaz md.daz b))

/-- VFRINT of a value (R124): an integral value of the same sign; infinities and zeros unchanged. -/
def rintVal (rm : Rm) (r : Nat) : FVal → FVal
  | .num s 0 e => .num s 0 e
  | .num s m e => .num s (roundToInt rm r s m e).natAbs 0
  | v => v

/-- The fused forms (R125): negP and negC negate the product and the addend. -/
def opVFma (negP negC : Bool) (p : BitVec 2) (d : BitVec 4) (a b c : BitVec 5) (m : BitVec 3) (t : BitVec 2) : SlotOp :=
  { slot := 1, pred := p, reads := srcRegs a ++ srcRegs b ++ srcRegs c ++ [.m m], pops := srcPops a ++ srcPops b ++ srcPops c,
    act := fun s =>
      let md := s.fpMode
      let f := floatTy t.toNat
      let (k, s) := s.takeStep
      let x := s.vsrc a
      let y := s.vsrc b
      let z := s.vsrc c
      s.resultV 1 (.n 4) d m (ofFloats f (fun j => f.encode md (elemDraw md k f.width j)
        (FVal.fma md.rm negP negC (floatAt f md x.1 j) (floatAt f md y.1 j) (floatAt f md z.1 j)))) (x.2 || y.2 || z.2) }

/-- The exact difference a - b (R124). -/
def FVal.sub (rm : Rm) (a b : FVal) : FVal := FVal.add rm a b.neg

/-- VFADD (R124). -/
def execVfadd (p : BitVec 2) (d : BitVec 4) (a b : BitVec 5) (m t : BitVec 3) (s : State) : Result :=
  .next ((opVFRound FVal.add p d a b m t).run s)
/-- VFADD_SCALAR (R124). -/
def execVfaddScalar (p : BitVec 2) (d : BitVec 4) (a g : BitVec 5) (m t : BitVec 3) (s : State) : Result :=
  .next ((opVFRoundS FVal.add p d a g m t).run s)
/-- VFSUB (R124). -/
def execVfsub (p : BitVec 2) (d : BitVec 4) (a b : BitVec 5) (m t : BitVec 3) (s : State) : Result :=
  .next ((opVFRound FVal.sub p d a b m t).run s)
/-- VFSUB_SCALAR (R124). -/
def execVfsubScalar (p : BitVec 2) (d : BitVec 4) (a g : BitVec 5) (m t : BitVec 3) (s : State) : Result :=
  .next ((opVFRoundS FVal.sub p d a g m t).run s)
/-- VFMUL (R124). -/
def execVfmul (p : BitVec 2) (d : BitVec 4) (a b : BitVec 5) (m t : BitVec 3) (s : State) : Result :=
  .next ((opVFRound (fun _ => FVal.mul) p d a b m t).run s)
/-- VFMUL_SCALAR (R124). -/
def execVfmulScalar (p : BitVec 2) (d : BitVec 4) (a g : BitVec 5) (m t : BitVec 3) (s : State) : Result :=
  .next ((opVFRoundS (fun _ => FVal.mul) p d a g m t).run s)
/-- VFMIN (R124). -/
def execVfmin (p : BitVec 2) (d : BitVec 4) (a b : BitVec 5) (m t : BitVec 3) (s : State) : Result :=
  .next ((opVFSel FVal.minF p d a b m t).run s)
/-- VFMIN_SCALAR (R124). -/
def execVfminScalar (p : BitVec 2) (d : BitVec 4) (a g : BitVec 5) (m t : BitVec 3) (s : State) : Result :=
  .next ((opVFSelS FVal.minF p d a g m t).run s)
/-- VFMAX (R124). -/
def execVfmax (p : BitVec 2) (d : BitVec 4) (a b : BitVec 5) (m t : BitVec 3) (s : State) : Result :=
  .next ((opVFSel FVal.maxF p d a b m t).run s)
/-- VFMAX_SCALAR (R124). -/
def execVfmaxScalar (p : BitVec 2) (d : BitVec 4) (a g : BitVec 5) (m t : BitVec 3) (s : State) : Result :=
  .next ((opVFSelS FVal.maxF p d a g m t).run s)
/-- VFABS (R124). -/
def execVfabs (p : BitVec 2) (d : BitVec 4) (a : BitVec 5) (m t : BitVec 3) (s : State) : Result :=
  .next ((opVF1 2 (signElem (fun _ => false)) p d a m t).run s)
/-- VFNEG (R124). -/
def execVfneg (p : BitVec 2) (d : BitVec 4) (a : BitVec 5) (m t : BitVec 3) (s : State) : Result :=
  .next ((opVF1 2 (signElem (fun b => !b)) p d a m t).run s)
/-- VEXP2 (R57, R124). -/
def execVexp2 (p : BitVec 2) (d : BitVec 4) (a : BitVec 5) (m t : BitVec 3) (s : State) : Result :=
  .next ((opVF1 8 (transcElem exp2F) p d a m t).run s)
/-- VLOG2 (R58, R124). -/
def execVlog2 (p : BitVec 2) (d : BitVec 4) (a : BitVec 5) (m t : BitVec 3) (s : State) : Result :=
  .next ((opVF1 8 (transcElem log2F) p d a m t).run s)
/-- VRCP (R59, R124). -/
def execVrcp (p : BitVec 2) (d : BitVec 4) (a : BitVec 5) (m t : BitVec 3) (s : State) : Result :=
  .next ((opVF1 8 (transcElem rcpF) p d a m t).run s)
/-- VRSQRT (R60, R124). -/
def execVrsqrt (p : BitVec 2) (d : BitVec 4) (a : BitVec 5) (m t : BitVec 3) (s : State) : Result :=
  .next ((opVF1 8 (transcElem rsqrtF) p d a m t).run s)
/-- VFMA (R125). -/
def execVfma (p : BitVec 2) (d : BitVec 4) (a b c : BitVec 5) (m : BitVec 3) (t : BitVec 2) (s : State) : Result :=
  .next ((opVFma false false p d a b c m t).run s)
/-- VFMS (R125). -/
def execVfms (p : BitVec 2) (d : BitVec 4) (a b c : BitVec 5) (m : BitVec 3) (t : BitVec 2) (s : State) : Result :=
  .next ((opVFma false true p d a b c m t).run s)
/-- VFNMA (R125). -/
def execVfnma (p : BitVec 2) (d : BitVec 4) (a b c : BitVec 5) (m : BitVec 3) (t : BitVec 2) (s : State) : Result :=
  .next ((opVFma true false p d a b c m t).run s)

/-- VFRINT (R121, R124): takes a rounding mode and one SRSTEP value. -/
def execVfrint (p : BitVec 2) (d : BitVec 4) (a : BitVec 5) (m t : BitVec 3) (s : State) : Result :=
  .next (SlotOp.run
    { slot := 1, pred := p, reads := srcRegs a ++ [.m m], pops := srcPops a,
      act := fun s =>
        let md := s.fpMode
        let f := floatTy t.toNat
        let (k, s) := s.takeStep
        let x := s.vsrc a
        s.resultV 1 (.n 2) d m (ofFloats f (fun j =>
          f.encode { md with rm := .rtz } 0 (rintVal md.rm (elemDraw md k f.width j) (floatAt f md x.1 j)))) x.2 } s)

/-- VFCMP (R126). -/
def execVfcmp (p : BitVec 2) (d : BitVec 3) (a b : BitVec 5) (m t : BitVec 3) (c : BitVec 4) (s : State) : Result :=
  .next (SlotOp.run
    { slot := 1, pred := p, reads := srcRegs a ++ srcRegs b ++ [.m m], pops := srcPops a ++ srcPops b,
      act := fun s =>
        let md := s.fpMode
        let f := floatTy t.toNat
        let n := 32 / f.width
        let x := s.vsrc a
        let y := s.vsrc b
        let r := maskOf (fun l => (s.m m).toNat.testBit l && (List.range n).all (fun e =>
          fcond c.toNat (floatAt f md x.1 (l * n + e)) (floatAt f md y.1 (l * n + e))))
        s.pend 1 (.n 2) (.m d r) (x.2 || y.2 || s.anyPoison [.m m]) } s)

/-! ### Reductions within a cluster (R135) -/

/-- The pairwise tree of n levels over the values from i on: (2i, 2i + 1) first. -/
def treeF32 (f : Nat → FVal) : Nat → Nat → FVal
  | 0, i => f i
  | n + 1, i =>
    let a := treeF32 f n (2 * i)
    let b := treeF32 f n (2 * i + 1)
    match FVal.add .rne a b with
    | .nan s m w => .nan s m w
    | v => Fmt.f32.decode (f32Rne v)

/-- Lane l of a cluster's reduction of words, under a mask: the integer forms. -/
def reduceInt (f : Int → Int → Int) (ident : Int) (sg : Bool) (x : Vec) (mk : Mask) (c n : Nat) : Int :=
  (List.range n).foldl (fun acc i =>
    f acc (if mk.toNat.testBit (16 * c + i) then intVal 32 sg (lane x (16 * c + i)).toNat else ident)) ident

/-- The value of lane i of cluster c under the mask for an F32 reduction: the identity where it is off. -/
def reduceLane (md : FpMode) (ident : FVal) (x : Vec) (mk : Mask) (c i : Nat) : FVal :=
  if mk.toNat.testBit (16 * c + i) then Fmt.f32.decodeDaz md.daz (lane x (16 * c + i)).toNat else ident

/-- The F32 prefix sum from lane 0 upward, starting from -0 (R135). -/
def scanF32 (f : Nat → FVal) : Nat → FVal
  | 0 => .num true 0 0
  | n + 1 =>
    match FVal.add .rne (scanF32 f n) (f n) with
    | .nan s m w => .nan s m w
    | v => Fmt.f32.decode (f32Rne v)

/-- The result of a reduction over the lanes f 0 to f (n - 1): a NaN result is the NaN of the lowest lane that holds one (R49, R135). -/
def laneNan (f : Nat → FVal) (n : Nat) (v : FVal) : FVal := if v.isNan then firstNan ((List.range n).map f) else v

/-- A reduction (R135): g gives the value of lane i of cluster c from the source and the mask. Every lane of vd is written. -/
def opReduce (p : BitVec 2) (d : BitVec 4) (a : BitVec 5) (m : BitVec 3) (g : FpMode → Vec → Mask → Nat → Nat → Nat) : SlotOp :=
  { slot := 1, pred := p, reads := srcRegs a ++ [.m m], pops := srcPops a,
    act := fun s =>
      let x := s.vsrc a
      let mk := s.m m
      s.resultVAll 1 (.n 4) d (ofLanes (fun l => BitVec.ofNat 32 (g s.fpMode x.1 mk (l / 16) (l % 16)))) (x.2 || s.anyPoison [.m m]) }

/-- F32 bits of a reduction's result: FTZ and the NaN policy apply (R135). -/
def reduceBits (md : FpMode) (v : FVal) : Nat := Fmt.f32.encode { md with rm := .rne } 0 v

/-- VRSUM (R135). -/
def execVrsum (p : BitVec 2) (d : BitVec 4) (a : BitVec 5) (m t : BitVec 3) (s : State) : Result :=
  .next ((opReduce p d a m (fun md x mk c _ =>
    if t = 2 then reduceBits md (laneNan (reduceLane md (.num true 0 0) x mk c) 16 (treeF32 (reduceLane md (.num true 0 0) x mk c) 4 0))
    else wrapNat 32 (reduceInt (· + ·) 0 (t == 0) x mk c 16))).run s)
/-- VRMAX (R135). -/
def execVrmax (p : BitVec 2) (d : BitVec 4) (a : BitVec 5) (m t : BitVec 3) (s : State) : Result :=
  .next ((opReduce p d a m (fun md x mk c _ =>
    if t = 2 then reduceBits md ((List.range 16).foldl (fun acc i => FVal.maxF acc (reduceLane md (.inf true) x mk c i)) (.inf true))
    else wrapNat 32 (reduceInt max (intLo 32 (t == 0)) (t == 0) x mk c 16))).run s)
/-- VRMIN (R135). -/
def execVrmin (p : BitVec 2) (d : BitVec 4) (a : BitVec 5) (m t : BitVec 3) (s : State) : Result :=
  .next ((opReduce p d a m (fun md x mk c _ =>
    if t = 2 then reduceBits md ((List.range 16).foldl (fun acc i => FVal.minF acc (reduceLane md (.inf false) x mk c i)) (.inf false))
    else wrapNat 32 (reduceInt min (intHi 32 (t == 0)) (t == 0) x mk c 16))).run s)
/-- VSCAN (R135): lane i takes the inclusive prefix sum of lanes 0 to i. -/
def execVscan (p : BitVec 2) (d : BitVec 4) (a : BitVec 5) (m t : BitVec 3) (s : State) : Result :=
  .next ((opReduce p d a m (fun md x mk c i =>
    if t = 2 then reduceBits md (laneNan (reduceLane md (.num true 0 0) x mk c) (i + 1) (scanF32 (reduceLane md (.num true 0 0) x mk c) (i + 1)))
    else wrapNat 32 (reduceInt (· + ·) 0 (t == 0) x mk c (i + 1)))).run s)

end Sys2Proof.Machine
end

