-- ==== Sys2Proof/Machine/VectorConv.lean ====
section
/-! DEFINITION. Format conversion (VCVT, R129, R130) and the veneer forms (VEN, VDE, R131 to R134, R51, R52). -/

namespace Sys2Proof.Machine

/-! ### Element formats -/

/-- The floating format of an element-format code; none for integer formats and E8M0. -/
def fmtOf (e : Nat) : Option Fmt :=
  match e with
  | 0 => some .f32 | 1 => some .bf16 | 2 => some .f16 | 3 => some .e5m2 | 4 => some .e4m3 | 5 => some .e2m1 | _ => none

/-- Whether an integer element format is signed (Table 3-4). -/
def intFmtSigned (e : Nat) : Bool := e == 6 || e == 8 || e == 10 || e == 12 || e == 13

/-- The value of an E8M0 byte (R130): 2^(E - 127), 0xFF a NaN. -/
def e8m0Val (x : Nat) : FVal := if x = 255 then .canon else .num false 1 ((x : Int) - 127)

/-- floor(log2 of m x 2^e). -/
def floorLog2 (m : Nat) (e : Int) : Int := e + m.log2

/-- A value as E8M0 (R130). -/
def toE8m0 : FVal → Nat
  | .num _ 0 _ => 0
  | .num _ m e => (clampInt 0 254 (floorLog2 m e + 127)).toNat
  | _ => 255

/-- The value of an element of a format: an integer's own value, an E8M0's power of two, a floating value under DAZ. -/
def elemVal (e : Nat) (md : FpMode) (x : Nat) : FVal :=
  match fmtOf e with
  | some f => f.decodeDaz md.daz x
  | none => if e = 14 then e8m0Val x else FVal.ofInt (intVal (formatWidth e) (intFmtSigned e) x)

/-- A value in an element format (R44, R47, R48, R130). -/
def elemBits (e : Nat) (md : FpMode) (r : Nat) (v : FVal) : Nat :=
  match fmtOf e with
  | some f => f.encode md r v
  | none =>
    if e = 14 then toE8m0 v
    else
      let w := formatWidth e
      let sg := intFmtSigned e
      wrapNat w (v.toIntSat md.rm r (intLo w sg) (intHi w sg))

/-- convert of Table 5-4. -/
def convertElem (src dst : Nat) (wrap : Bool) (md : FpMode) (r x : Nat) : Nat :=
  if wrap then x % 2 ^ formatWidth dst else elemBits dst md r (elemVal src md x)

/-- VCVT (R129): within each cluster the first n source elements convert, other destination positions are zero. -/
def convertVec (src dst : Nat) (wrap : Bool) (md : FpMode) (step : Nat) (a : Vec) : Vec :=
  let ws := formatWidth src
  let wd := formatWidth dst
  let n := 512 / max ws wd
  ofElems wd (fun j =>
    let c := j / (512 / wd)
    let i := j % (512 / wd)
    if i < n then convertElem src dst wrap md (elemDraw md step wd j) (element ws a (c * (512 / ws) + i)) else 0)

/-- VCVT (R129, R130): takes a rounding mode (R121). -/
def execVcvt (p : BitVec 2) (d : BitVec 4) (a : BitVec 5) (e c : BitVec 4) (m : BitVec 3) (w : BitVec 1) (s : State) : Result :=
  .next (SlotOp.run
    { slot := 1, pred := p, reads := srcRegs a ++ [.m m], pops := srcPops a,
      act := fun s =>
        let md := s.fpMode
        let (k, s) := s.takeStep
        let x := s.vsrc a
        s.resultV 1 (.n 4) d m (convertVec c.toNat e.toNat (w == 1) md k x.1) x.2 } s)

/-! ### Register groups (R131) -/

/-- The registers of a source group. -/
def groupRegs (a : BitVec 5) (n : Nat) : List RegRef :=
  if n ≤ 1 then srcRegs a else (List.range n).map (fun i => .v (BitVec.ofNat 4 (a.toNat + i)))

/-- The bytes of a source group as one number, and its poison. -/
def State.group (s : State) (a : BitVec 5) (n : Nat) : Nat × Bool :=
  if n ≤ 1 then let x := s.vsrc a; (x.1.toNat, x.2)
  else (List.range n).foldr (fun i acc =>
    let r := s.vreg (a.toNat + i)
    (r.1.toNat + acc.1 * 2 ^ 4096, r.2 || acc.2)) (0, false)

/-- A number written to the n registers of a destination group (R134: every register, no mask). -/
def State.resultGroup (s : State) (d : BitVec 4) (val : Nat) (poison : Bool) : Nat → State
  | 0 => s
  | n + 1 => (s.resultGroup d val poison n).resultVAll 1 (.n 7) (d + BitVec.ofNat 4 n) (BitVec.ofNat 4096 (val >>> (4096 * n))) poison

/-! ### Planes, blocks and scales (R38 to R40, R51, R52) -/

/-- The bits p of values, value k at bit k: one plane. -/
def planeBits (p : Nat) : List Nat → Nat
  | [] => 0
  | v :: r => (if v.testBit p then 1 else 0) + 2 * planeBits p r

/-- The VPn image of 512 values (R38): plane p at bit 512p. -/
def planesOf (vals : List Nat) : Nat → Nat
  | 0 => 0
  | p + 1 => planesOf vals p + planeBits p vals * 2 ^ (512 * p)

/-- Element k of a VPn image as a signed number. -/
def planeElem (img n k : Nat) : Int :=
  signedOf n ((List.range n).foldr (fun p acc => (if img.testBit (512 * p + k) then 1 else 0) + 2 * acc) 0 )

/-- The draw of element k of a row (R134): lane k mod 128, draw k / 128. -/
def rowDraw (md : FpMode) (step k : Nat) : Nat := drawOf md step (k % 128) (k / 128)

/-- The largest floor(log2 |x|) of the non-zero finite values of a block; none when there is no such value. -/
def blockMax : List FVal → Option Int
  | [] => none
  | v :: r =>
    match v, blockMax r with
    | .num _ 0 _, x => x
    | .num _ m e, none => some (floorLog2 m e)
    | .num _ m e, some x => some (max (floorLog2 m e) x)
    | _, x => x

/-- Whether a block holds a NaN or an infinity. -/
def blockBad (xs : List FVal) : Bool := xs.any (fun v => v.isNan || v.isInf)

/-- The exponent byte of a BQm block (R51). -/
def bqExp (xs : List FVal) : Nat :=
  if blockBad xs then 255 else match blockMax xs with | none => 0 | some x => (clampInt 0 254 (x + 127)).toNat

/-- The mantissa of an element of a BQm block with exponent E (R51), as an m-bit pattern. -/
def bqMant (md : FpMode) (m E r : Nat) : FVal → Nat
  | .num s k e =>
    if E = 255 then 0
    else wrapNat m (clampInt (-(2 ^ (m - 1))) (2 ^ (m - 1) - 1) (roundToInt md.rm r s k (e - ((E : Int) - 127 - ((m : Int) - 2)))))
  | _ => 0

/-- emax_elem of R51. -/
def elemMax (e : Nat) : Int := if e = 4 then 8 else if e = 3 then 15 else 2

/-- The scale byte of an MX block (R51). -/
def mxScale (e : Nat) (xs : List FVal) : Nat :=
  if blockBad xs then 255 else match blockMax xs with | none => 0 | some x => (clampInt 0 254 (x - elemMax e + 127)).toNat

/-- A value divided by 2^k. -/
def FVal.scale (k : Int) : FVal → FVal
  | .num s m e => .num s m (e + k)
  | v => v

/-- Block j of a row of values. -/
def blockOf (vals : List FVal) (j : Nat) : List FVal := (vals.drop (32 * j)).take 32

/-- The exponent bytes f 0 to f 15 as a number. -/
def scaleBytes (f : Nat → Nat) : Nat := packElems 8 f 16

/-- VEN's encoding of a row of 512 values in a layout (R132): the destination group as one number. intIn says that the input
is an integer format, which saturates and does not round. -/
def venRow (l e : Nat) (md : FpMode) (step : Nat) (vals : List FVal) : Nat :=
  match layKind l with
  | .vp n => planesOf (vals.mapIdx (fun k v => wrapNat n (v.toIntSat md.rm (rowDraw md step k) (-(2 ^ (n - 1))) (2 ^ (n - 1) - 1)))) n
  | .bq m =>
    let exps := (List.range 16).map (fun j => bqExp (blockOf vals j))
    let mants := vals.mapIdx (fun k v => bqMant md m (exps.getD (k / 32) 0) (rowDraw md step k) v)
    planesOf mants m + scaleBytes (fun j => exps.getD j 0) * 2 ^ (4096 * ((m + 7) / 8))
  | .mx =>
    let exps := (List.range 16).map (fun j => mxScale e (blockOf vals j))
    let w := formatWidth e
    let els := vals.mapIdx (fun k v => elemBits e { md with sat := true } (rowDraw md step k) (v.scale (127 - (exps.getD (k / 32) 0 : Nat))))
    els.foldr (fun x acc => x + acc * 2 ^ w) 0 + scaleBytes (fun j => exps.getD j 0) * 2 ^ 4096
  | .none => 0

/-- The value of an MX element with its block's scale (R40). -/
def mxVal (e : Nat) (md : FpMode) (scale x : Nat) : FVal :=
  if scale = 255 then .canon else (elemVal e md x).scale ((scale : Int) - 127)

/-- VEN's input values (Table 5-7): the elements of ef, with MX elements scaled by the bytes of vb, or F32 for MX output. -/
def venVals (l e : Nat) (md : FpMode) (src sc : Nat) : List FVal :=
  let f := if layKind l = .mx then 0 else e
  let w := formatWidth f
  (List.range 512).map (fun k =>
    let x := (src >>> (w * k)) % 2 ^ w
    if formatIsMx f then mxVal f md ((sc >>> (8 * (k / 32))) % 256) x else elemVal f md x)

/-- VEN (R132, R134): takes a rounding mode when its input is floating (R121). -/
def execVen (p : BitVec 2) (d : BitVec 4) (a b : BitVec 5) (e : BitVec 4) (l : BitVec 5) (s : State) : Result :=
  let n := venIn e.toNat l.toNat
  .next (SlotOp.run
    { slot := 1, pred := p, reads := groupRegs a n ++ srcRegs b, pops := (if n ≤ 1 then srcPops a else []) ++ srcPops b,
      act := fun s =>
        let md := s.fpMode
        let (k, s) := if formatIsInt e.toNat then (0, s) else s.takeStep
        let x := s.group a n
        let y := s.vsrc b
        s.resultGroup d (venRow l.toNat e.toNat md k (venVals l.toNat e.toNat md x.1 y.1.toNat)) (x.2 || y.2) (layRegs l.toNat) } s)

/-- VDE's value of element k of a row in a layout (R133). -/
def vdeVal (l e : Nat) (src k : Nat) : FVal :=
  match layKind l with
  | .vp n => FVal.ofInt (planeElem src n k)
  | .bq m =>
    let E := (src >>> (4096 * ((m + 7) / 8) + 8 * (k / 32))) % 256
    if E = 255 then .canon else (FVal.ofInt (planeElem src m k)).scale ((E : Int) - 127 - ((m : Int) - 2))
  | .mx => mxVal e {} ((src >>> (4096 + 8 * (k / 32))) % 256) ((src >>> (formatWidth e * k)) % 2 ^ formatWidth e)
  | .none => .canon

/-- VDE's output row (R133): MX decodes to F32 by RNE. -/
def vdeRow (l e : Nat) (md : FpMode) (step src : Nat) : Nat :=
  let f := if layKind l = .mx then 0 else e
  let md' := if layKind l = .mx then { md with rm := .rne } else md
  packElems (formatWidth f) (fun k => elemBits f md' (rowDraw md step k) (vdeVal l e src k)) 512

/-- VDE (R133, R134): takes a rounding mode when its output is floating (R121). -/
def execVde (p : BitVec 2) (d : BitVec 4) (a : BitVec 5) (e : BitVec 4) (l : BitVec 5) (s : State) : Result :=
  let n := layRegs l.toNat
  .next (SlotOp.run
    { slot := 1, pred := p, reads := groupRegs a n, pops := if n ≤ 1 then srcPops a else [],
      act := fun s =>
        let md := s.fpMode
        let (k, s) := if formatIsInt e.toNat then (0, s) else s.takeStep
        let x := s.group a n
        s.resultGroup d (vdeRow l.toNat e.toNat md k x.1) x.2 (vdeOut e.toNat l.toNat) } s)

end Sys2Proof.Machine
end

