-- ==== Sys2Proof/Machine/Dispatch.lean ====
section
/-! DEFINITION. One arm per constructor of Instr: its meaning. -/

namespace Sys2Proof.Machine

def exec (i : Instr) (s : State) : Host.Outcome State Fault Refusal :=
  match i with
  | .nop => Sys2Proof.Machine.execNop s
  | .header w s1 x t r im l => Sys2Proof.Machine.execHeader w s1 x t r im l s
  | .add p d a b => Sys2Proof.Machine.execAdd p d a b s
  | .sub p d a b => Sys2Proof.Machine.execSub p d a b s
  | .and p d a b => Sys2Proof.Machine.execAnd p d a b s
  | .or p d a b => Sys2Proof.Machine.execOr p d a b s
  | .xor p d a b => Sys2Proof.Machine.execXor p d a b s
  | .andn p d a b => Sys2Proof.Machine.execAndn p d a b s
  | .shl p d a b => Sys2Proof.Machine.execShl p d a b s
  | .shr p d a b => Sys2Proof.Machine.execShr p d a b s
  | .sar p d a b => Sys2Proof.Machine.execSar p d a b s
  | .rol p d a b => Sys2Proof.Machine.execRol p d a b s
  | .min p d a b => Sys2Proof.Machine.execMin p d a b s
  | .max p d a b => Sys2Proof.Machine.execMax p d a b s
  | .minu p d a b => Sys2Proof.Machine.execMinu p d a b s
  | .maxu p d a b => Sys2Proof.Machine.execMaxu p d a b s
  | .mul p d a b => Sys2Proof.Machine.execMul p d a b s
  | .mulh p d a b => Sys2Proof.Machine.execMulh p d a b s
  | .mulhu p d a b => Sys2Proof.Machine.execMulhu p d a b s
  | .div p d a b => Sys2Proof.Machine.execDiv p d a b s
  | .divu p d a b => Sys2Proof.Machine.execDivu p d a b s
  | .rem p d a b => Sys2Proof.Machine.execRem p d a b s
  | .remu p d a b => Sys2Proof.Machine.execRemu p d a b s
  | .adds p d a b => Sys2Proof.Machine.execAdds p d a b s
  | .subs p d a b => Sys2Proof.Machine.execSubs p d a b s
  | .clz p d a => Sys2Proof.Machine.execClz p d a s
  | .ctz p d a => Sys2Proof.Machine.execCtz p d a s
  | .popc p d a => Sys2Proof.Machine.execPopc p d a s
  | .brev p d a => Sys2Proof.Machine.execBrev p d a s
  | .bswap p d a => Sys2Proof.Machine.execBswap p d a s
  | .addi p d a im => Sys2Proof.Machine.execAddi p d a im s
  | .andi p d a im => Sys2Proof.Machine.execAndi p d a im s
  | .ori p d a im => Sys2Proof.Machine.execOri p d a im s
  | .xori p d a im => Sys2Proof.Machine.execXori p d a im s
  | .shli p d a s1 => Sys2Proof.Machine.execShli p d a s1 s
  | .shri p d a s1 => Sys2Proof.Machine.execShri p d a s1 s
  | .sari p d a s1 => Sys2Proof.Machine.execSari p d a s1 s
  | .muli p d a im => Sys2Proof.Machine.execMuli p d a im s
  | .movi p d im => Sys2Proof.Machine.execMovi p d im s
  | .movhi p d im => Sys2Proof.Machine.execMovhi p d im s
  | .leab p d im => Sys2Proof.Machine.execLeab p d im s
  | .bfx p d a l s1 => Sys2Proof.Machine.execBfx p d a l s1 s
  | .bfxu p d a l s1 => Sys2Proof.Machine.execBfxu p d a l s1 s
  | .bfi p d a l s1 => Sys2Proof.Machine.execBfi p d a l s1 s
  | .setp p d c a b k => Sys2Proof.Machine.execSetp p d c a b k s
  | .setpi p d c a k im => Sys2Proof.Machine.execSetpi p d c a k im s
  | .pand p d a b x y => Sys2Proof.Machine.execPand p d a b x y s
  | .por p d a b x y => Sys2Proof.Machine.execPor p d a b x y s
  | .pxor p d a b x y => Sys2Proof.Machine.execPxor p d a b x y s
  | .sel p d a b c v => Sys2Proof.Machine.execSel p d a b c v s
  | .br p v c o => Sys2Proof.Machine.execBr p v c o s
  | .brr p v c a => Sys2Proof.Machine.execBrr p v c a s
  | .call p v c o => Sys2Proof.Machine.execCall p v c o s
  | .callr p v c a => Sys2Proof.Machine.execCallr p v c a s
  | .ret p v c => Sys2Proof.Machine.execRet p v c s
  | .loop p l a n => Sys2Proof.Machine.execLoop p l a n s
  | .loopi p l c n => Sys2Proof.Machine.execLoopi p l c n s
  | .wait p s1 n => Sys2Proof.Machine.execWait p s1 n s
  | .sig p s1 n => Sys2Proof.Machine.execSig p s1 n s
  | .movs p d s1 => Sys2Proof.Machine.execMovs p d s1 s
  | .smov p a s1 => Sys2Proof.Machine.execSmov p a s1 s
  | .park p => Sys2Proof.Machine.execPark p s
  | .yield p n => Sys2Proof.Machine.execYield p n s
  | .arm p n => Sys2Proof.Machine.execArm p n s
  | .sprio p n => Sys2Proof.Machine.execSprio p n s
  | .cstart p d a n => Sys2Proof.Machine.execCstart p d a n s
  | .cstop p d n => Sys2Proof.Machine.execCstop p d n s
  | .ckill p d n => Sys2Proof.Machine.execCkill p d n s
  | .trap p n => Sys2Proof.Machine.execTrap p n s
  | .rett p => Sys2Proof.Machine.execRett p s
  | .ctopen p o => Sys2Proof.Machine.execCtopen p o s
  | .ctclose p => Sys2Proof.Machine.execCtclose p s
  | .segchk p im => Sys2Proof.Machine.execSegchk p im s
  | .acrange p a n => Sys2Proof.Machine.execAcrange p a n s
  | .acread p d a => Sys2Proof.Machine.execAcread p d a s
  | .acreadSnap p d => Sys2Proof.Machine.execAcreadSnap p d s
  | .acreadEl p d h => Sys2Proof.Machine.execAcreadEl p d h s
  | .acloop p d c t k s1 => Sys2Proof.Machine.execAcloop p d c t k s1 s
  | .acclr p => Sys2Proof.Machine.execAcclr p s
  | .launch p d a q => Sys2Proof.Machine.execLaunch p d a q s
  | .qstat p d q => Sys2Proof.Machine.execQstat p d q s
  | .qstatLs p d n => Sys2Proof.Machine.execQstatLs p d n s
  | .qprio p d e n => Sys2Proof.Machine.execQprio p d e n s
  | .qcancel p d q => Sys2Proof.Machine.execQcancel p d q s
  | .bankrel p a => Sys2Proof.Machine.execBankrel p a s
  | .bankrelAcc p a h => Sys2Proof.Machine.execBankrelAcc p a h s
  | .banktst p d s1 => Sys2Proof.Machine.execBanktst p d s1 s
  | .kend p => Sys2Proof.Machine.execKend p s
  | .kseq p d s1 => Sys2Proof.Machine.execKseq p d s1 s
  | .kseqQueue p d a s1 => Sys2Proof.Machine.execKseqQueue p d a s1 s
  | .gid p d n => Sys2Proof.Machine.execGid p d n s
  | .gidReg p d a => Sys2Proof.Machine.execGidReg p d a s
  | .gdim p d n => Sys2Proof.Machine.execGdim p d n s
  | .gdimReg p d a => Sys2Proof.Machine.execGdimReg p d a s
  | .gbase p d n => Sys2Proof.Machine.execGbase p d n s
  | .gbaseReg p d a => Sys2Proof.Machine.execGbaseReg p d a s
  | .gslice p d s1 => Sys2Proof.Machine.execGslice p d s1 s
  | .gsliceWait p a => Sys2Proof.Machine.execGsliceWait p a s
  | .barinit p a l n => Sys2Proof.Machine.execBarinit p a l n s
  | .bararv p d n => Sys2Proof.Machine.execBararv p d n s
  | .bardrop p d n => Sys2Proof.Machine.execBardrop p d n s
  | .barwait p n => Sys2Proof.Machine.execBarwait p n s
  | .bartst p d n => Sys2Proof.Machine.execBartst p d n s
  | .bartstView p d n => Sys2Proof.Machine.execBartstView p d n s
  | .colset p a c f => Sys2Proof.Machine.execColset p a c f s
  | .colget p d s1 => Sys2Proof.Machine.execColget p d s1 s
  | .chopen p c => Sys2Proof.Machine.execChopen p c s
  | .chclose p c => Sys2Proof.Machine.execChclose p c s
  | .chstat p d c => Sys2Proof.Machine.execChstat p d c s
  | .chwin p d c => Sys2Proof.Machine.execChwin p d c s
  | .pgprobe p d a n => Sys2Proof.Machine.execPgprobe p d a n s
  | .pginv p a n => Sys2Proof.Machine.execPginv p a n s
  | .pginvAll p => Sys2Proof.Machine.execPginvAll p s
  | .pgtouch p d a w n => Sys2Proof.Machine.execPgtouch p d a w n s
  | .lkstat p d a w => Sys2Proof.Machine.execLkstat p d a w s
  | .lkpark p d a m => Sys2Proof.Machine.execLkpark p d a m s
  | .lkwake p d a m => Sys2Proof.Machine.execLkwake p d a m s
  | .lkstamp p d a s1 => Sys2Proof.Machine.execLkstamp p d a s1 s
  | .brk p n => Sys2Proof.Machine.execBrk p n s
  | .dbgmark p a n => Sys2Proof.Machine.execDbgmark p a n s
  | .trcon p => Sys2Proof.Machine.execTrcon p s
  | .trcoff p => Sys2Proof.Machine.execTrcoff p s
  | .vadd p d a b m t => Sys2Proof.Machine.execVadd p d a b m t s
  | .vsub p d a b m t => Sys2Proof.Machine.execVsub p d a b m t s
  | .vmul p d a b m t => Sys2Proof.Machine.execVmul p d a b m t s
  | .vmulh p d a b m t => Sys2Proof.Machine.execVmulh p d a b m t s
  | .vmin p d a b m t => Sys2Proof.Machine.execVmin p d a b m t s
  | .vmax p d a b m t => Sys2Proof.Machine.execVmax p d a b m t s
  | .vadds p d a b m t => Sys2Proof.Machine.execVadds p d a b m t s
  | .vsubs p d a b m t => Sys2Proof.Machine.execVsubs p d a b m t s
  | .vabsd p d a b m t => Sys2Proof.Machine.execVabsd p d a b m t s
  | .vand p d a b m t => Sys2Proof.Machine.execVand p d a b m t s
  | .vor p d a b m t => Sys2Proof.Machine.execVor p d a b m t s
  | .vxor p d a b m t => Sys2Proof.Machine.execVxor p d a b m t s
  | .vshl p d a b m t => Sys2Proof.Machine.execVshl p d a b m t s
  | .vshr p d a b m t => Sys2Proof.Machine.execVshr p d a b m t s
  | .vavg p d a b m t => Sys2Proof.Machine.execVavg p d a b m t s
  | .vpopc p d a m t => Sys2Proof.Machine.execVpopc p d a m t s
  | .vaddScalar p d a g m t => Sys2Proof.Machine.execVaddScalar p d a g m t s
  | .vsubScalar p d a g m t => Sys2Proof.Machine.execVsubScalar p d a g m t s
  | .vmulScalar p d a g m t => Sys2Proof.Machine.execVmulScalar p d a g m t s
  | .vmulhScalar p d a g m t => Sys2Proof.Machine.execVmulhScalar p d a g m t s
  | .vminScalar p d a g m t => Sys2Proof.Machine.execVminScalar p d a g m t s
  | .vmaxScalar p d a g m t => Sys2Proof.Machine.execVmaxScalar p d a g m t s
  | .vaddsScalar p d a g m t => Sys2Proof.Machine.execVaddsScalar p d a g m t s
  | .vsubsScalar p d a g m t => Sys2Proof.Machine.execVsubsScalar p d a g m t s
  | .vabsdScalar p d a g m t => Sys2Proof.Machine.execVabsdScalar p d a g m t s
  | .vandScalar p d a g m t => Sys2Proof.Machine.execVandScalar p d a g m t s
  | .vorScalar p d a g m t => Sys2Proof.Machine.execVorScalar p d a g m t s
  | .vxorScalar p d a g m t => Sys2Proof.Machine.execVxorScalar p d a g m t s
  | .vshlScalar p d a g m t => Sys2Proof.Machine.execVshlScalar p d a g m t s
  | .vshrScalar p d a g m t => Sys2Proof.Machine.execVshrScalar p d a g m t s
  | .vavgScalar p d a g m t => Sys2Proof.Machine.execVavgScalar p d a g m t s
  | .vfadd p d a b m t => Sys2Proof.Machine.execVfadd p d a b m t s
  | .vfsub p d a b m t => Sys2Proof.Machine.execVfsub p d a b m t s
  | .vfmul p d a b m t => Sys2Proof.Machine.execVfmul p d a b m t s
  | .vfmin p d a b m t => Sys2Proof.Machine.execVfmin p d a b m t s
  | .vfmax p d a b m t => Sys2Proof.Machine.execVfmax p d a b m t s
  | .vfabs p d a m t => Sys2Proof.Machine.execVfabs p d a m t s
  | .vfneg p d a m t => Sys2Proof.Machine.execVfneg p d a m t s
  | .vexp2 p d a m t => Sys2Proof.Machine.execVexp2 p d a m t s
  | .vlog2 p d a m t => Sys2Proof.Machine.execVlog2 p d a m t s
  | .vrcp p d a m t => Sys2Proof.Machine.execVrcp p d a m t s
  | .vrsqrt p d a m t => Sys2Proof.Machine.execVrsqrt p d a m t s
  | .vfrint p d a m t => Sys2Proof.Machine.execVfrint p d a m t s
  | .vfaddScalar p d a g m t => Sys2Proof.Machine.execVfaddScalar p d a g m t s
  | .vfsubScalar p d a g m t => Sys2Proof.Machine.execVfsubScalar p d a g m t s
  | .vfmulScalar p d a g m t => Sys2Proof.Machine.execVfmulScalar p d a g m t s
  | .vfminScalar p d a g m t => Sys2Proof.Machine.execVfminScalar p d a g m t s
  | .vfmaxScalar p d a g m t => Sys2Proof.Machine.execVfmaxScalar p d a g m t s
  | .vfma p d a b c m t => Sys2Proof.Machine.execVfma p d a b c m t s
  | .vfms p d a b c m t => Sys2Proof.Machine.execVfms p d a b c m t s
  | .vfnma p d a b c m t => Sys2Proof.Machine.execVfnma p d a b c m t s
  | .vcmp p d a b m t c => Sys2Proof.Machine.execVcmp p d a b m t c s
  | .vfcmp p d a b m t c => Sys2Proof.Machine.execVfcmp p d a b m t c s
  | .mand p d a b => Sys2Proof.Machine.execMand p d a b s
  | .mor p d a b => Sys2Proof.Machine.execMor p d a b s
  | .mxor p d a b => Sys2Proof.Machine.execMxor p d a b s
  | .mandn p d a b => Sys2Proof.Machine.execMandn p d a b s
  | .vsel p d a b m => Sys2Proof.Machine.execVsel p d a b m s
  | .vcvt p d a e s1 m w => Sys2Proof.Machine.execVcvt p d a e s1 m w s
  | .ven p d a b e l => Sys2Proof.Machine.execVen p d a b e l s
  | .vde p d a e l => Sys2Proof.Machine.execVde p d a e l s
  | .vrsum p d a m t => Sys2Proof.Machine.execVrsum p d a m t s
  | .vrmax p d a m t => Sys2Proof.Machine.execVrmax p d a m t s
  | .vrmin p d a m t => Sys2Proof.Machine.execVrmin p d a m t s
  | .vscan p d a m t => Sys2Proof.Machine.execVscan p d a m t s
  | .vperm p d a b m => Sys2Proof.Machine.execVperm p d a b m s
  | .vrot p d a k m => Sys2Proof.Machine.execVrot p d a k m s
  | .vbcl p d a k m => Sys2Proof.Machine.execVbcl p d a k m s
  | .vxcopy p d a t k m => Sys2Proof.Machine.execVxcopy p d a t k m s
  | .vmovi p d m im => Sys2Proof.Machine.execVmovi p d m im s
  | .vmovh p d m im => Sys2Proof.Machine.execVmovh p d m im s
  | .vget p a g l => Sys2Proof.Machine.execVget p a g l s
  | .vput p d a g l => Sys2Proof.Machine.execVput p d a g l s
  | .vbcg p d g => Sys2Proof.Machine.execVbcg p d g s
  | .ld p d b z x o => Sys2Proof.Machine.execLd p d b z x o s
  | .st p g b z o => Sys2Proof.Machine.execSt p g b z o s
  | .ald p d b o => Sys2Proof.Machine.execAld p d b o s
  | .ast p g b o => Sys2Proof.Machine.execAst p g b o s
  | .vld p v b o => Sys2Proof.Machine.execVld p v b o s
  | .vst p v b o => Sys2Proof.Machine.execVst p v b o s
  | .avld p v b o => Sys2Proof.Machine.execAvld p v b o s
  | .avst p v b m o => Sys2Proof.Machine.execAvst p v b m o s
  | .amo p d a b f => Sys2Proof.Machine.execAmo p d a b f s
  | .wld p v b o => Sys2Proof.Machine.execWld p v b o s
  | .wst p v b o => Sys2Proof.Machine.execWst p v b o s
  | .fcfg p f a o => Sys2Proof.Machine.execFcfg p f a o s
  | .fcfgRb p f a o => Sys2Proof.Machine.execFcfgRb p f a o s
  | .ocfg p o a im => Sys2Proof.Machine.execOcfg p o a im s
  | .opush p o s1 => Sys2Proof.Machine.execOpush p o s1 s
  | .popq p d g q => Sys2Proof.Machine.execPopq p d g q s
  | .popqFlag p d g q r => Sys2Proof.Machine.execPopqFlag p d g q r s
  | .rst p h a s1 c o => Sys2Proof.Machine.execRst p h a s1 c o s
  | .radd p h a s1 w c o k => Sys2Proof.Machine.execRadd p h a s1 w c o k s
  | .rget p h a b c o l => Sys2Proof.Machine.execRget p h a b c o l s
  | .ramo p h a b c o f => Sys2Proof.Machine.execRamo p h a b c o f s
  | .drain p c => Sys2Proof.Machine.execDrain p c s
  | .fence p c => Sys2Proof.Machine.execFence p c s
  | .chsend p n s1 o c => Sys2Proof.Machine.execChsend p n s1 o c s
  | .chrecv p n d => Sys2Proof.Machine.execChrecv p n d s
  | .chrecvFlag p n d r => Sys2Proof.Machine.execChrecvFlag p n d r s
  | .hmsg p h a b l => Sys2Proof.Machine.execHmsg p h a b l s
  | .hset p h t a => Sys2Proof.Machine.execHset p h t a s
  | .hget p d h t => Sys2Proof.Machine.execHget p d h t s
  | .hadd p h a => Sys2Proof.Machine.execHadd p h a s
  | .parset p x t a => Sys2Proof.Machine.execParset p x t a s
  | .parget p d x t => Sys2Proof.Machine.execParget p d x t s
  | .mcall p d r im => Sys2Proof.Machine.execMcall p d r im s
  | .rowrunSmax p d r a => Sys2Proof.Machine.execRowrunSmax p d r a s
  | .rowrunNorm p d r a => Sys2Proof.Machine.execRowrunNorm p d r a s
  | .cpy p d r a => Sys2Proof.Machine.execCpy p d r a s
  | .cpyx p d r a => Sys2Proof.Machine.execCpyx p d r a s
  | .cpyf p d r a => Sys2Proof.Machine.execCpyf p d r a s
  | .dset p d g => Sys2Proof.Machine.execDset p d g s
  | .dget p d g => Sys2Proof.Machine.execDget p d g s
  | .ecancel p e => Sys2Proof.Machine.execEcancel p e s
  | .excset p e g => Sys2Proof.Machine.execExcset p e g s
  | .excget p e g => Sys2Proof.Machine.execExcget p e g s
  | .eqstat p e g => Sys2Proof.Machine.execEqstat p e g s
  | .reservedEncoding slot word kind => Sys2Proof.Machine.execReservedEncoding slot word kind s
  | .routineEnd c => Sys2Proof.Machine.execRoutineEnd c s
  | .loadw c memsel pa off wl sp dw nc => Sys2Proof.Machine.execLoadw c memsel pa off wl sp dw nc s
  | .stream c df pa po ol cnt cx os xo sb => Sys2Proof.Machine.execStream c df pa po ol cnt cx os xo sb s
  | .routineDrain c pd dt scale => Sys2Proof.Machine.execRoutineDrain c pd dt scale s
  | .routineLoop c cnt cx => Sys2Proof.Machine.execRoutineLoop c cnt cx s
  | .endloop c e1 p1 inc1 e2 p2 inc2 => Sys2Proof.Machine.execEndloop c e1 p1 inc1 e2 p2 inc2 s
  | .accmode c add ce col => Sys2Proof.Machine.execAccmode c add ce col s
  | .sync c sv sem qe mark => Sys2Proof.Machine.execSync c sv sem qe mark s
  | .seatTake c seat => Sys2Proof.Machine.execSeatTake c seat s
  | .displacement c => Sys2Proof.Machine.execDisplacement c s
  | .contextReady c tag => Sys2Proof.Machine.execContextReady c tag s
  | .yieldDeadline c tag => Sys2Proof.Machine.execYieldDeadline c tag s
  | .swapRequest c out incoming => Sys2Proof.Machine.execSwapRequest c out incoming s
  | .stagingEnd c => Sys2Proof.Machine.execStagingEnd c s
  | .swapDecision c => Sys2Proof.Machine.execSwapDecision c s
  | .swapIn c => Sys2Proof.Machine.execSwapIn c s
  | .spillDone c => Sys2Proof.Machine.execSpillDone c s
  | .handlerStart c => Sys2Proof.Machine.execHandlerStart c s
  | .deferredTrap c tag => Sys2Proof.Machine.execDeferredTrap c tag s
  | .containmentRecovery c tag => Sys2Proof.Machine.execContainmentRecovery c tag s
  | .kill c tag => Sys2Proof.Machine.execKill c tag s
  | .killDone c tag => Sys2Proof.Machine.execKillDone c tag s
  | .weightStoreRefresh c bank => Sys2Proof.Machine.execWeightStoreRefresh c bank s
  | .matrixCommandStart c => Sys2Proof.Machine.execMatrixCommandStart c s
  | .leaveGrant r => Sys2Proof.Machine.execLeaveGrant r s
  | .leaveTimeout c => Sys2Proof.Machine.execLeaveTimeout c s
  | .routineSave c => Sys2Proof.Machine.execRoutineSave c s
  | .routineResume c => Sys2Proof.Machine.execRoutineResume c s
  | .rowCommandStart c => Sys2Proof.Machine.execRowCommandStart c s
  | .rowCommandComplete c => Sys2Proof.Machine.execRowCommandComplete c s
  | .copyCommandStart c => Sys2Proof.Machine.execCopyCommandStart c s
  | .copyCommandComplete c => Sys2Proof.Machine.execCopyCommandComplete c s
  | .engineCommandFault c e => Sys2Proof.Machine.execEngineCommandFault c e s
  | .engineWatchdog c e => Sys2Proof.Machine.execEngineWatchdog c e s
  | .rqOverflow c tag => Sys2Proof.Machine.execRqOverflow c tag s
  | .feedRead c tag f => Sys2Proof.Machine.execFeedRead c tag f s
  | .outletWrite c tag o => Sys2Proof.Machine.execOutletWrite c tag o s
  | .networkInjection c => Sys2Proof.Machine.execNetworkInjection c s
  | .remoteOperationArrival n => Sys2Proof.Machine.execRemoteOperationArrival n s
  | .remoteResultArrival n => Sys2Proof.Machine.execRemoteResultArrival n s
  | .releaseSend c serial => Sys2Proof.Machine.execReleaseSend c serial s
  | .acquirePerformed c tag => Sys2Proof.Machine.execAcquirePerformed c tag s
  | .holdNotice n => Sys2Proof.Machine.execHoldNotice n s
  | .resumeNotice n => Sys2Proof.Machine.execResumeNotice n s
  | .hostMemoryWrite link addr len data => Sys2Proof.Machine.execHostMemoryWrite link addr len data s
  | .channelMessageArrival n => Sys2Proof.Machine.execChannelMessageArrival n s
  | .channelGrantArrival n => Sys2Proof.Machine.execChannelGrantArrival n s
  | .creditReturnArrival n => Sys2Proof.Machine.execCreditReturnArrival n s
  | .channelOpenNotice n => Sys2Proof.Machine.execChannelOpenNotice n s
  | .channelCloseNotice n => Sys2Proof.Machine.execChannelCloseNotice n s
  | .channelRevoke n => Sys2Proof.Machine.execChannelRevoke n s
  | .channelItemResend n => Sys2Proof.Machine.execChannelItemResend n s
  | .peerLost c kernel ch => Sys2Proof.Machine.execPeerLost c kernel ch s
  | .hmsgArrival n => Sys2Proof.Machine.execHmsgArrival n s
  | .barrierRequestSend c tag => Sys2Proof.Machine.execBarrierRequestSend c tag s
  | .barrierRequestApply c => Sys2Proof.Machine.execBarrierRequestApply c s
  | .barrierVerdictArrival n => Sys2Proof.Machine.execBarrierVerdictArrival n s
  | .barrierNoticeArrival n => Sys2Proof.Machine.execBarrierNoticeArrival n s
  | .lqOpen q value secureFn => Sys2Proof.Machine.execLqOpen q value secureFn s
  | .lqStop q value secureFn => Sys2Proof.Machine.execLqStop q value secureFn s
  | .lqFlush q value secureFn => Sys2Proof.Machine.execLqFlush q value secureFn s
  | .lqtailWrite q value secureFn => Sys2Proof.Machine.execLqtailWrite q value secureFn s
  | .lsvWrite n value => Sys2Proof.Machine.execLsvWrite n value s
  | .abort high => Sys2Proof.Machine.execAbort high s
  | .abortGraceExpiry kernel => Sys2Proof.Machine.execAbortGraceExpiry kernel s
  | .hstatRead => Sys2Proof.Machine.execHstatRead s
  | .dispatch q => Sys2Proof.Machine.execDispatch q s
  | .conditionReadPerformed q => Sys2Proof.Machine.execConditionReadPerformed q s
  | .contextLaunchStart c kernel => Sys2Proof.Machine.execContextLaunchStart c kernel s
  | .kernelComplete kernel => Sys2Proof.Machine.execKernelComplete kernel s
  | .completionEntryWrite q => Sys2Proof.Machine.execCompletionEntryWrite q s
  | .hostLinkDown link => Sys2Proof.Machine.execHostLinkDown link s
  | .hostTimeout => Sys2Proof.Machine.execHostTimeout s
  | .imageLoad file secureFn => Sys2Proof.Machine.execImageLoad file secureFn s
  | .imageUnload handle => Sys2Proof.Machine.execImageUnload handle s
  | .unitZeroingDone c unit => Sys2Proof.Machine.execUnitZeroingDone c unit s
  | .gangStart kernel => Sys2Proof.Machine.execGangStart kernel s
  | .startNoticeArrival gang wafer => Sys2Proof.Machine.execStartNoticeArrival gang wafer s
  | .abandonNoticeArrival gang wafer => Sys2Proof.Machine.execAbandonNoticeArrival gang wafer s
  | .gangDeadline kernel => Sys2Proof.Machine.execGangDeadline kernel s
  | .pageWalk n => Sys2Proof.Machine.execPageWalk n s
  | .tlbShootdown value => Sys2Proof.Machine.execTlbShootdown value s
  | .shootdownComplete => Sys2Proof.Machine.execShootdownComplete s
  | .migcmdMigrate => Sys2Proof.Machine.execMigcmdMigrate s
  | .migcmdRetire => Sys2Proof.Machine.execMigcmdRetire s
  | .ceThresholdMigration c => Sys2Proof.Machine.execCeThresholdMigration c s
  | .wsRefreshMiss c => Sys2Proof.Machine.execWsRefreshMiss c s
  | .migrationCopy => Sys2Proof.Machine.execMigrationCopy s
  | .migrationCheck equal => Sys2Proof.Machine.execMigrationCheck equal s
  | .migrationRewrite => Sys2Proof.Machine.execMigrationRewrite s
  | .migrationResume => Sys2Proof.Machine.execMigrationResume s
  | .spareFailure => Sys2Proof.Machine.execSpareFailure s
  | .quiesceTimeout => Sys2Proof.Machine.execQuiesceTimeout s
  | .scrubBeat c sram => Sys2Proof.Machine.execScrubBeat c sram s
  | .scrubLate c sram => Sys2Proof.Machine.execScrubLate c sram s
  | .tworldWrite value => Sys2Proof.Machine.execTworldWrite value s
  | .wssecWrite value => Sys2Proof.Machine.execWssecWrite value s
  | .worldChange c => Sys2Proof.Machine.execWorldChange c s
  | .cecountRead => Sys2Proof.Machine.execCecountRead s
  | .resetRelease => Sys2Proof.Machine.execResetRelease s
  | .selfTestEnd r ok failed => Sys2Proof.Machine.execSelfTestEnd r ok failed s
  | .probeEnd r => Sys2Proof.Machine.execProbeEnd r s
  | .probeMessage r side msg => Sys2Proof.Machine.execProbeMessage r side msg s
  | .probeAck r side msg => Sys2Proof.Machine.execProbeAck r side msg s
  | .electMessage r side msg => Sys2Proof.Machine.execElectMessage r side msg s
  | .roundTimer r => Sys2Proof.Machine.execRoundTimer r s
  | .leaderMessage r side msg => Sys2Proof.Machine.execLeaderMessage r side msg s
  | .leaderHeartbeat r => Sys2Proof.Machine.execLeaderHeartbeat r s
  | .heartbeatTimeout r => Sys2Proof.Machine.execHeartbeatTimeout r s
  | .reportMessage r side msg => Sys2Proof.Machine.execReportMessage r side msg s
  | .claimPost r => Sys2Proof.Machine.execClaimPost r s
  | .claimWindowEnd r => Sys2Proof.Machine.execClaimWindowEnd r s
  | .mapMessage r side msg => Sys2Proof.Machine.execMapMessage r side msg s
  | .excludeMessage r side msg => Sys2Proof.Machine.execExcludeMessage r side msg s
  | .clockMessage r side msg => Sys2Proof.Machine.execClockMessage r side msg s
  | .startMessage r side msg => Sys2Proof.Machine.execStartMessage r side msg s
  | .pllLock r => Sys2Proof.Machine.execPllLock r s
  | .pllLockTimeout r => Sys2Proof.Machine.execPllLockTimeout r s
  | .referenceFailure r => Sys2Proof.Machine.execReferenceFailure r s
  | .parentSelection r => Sys2Proof.Machine.execParentSelection r s
  | .slewLocked r => Sys2Proof.Machine.execSlewLocked r s
  | .holdLimit r => Sys2Proof.Machine.execHoldLimit r s
  | .cycleCorrection r => Sys2Proof.Machine.execCycleCorrection r s
  | .avsCalibrationDone r ok => Sys2Proof.Machine.execAvsCalibrationDone r ok s
  | .frequencySwitch => Sys2Proof.Machine.execFrequencySwitch s
  | .recruise died => Sys2Proof.Machine.execRecruise died s
  | .wcmdFullCruise => Sys2Proof.Machine.execWcmdFullCruise s
  | .wcmdRecruise => Sys2Proof.Machine.execWcmdRecruise s
  | .powerGrain r mean groups monitorsPass tempOver => Sys2Proof.Machine.execPowerGrain r mean groups monitorsPass tempOver s
  | .pwrDroop r mv => Sys2Proof.Machine.execPwrDroop r mv s
  | .rcrackWrite value => Sys2Proof.Machine.execRcrackWrite value s
  | .rpeakRead => Sys2Proof.Machine.execRpeakRead s
  | .rcauseRead => Sys2Proof.Machine.execRcauseRead s
  | .linkTrain port secureFn => Sys2Proof.Machine.execLinkTrain port secureFn s
  | .linkDarken port secureFn => Sys2Proof.Machine.execLinkDarken port secureFn s
  | .lkwcmdWake port mask secureFn => Sys2Proof.Machine.execLkwcmdWake port mask secureFn s
  | .lkwcmdPark port mask secureFn => Sys2Proof.Machine.execLkwcmdPark port mask secureFn s
  | .lkwaferWrite value => Sys2Proof.Machine.execLkwaferWrite value s
  | .lkwhyRead port secureFn => Sys2Proof.Machine.execLkwhyRead port secureFn s
  | .lkrplRead port secureFn => Sys2Proof.Machine.execLkrplRead port secureFn s
  | .flitIdle port flit lost => Sys2Proof.Machine.execFlitIdle port flit lost s
  | .flitData port flit lost => Sys2Proof.Machine.execFlitData port flit lost s
  | .flitNak port flit lost => Sys2Proof.Machine.execFlitNak port flit lost s
  | .flitRestripe port flit lost => Sys2Proof.Machine.execFlitRestripe port flit lost s
  | .flitPark port flit lost => Sys2Proof.Machine.execFlitPark port flit lost s
  | .flitWake port flit lost => Sys2Proof.Machine.execFlitWake port flit lost s
  | .flitStamp port flit lost => Sys2Proof.Machine.execFlitStamp port flit lost s
  | .flitNotice port flit lost => Sys2Proof.Machine.execFlitNotice port flit lost s
  | .flitIdent port flit lost => Sys2Proof.Machine.execFlitIdent port flit lost s
  | .flitPause port flit lost => Sys2Proof.Machine.execFlitPause port flit lost s
  | .flitUnpause port flit lost => Sys2Proof.Machine.execFlitUnpause port flit lost s
  | .wavelengthLit port w => Sys2Proof.Machine.execWavelengthLit port w s
  | .wavelengthWakeTimeout port w => Sys2Proof.Machine.execWavelengthWakeTimeout port w s
  | .wavelengthFault port w signalLost => Sys2Proof.Machine.execWavelengthFault port w signalLost s
  | .replayTimeout port => Sys2Proof.Machine.execReplayTimeout port s
  | .nakRepeat port => Sys2Proof.Machine.execNakRepeat port s
  | .lkrpltoExpiry port => Sys2Proof.Machine.execLkrpltoExpiry port s
  | .linkSilent port => Sys2Proof.Machine.execLinkSilent port s
  | .trainingEnd port => Sys2Proof.Machine.execTrainingEnd port s
  | .stampSend port => Sys2Proof.Machine.execStampSend port s
  | .timeStep => Sys2Proof.Machine.execTimeStep s
  | .linkPolicyPark port => Sys2Proof.Machine.execLinkPolicyPark port s
  | .linkPolicyWake port => Sys2Proof.Machine.execLinkPolicyWake port s
  | .dctlHalt trapReq secureFn => Sys2Proof.Machine.execDctlHalt trapReq secureFn s
  | .dctlResume secureFn => Sys2Proof.Machine.execDctlResume secureFn s
  | .dctlStep trapReq secureFn => Sys2Proof.Machine.execDctlStep trapReq secureFn s
  | .achcmdSnapshot secureFn => Sys2Proof.Machine.execAchcmdSnapshot secureFn s
  | .achcmdClear secureFn => Sys2Proof.Machine.execAchcmdClear secureFn s
  | .tctlWrite value secureFn => Sys2Proof.Machine.execTctlWrite value secureFn s
  | .pairctlWrite value secureFn => Sys2Proof.Machine.execPairctlWrite value secureFn s
  | .pairBeatArrival n => Sys2Proof.Machine.execPairBeatArrival n s
  | .pairTimeout n => Sys2Proof.Machine.execPairTimeout n s
  | .registerWrite offset value secureFn => Sys2Proof.Machine.execRegisterWrite offset value secureFn s
  | .tileClockCycle => Sys2Proof.Machine.execTileClockCycle s
  | .wavelengthGrain port w bias power corrected uncorrected tapsUp tapsDown => Sys2Proof.Machine.execWavelengthGrain port w bias power corrected uncorrected tapsUp tapsDown s
  | .reducedServiceEnd => Sys2Proof.Machine.execReducedServiceEnd s

end Sys2Proof.Machine
end

