-- ==== Sys2Proof/Machine/Fetch.lean ====
section
/-! DEFINITION. Fetching the bundle at a context's PC and attempting it (R61, R62, R275): one slot with an instruction runs by exec alone,
several run by exec in the three passes of an attempt; host steps (R502, R503). -/

namespace Sys2Proof.Machine

/-- The bundle at the PC of the context in focus (R62). No PC lies beyond its window, which every transfer and every next PC are checked
against; what would stand there is a NOP bundle, at which the trap of the window's end is taken. -/
def State.fetched (s : State) : Bundle := (s.program.bind (fun p => p.bundles[s.ctx.flow.pc.toNat / 16]?)).getD 0

/-- Whether a word of that bundle has an uncorrectable error (R275, R286). -/
def State.fetchBad (s : State) : Bool :=
  match s.wafer.imageOf s.ctx.life.kernel with
  | some i => s.tile.mem.istoreBad.contains (i.handle, s.ctx.flow.pc.toNat / 16)
  | none => false

/-- Whether a trap or a recovery comes before the attempt (R275 step 1, R290, R503). -/
def State.trapsFirst (s : State) : Bool :=
  (!s.ctx.sys.inHandler && (s.ctx.life.deferred.isSome || s.ctx.life.recovery)) || s.ctx.dbg.stepTrap

/-- The slots of a bundle that an attempt runs, with their instructions: those that hold a word and that DONEMASK does not skip (R63, R502). -/
def liveSlots (b : Bundle) (done : BitVec 4) : List (Fin 4 × Instr) :=
  (List.zip (List.finRange 4) (decodeBundle b)).filter (fun x => slotWord b x.1 != 0 && !done.toNat.testBit x.1.val)

/-- One slot's instruction in the phase at hand. -/
def runSlot (s : State) (x : Fin 4 × Instr) : State := match exec x.2 s with | .next s' => s' | _ => s

/-- The passes of an attempt over several slots. In the commit a store follows the other slots' reads (R236), so slots commit in the order 0, 1,
3, 2; of two origins of poison in one bundle POISONREC keeps the first in that order: DESIGN CHOICE, unsafe (log 151). -/
def passesOf (l : List (Fin 4 × Instr)) : Passes :=
  { gather := fun s => l.foldl runSlot s,
    commit := fun s => (l.filter (fun x => x.1 != 2) ++ l.filter (fun x => x.1 == 2)).foldl runSlot s,
    late := fun s => l.foldl runSlot s }

/-- A fetch that corrects an error counts it (R445); the spec does not say how often a bundle is fetched, and the model counts one for each
attempt: DESIGN CHOICE, unsafe, log 174. -/
def State.countFetch (s : State) : State :=
  match s.wafer.imageOf s.ctx.life.kernel with
  | some i =>
    if s.tile.mem.istoreWeak.contains (i.handle, s.ctx.flow.pc.toNat / 16) then s.modTile (fun t => { t with life := t.life.corrected 1 }) else s
  | none => s

/-- The state in which a bundle is attempted: its words, and its header for the predicates of slots 1 to 3 (R65, R67). -/
def State.prepared (s : State) (b : Bundle) : State :=
  { s.countFetch with issue := { header := if hasHeader b then slotWord b 0 else 0, words := b } }

/-- One issue attempt of a bundle by the context in focus (R275). -/
def State.attemptBundle (s0 : State) (b : Bundle) : Result :=
  let s := s0.prepared b
  if s.fetchBad ∧ !s.trapsFirst then .next (s.trapHere 0x06 0).clearIssue
  else match liveSlots b s.ctx.doneSlots with
    | [] => exec .nop s
    | [x] => exec x.2 s
    | l => .next (s.attempt (passesOf l))

/-! ### Host steps (R501 to R503) -/

/-- The bits of the slots of a bundle that hold no word or a header. -/
def zeroSlots (b : Bundle) : BitVec 4 :=
  (List.finRange 4).foldl (fun m k => if slotWord b k = 0 ∨ (k = 0 ∧ hasHeader b) then m ||| BitVec.ofNat 4 (2 ^ k.val) else m) 0

/-- A slot run by a host step, kept for charging, with its trace record. -/
def State.logStep (s : State) (k : Fin 4) : State :=
  let on := s.issue.uses[k] != .off
  let pc := pcIndex s.ctx.flow.pc
  (s.modCore (fun c => { c with log := { c.log with stepped := some (s.tag, k.val, on, pc) } })).trace s.tag 6 0 k.val 0 pc

/-- The attempt of a host step (R503): the first slot left that holds an instruction runs alone, with the header where no slot is done
yet. A bundle with no such slot issues whole. -/
def State.stepSlot (s0 : State) (b : Bundle) : State :=
  let s := s0.prepared b
  let done := s.ctx.doneSlots
  let l := liveSlots b done
  if s.trapsFirst then s.attempt (passesOf l)
  else if s.fetchBad then (s.trapHere 0x06 0).clearIssue
  else match l.find? (fun x => !(x.1 == 0 && hasHeader b)) with
    | none => s.tryBundle (passesOf l) true State.issued
    | some x =>
      let run := l.filter (fun y => y.1 == x.1 || (y.1 == 0 && hasHeader b))
      let all := done ||| zeroSlots b ||| BitVec.ofNat 4 (2 ^ x.1.val)
      let last := all == 15
      s.tryBundle (passesOf run) last (fun s => let s := s.logStep x.1; if last then s.issued else s.stepped all)

/-- Whether the context in focus has run a slot, or issued a bundle, in this cycle. -/
def State.ranSlot (s : State) : Bool := s.tile.core.log.stepped.isSome || s.tile.core.log.issued.any (·.tag == s.tag)

/-- One step attempt of a held context: it is held again with reason 4, or takes 0xBC at its next attempt; one that runs no slot
leaves the hold as it was. -/
def State.stepAttempt (s0 : State) (b : Bundle) (req : Bool) : State :=
  let old := s0.ctx.dbg
  let tag := s0.tag
  let s := s0.modCtx (fun c => { c with dbg := { c.dbg with held := false, step := none } })
  let s := s.modCore (fun c => { c with log := { c.log with stepping := c.log.stepping ++ [tag] } })
  let s := s.stepSlot b
  if s.ctx.dbg.held ∨ s.ctx.life.st = .empty then s
  else if !s.ranSlot then s.modCtx (fun c => { c with dbg := { c.dbg with held := true, reason := old.reason, watch := old.watch } })
  else if req then s.modCtx (fun c => { c with dbg := { c.dbg with stepTrap := true } })
  else s.hold tag 4 0

/-! ### The attempts of a cycle (R255, R275) -/

/-- Whether a seated context is past its bubble and its trap entry and its tile lets it issue; held contexts attempt only a step. -/
def State.mayTry (s : State) (st : Seat) : Bool :=
  let c := s.tile.ctx st.tag
  decide (st.since + 2 ≤ s.now) && c.life.st == .issuing && decide (c.life.resumeAt ≤ s.now)
    && (s.tile.life.st == .live || s.tile.life.st == .quiesced) && !s.tile.core.log.scrub && !s.withheld s.tile
    && (!c.dbg.held || c.dbg.step.isSome)

/-- The seats put in order for a cycle (R255), seat 0 noted for charging, and the cycle given to a late scrub pass that takes it (R444). -/
def State.takeSeats (s : State) : State :=
  let s := s.modTile Tile.orderSeats
  let zero := s.tile.core.seats[0]
  let bubble := match zero with | some st => decide (s.now < st.since + 2) | none => false
  let scrub := s.scrubTakes
  s.modCore (fun c => { c with log := { c.log with seatZero := zero.map (·.tag), bubbleZero := bubble, scrub := scrub } })

/-- The seat whose context makes a host step in this cycle: no other seat issues then (R501). -/
def State.stepSeat (s : State) : Option (Fin 2) :=
  (List.finRange 2).find? (fun k => match s.tile.core.seats[k] with
    | some st => s.mayTry st && (s.tile.ctx st.tag).dbg.step.isSome
    | none => false)

/-- The attempt of a seat in this cycle. -/
def State.trySeat (s : State) (seat : Fin 2) : Result :=
  match s.tile.core.seats[seat] with
  | none => .next s
  | some st =>
    if !s.mayTry st ∨ !s.tile.core.log.stepping.isEmpty ∨ s.stepSeat.any (fun k => k != seat) then .next s
    else
      let s := s.focusTag st.tag
      match s.ctx.dbg.step with
      | some req => .next (s.stepAttempt s.fetched req)
      | none => s.attemptBundle s.fetched

/-- The turn of a seat: its attempt; where a swap waits for its context and the attempt issues nothing, the swap's decision takes its place (R262,
R265, R281). -/
def State.seatTurn (s : State) (seat : Fin 2) : Result :=
  let out : Option Tag := match s.tile.core.seats[seat] with | some st => s.swapSeated.filter (fun k => k == st.tag) | none => none
  match s.trySeat seat, out with
  | .next s', some k => if s'.tile.core.log.issued.any (·.tag == k) then .next s' else execSwapDecision s.tile.at' s
  | r, _ => r

/-! ### Placing one instruction -/

/-- The slot in which decodeTableWord reads a word. -/
def tableSlot (w : BitVec 32) : Fin 4 :=
  match decodeSlot 0 w, decodeSlot 1 w, decodeSlot 2 w, decodeSlot 3 w with
  | .ok _, _, _, _ => 0
  | _, .ok _, _, _ => 1
  | _, _, .ok _, _ => 2
  | _, _, _, .ok _ => 3
  | _, _, _, _ => 0

/-- A bundle that holds one word in a slot. -/
def bundleWith (w : BitVec 32) (k : Fin 4) : Bundle := (w.setWidth 128) <<< (32 * k.val)

/-- A bundle placed where the next step fetches: a program of four bundles in an image and a kernel of its own (handle 0 and sequence
number 0, which nothing else takes), on the tile in focus, whose context 0 holds seat 0 past its bubble and is about to attempt it, in a cycle
whose issue no power controller withholds. -/
def State.placeBundle (s : State) (b : Bundle) : State :=
  let c := s.tile.at'
  let prog : Program := { xa := c.x, ya := c.y, xb := c.x, yb := c.y, bundles := [b, 0, 0, 0] }
  let image : Image := { handle := 0, programs := [prog] }
  let units := (List.range 80).map (fun u => (u, UnitState.held))
  let ctx : Context := { life := { st := .issuing, num := some 0 } }
  let first := max s.now (max 2 s.wafer.cruise.holdUntil)
  let now := if first % 4 = 0 then first + 1 else first
  { s with
    now := now, tag := 0, agenda := [.attempt c 0],
    wafer := { s.wafer with images := image :: s.wafer.images, kernels := { seq := 0, image := 0 } :: s.wafer.kernels },
    tile := { s.tile with
      life := { s.tile.life with st := .live },
      ctxs := s.tile.ctxs.set 0 ctx,
      kernels := { kernel := 0, units := units, started := true } :: s.tile.kernels,
      core := { s.tile.core with seats := (s.tile.core.seats.set 0 (some { tag := 0, since := 0 })).set 1 none, log := {} } } }

end Sys2Proof.Machine
end

