-- ==== Sys2Proof/Machine/Schedule.lean ====
section
/-! DEFINITION. What the machine does next: the due steps of its timers, the order of a tile clock cycle's work, the work of a tile's
engines, and the passing of time while no tile runs. -/

namespace Sys2Proof.Machine

/-! ### The steps of the machine by name -/

/-- A message that is due, by what it carries (R26). -/
def State.deliver (s : State) (n : Nat) : Result :=
  match s.wafer.net.find? (fun m => m.serial == n) with
  | none => .next s
  | some m =>
    match m.body with
    | .op _ => execRemoteOperationArrival n s
    | .unit .. => execRemoteResultArrival n s
    | .done .. => execRemoteResultArrival n s
    | .chanMsg _ => execChannelMessageArrival n s
    | .grant .. => execChannelGrantArrival n s
    | .credit .. => execCreditReturnArrival n s
    | .openNotice .. => execChannelOpenNotice n s
    | .closeNotice .. => execChannelCloseNotice n s
    | .revoke .. => execChannelRevoke n s
    | .farTurn .. => .next (s.farTurn n)
    | .hmsg _ => execHmsgArrival n s
    | .barRequest _ => execBarrierRequestApply m.dst s
    | .verdict .. => execBarrierVerdictArrival n s
    | .barNotice .. => execBarrierNoticeArrival n s
    | .hold .. => execHoldNotice n s
    | .resume _ => execResumeNotice n s

/-- A management message that reaches a reticle, by its type (Table 20-3). A type that is not of the table is handled as a bad message. -/
def State.hear (s : State) (r : ReticleId) (side : Fin 4) (msg : BitVec 512) : Result :=
  match msgType msg with
  | 0 => execProbeMessage r side msg s
  | 1 => execProbeAck r side msg s
  | 3 => execLeaderMessage r side msg s
  | 4 => execReportMessage r side msg s
  | 5 => execMapMessage r side msg s
  | 6 => execClockMessage r side msg s
  | 7 => execStartMessage r side msg s
  | 8 => execExcludeMessage r side msg s
  | _ => execElectMessage r side msg s

/-- A due step of the machine: the meaning of the table's step of that name. -/
def State.runAuto (s : State) : Auto → Result
  | .tileClockCycle => execTileClockCycle s
  | .seatTake c seat => execSeatTake c seat s
  | .displacement c => execDisplacement c s
  | .contextReady c tag => execContextReady c tag s
  | .yieldDeadline c tag => execYieldDeadline c tag s
  | .swapRequest c out incoming => execSwapRequest c out incoming s
  | .stagingEnd c => execStagingEnd c s
  | .swapDecision c => execSwapDecision c s
  | .swapIn c => execSwapIn c s
  | .spillDone c => execSpillDone c s
  | .handlerStart c => execHandlerStart c s
  | .kill c tag => execKill c tag s
  | .killDone c tag => execKillDone c tag s
  | .matrixCommandStart c => execMatrixCommandStart c s
  | .leaveGrant r => execLeaveGrant r s
  | .leaveTimeout c => execLeaveTimeout c s
  | .routineSave c => execRoutineSave c s
  | .routineResume c => execRoutineResume c s
  | .rowCommandStart c => execRowCommandStart c s
  | .rowCommandComplete c => execRowCommandComplete c s
  | .copyCommandStart c => execCopyCommandStart c s
  | .copyCommandComplete c => execCopyCommandComplete c s
  | .engineCommandFault c e => execEngineCommandFault c e s
  | .engineWatchdog c e => execEngineWatchdog c e s
  | .rqOverflow c tag => execRqOverflow c tag s
  | .feedRead c tag f => execFeedRead c tag f s
  | .outletWrite c tag o => execOutletWrite c tag o s
  | .networkInjection c => execNetworkInjection c s
  | .releaseSend c serial => execReleaseSend c serial s
  | .acquirePerformed c tag => execAcquirePerformed c tag s
  | .message n => s.deliver n
  | .channelItemResend n => execChannelItemResend n s
  | .peerLost c kernel ch => execPeerLost c kernel ch s
  | .barrierRequestSend c tag => execBarrierRequestSend c tag s
  | .barrierRequestApply c => execBarrierRequestApply c s
  | .dispatch q => execDispatch q s
  | .conditionReadPerformed q => execConditionReadPerformed q s
  | .contextLaunchStart c kernel => execContextLaunchStart c kernel s
  | .kernelComplete kernel => execKernelComplete kernel s
  | .completionEntryWrite q => execCompletionEntryWrite q s
  | .abortGraceExpiry kernel => execAbortGraceExpiry kernel s
  | .hostTimeout => execHostTimeout s
  | .unitZeroingDone c unit => execUnitZeroingDone c unit s
  | .gangStart kernel => execGangStart kernel s
  | .gangDeadline kernel => execGangDeadline kernel s
  | .pageWalk n => execPageWalk n s
  | .shootdownComplete => execShootdownComplete s
  | .ceThresholdMigration c => execCeThresholdMigration c s
  | .wsRefreshMiss c => execWsRefreshMiss c s
  | .migrationCopy => execMigrationCopy s
  | .migrationCheck => execMigrationCheck true s
  | .migrationRewrite => execMigrationRewrite s
  | .migrationResume => execMigrationResume s
  | .quiesceTimeout => execQuiesceTimeout s
  | .scrubBeat c sram => execScrubBeat c sram s
  | .scrubLate c sram => execScrubLate c sram s
  | .worldChange c => execWorldChange c s
  | .cruiseMessage r side msg => s.hear r side msg
  | .probeEnd r => execProbeEnd r s
  | .roundTimer r => execRoundTimer r s
  | .leaderHeartbeat r => execLeaderHeartbeat r s
  | .heartbeatTimeout r => execHeartbeatTimeout r s
  | .claimPost r => execClaimPost r s
  | .claimWindowEnd r => execClaimWindowEnd r s
  | .pllLockTimeout r => execPllLockTimeout r s
  | .parentSelection r => execParentSelection r s
  | .holdLimit r => execHoldLimit r s
  | .cycleCorrection r => execCycleCorrection r s
  | .frequencySwitch => execFrequencySwitch s
  | .reducedServiceEnd => execReducedServiceEnd s
  | .recruise died => execRecruise died s
  | .wavelengthWakeTimeout port w => execWavelengthWakeTimeout port w s
  | .replayTimeout port => execReplayTimeout port s
  | .nakRepeat port => execNakRepeat port s
  | .lkrpltoExpiry port => execLkrpltoExpiry port s
  | .linkSilent port => execLinkSilent port s
  | .trainingEnd port => execTrainingEnd port s
  | .stampSend port => execStampSend port s
  | .linkPolicyPark port => execLinkPolicyPark port s
  | .linkPolicyWake port => execLinkPolicyWake port s
  | .timeStep => execTimeStep s
  | .pairBeatArrival n => execPairBeatArrival n s
  | .pairTimeout n => execPairTimeout n s

/-- What a step leaves; a step that stops leaves the state as it was. -/
def State.after (s : State) (f : State → Result) : State := match f s with | .next s' => s' | _ => s

/-! ### The engines of a tile in a cycle -/

/-- The ends of commands in this cycle: faults, watchdogs, leave requests too old, pushes that wait too long. -/
def State.engineEnds (s : State) (c : TileId) : State :=
  let s := [Engine.matrix, .row, .copy].foldl (fun (s : State) e => s.after (execEngineCommandFault c e)) s
  let s := [Engine.matrix, .row, .copy].foldl (fun (s : State) e => s.after (execEngineWatchdog c e)) s
  let s := s.after (execLeaveTimeout c)
  ((s.tile.pushes.map (·.tag)).eraseDups).foldl (fun (s : State) k => s.after (execRqOverflow c k)) s

/-- The starts of commands in this cycle (R198, R213). -/
def State.engineStarts (s : State) (c : TileId) : State :=
  if s.tile.life.st = .migrating then s
  else
    let s := s.after (execRoutineResume c)
    let s := s.after (execMatrixCommandStart c)
    (s.after (execRowCommandStart c)).after (execCopyCommandStart c)

/-- The tags that p selects in the order in which ports are served: lower context number first, then those that have no number (R217). -/
def Tile.byNumber (t : Tile) (p : Context → Bool) : List Tag :=
  let tags := t.tagsWhere p
  (List.finRange 4).flatMap (fun n => tags.filter (fun k => (t.ctx k).life.num == some n))
    ++ tags.filter (fun k => (t.ctx k).life.num.isNone)

/-- What the ports of a context do in this cycle, the lower port first; a feed goes before the outlet of its number: DESIGN CHOICE, unsafe,
log 163. A migrating tile's feeds read nothing (R439). -/
def State.portsOf (s : State) (c : TileId) (k : Tag) : State :=
  (List.finRange 8).foldl (fun (s : State) i =>
    let s := if s.tile.life.st = .migrating then s else s.after (execFeedRead c k i)
    if h : i.val < 4 then s.after (execOutletWrite c k ⟨i.val, h⟩) else s) s

/-- What the feeds and outlets of a tile do in this cycle (R157, R217). -/
def State.portCycles (s : State) (c : TileId) : State :=
  (s.tile.byNumber (fun x => x.life.st != .empty && !x.portsIdle || !x.outletsWritten)).foldl (fun s k => s.portsOf c k) s

/-- What a tile sends in this cycle: releases whose wait has ended, barrier requests, one operation (R239, R333, R393). -/
def State.sends (s : State) (c : TileId) : State :=
  let s := ((s.tile.netq.filter (fun o => !o.ready)).map (·.serial)).foldl (fun (s : State) n => s.after (execReleaseSend c n)) s
  let asks := ((s.tile.netq.filter (fun o => o.kind == .barrier && !o.injected)).map (·.tag)).eraseDups
  let s := asks.foldl (fun (s : State) k => s.after (execBarrierRequestSend c k)) s
  s.after (execNetworkInjection c)

/-- What the swap engine does in a cycle, after the ports (R263). -/
def State.swapCycle (s : State) (c : TileId) : State :=
  let s := s.stageBeat.spillBeat
  (s.after (execStagingEnd c)).after (execSpillDone c)

/-- The work of a tile's engines, ports and network interface in a cycle. -/
def State.engineCycle (s0 : State) (c : TileId) : State :=
  let s := s0.focus c
  let s := s.modTile (fun t => pushPass { t with pushes := [] } t.pushes)
  let s := s.engineStarts c
  let s := s.after (execRoutineSave c)
  let s := s.engineEnds c
  let s := s.matrixWork
  let s := (s.blockCycles).matrixOutputs
  let s := (s.after (execRowCommandComplete c)).after (execCopyCommandComplete c)
  let s := s.engineEnds c
  ((s.portCycles c).swapCycle c).sends c

/-! ### The order of a cycle -/

/-- The timers that are due, and those that are not. -/
def dueOf (now : Nat) (l : List (Nat × Auto)) : List Turn := (l.filter (fun e => decide (e.1 ≤ now))).map (fun e => .auto e.2)
def laterOf (now : Nat) (l : List (Nat × Auto)) : List (Nat × Auto) := l.filter (fun e => decide (now < e.1))

/-- Whether the tiles of some reticle run: it is READY and the boot time of its CYCLE 0 has come (R461). -/
def State.tilesRun (s : State) : Bool :=
  (List.finRange 96).any (fun r => (s.ret r).st == .ready && (match (s.ret r).clock.startAt with
    | some t => decide (t ≤ s.wafer.time)
    | none => true))

/-- What a tile does before its attempts: kills, contexts that become READY, swaps, displacement, handler starts, seats. The decision of a swap
whose outgoing context holds a seat falls with its attempt. -/
def tileOpening (t : Tile) : List Turn :=
  let c := t.at'
  let tags := List.finRange 8
  let kills := tags.filterMap (fun k =>
    let x := t.ctx k
    if x.life.st ≠ .killing then none else if x.kill.step = 7 then some (.auto (.killDone c k)) else some (.auto (.kill c k)))
  let readies := tags.filterMap (fun k => if (t.ctx k).life.st = .blocked then some (.auto (.contextReady c k)) else none)
  let yields := tags.filterMap (fun k => if (t.ctx k).life.yieldUntil.isSome then some (.auto (.yieldDeadline c k)) else none)
  let swaps : List Turn := match t.core.swapWaiting with
    | (o, i) :: _ => if t.core.shadowFree then [.auto (.swapRequest c o i)] else []
    | [] => []
  let decides : List Turn := match t.core.swap with
    | some w => if w.decided.isNone ∧ ((t.numbered w.out).all (fun k => (t.core.seatOf k).isNone)) then [.auto (.swapDecision c)] else []
    | none => []
  let starts : List Turn := (t.stores.handlers.take 4).map (fun _ => .auto (.handlerStart c))
  kills ++ readies ++ yields ++ swaps ++ decides ++ starts
    ++ (if t.life.st = .migrating then [] else [.auto (.displacement c), .auto (.seatTake c 0), .auto (.seatTake c 1)])

/-- What a tile does after its engines: a migration that corrected errors call for, a change of world, its scrub passes. -/
def State.tileClosing (s : State) (t : Tile) : List Turn :=
  let c := t.at'
  let l := t.life
  let th := s.wafer.host.ceThresh.toNat
  let scrub (sram : Bool) : List Turn :=
    (if s.scrubOffered l sram && !(l.scrub sram).late then [.auto (.scrubBeat c sram)] else [])
      ++ (if (l.scrub sram).overdue || (!(l.scrub sram).late && (l.scrub sram).isLate sram s.wafer.cruise.reduced s.now) then
            [.auto (.scrubLate c sram)] else [])
  (if th ≠ 0 ∧ th ≤ l.ceGrain ∧ !l.ceTold then [.auto (.ceThresholdMigration c)] else [])
    ++ (if t.kernels.isEmpty ∧ (l.wantSecure.isSome ∨ l.wantWssec.isSome) then [.auto (.worldChange c)] else [])
    ++ (if l.st = .live ∨ l.st = .quiesced then scrub true ++ scrub false else [])

/-- Whether a tile has work in a cycle. -/
def Tile.works (t : Tile) : Bool := t.life.st != .spare && t.at' != nowhere

/-- What a tile does before the network's arrivals: the core's work, then the beats of a late scrub pass (R444). -/
def tileFirst (t : Tile) : List Turn :=
  let c := t.at'
  let late (sram : Bool) : List Turn := if (t.life.scrub sram).late then [.auto (.scrubBeat c sram)] else []
  if t.works then tileOpening t ++ [.seats c, .attempt c 0, .attempt c 1] ++ late true ++ late false else []

/-- Whether a 1 ms grain ends in this cycle. -/
def State.grainEnds (s : State) : Bool := decide (s.wafer.time % 10000000 < (if s.wafer.cruise.reduced then 16 else 8))

/-- What the wafer does in a cycle before its tiles: queues, clock corrections, power leave, migration, ports. -/
def State.waferOpening (s : State) : List Turn :=
  let queues := (List.finRange 16).flatMap (fun q =>
    dueOf s.now (s.timers.filter (fun e => e.2 == .conditionReadPerformed q))
      ++ (if (s.queue q).recs.isEmpty then [] else [.auto (.dispatch q)]))
  let switch : List Turn := if s.wafer.cruise.switchAt.isSome then [.auto .frequencySwitch] else []
  let corrections := (List.finRange 96).filterMap (fun r =>
    if (s.ret r).st = .ready ∧ (s.ret r).clock.pll = .locked ∧ (s.ret r).clock.skew ≠ s.parentSkew r then some (.auto (.cycleCorrection r))
    else none)
  let leaves := (List.finRange 96).filterMap (fun r => if (s.ret r).power.fifo.isEmpty then none else some (.auto (.leaveGrant r)))
  let moves : List Turn := if s.wafer.migration.isSome then
    [.auto .migrationCheck, .auto .migrationCopy, .auto .migrationRewrite, .auto .quiesceTimeout] else []
  let step : List Turn :=
    if s.wafer.timeOffset.isSome ∧ !s.wafer.links.stepDone ∧ (s.port (Fin.ofNat 64 (fieldNat s.wafer.links.time 5 0))).stampDone then
      [.auto .timeStep] else []
  queues ++ switch ++ corrections ++ leaves ++ moves ++ step

/-- What the link ports have to do of themselves in a cycle: it comes before what the cycle brings from outside (R484). -/
def State.portTurns (s : State) : List Turn :=
  (List.finRange 64).flatMap (fun p => ((s.port p).due p s.clock s.grainEnds).map Turn.auto)

/-- Tiles in the order in which what they do in one cycle counts: lower TILEY, then lower TILEX (R468, R484). -/
def byPlace : List Tile → List Tile
  | [] => []
  | t :: r => insertPlace t (byPlace r)
where
  /-- A tile put before those of higher places. -/
  insertPlace (t : Tile) : List Tile → List Tile
    | [] => [t]
    | u :: r => if t.at'.y < u.at'.y ∨ (t.at'.y = u.at'.y ∧ t.at'.x ≤ u.at'.x) then t :: u :: r else u :: insertPlace t r

/-- The work of a tile clock cycle in its order: the wafer's, the core of every tile, the network's arrivals, engines and ports, the arrivals
at accumulators, scrubbing, the deadlines of gangs (R147, R217, R237, R381). -/
def State.cycleTurns (s : State) : List Turn :=
  let ts := byPlace (s.tiles.filter Tile.works)
  s.waferOpening ++ ts.flatMap tileFirst ++ [.arrivals false] ++ ts.map (fun t => .engines t.at') ++ [.arrivals true]
    ++ ts.flatMap s.tileClosing ++ (if s.wafer.migration.isSome then [.auto .migrationResume] else []) ++ s.wafer.deadlinesDue.map Turn.auto
    ++ [.auto .tileClockCycle, .ports]

/-! ### Time -/

/-- Where in its cycle a due step of the machine falls: at its start, with its queue's dispatch (R320), or with the network's arrivals. -/
inductive Stage where
  | start | queue | network
  deriving DecidableEq, Repr

/-- The stage of a step. -/
def Auto.stage : Auto → Stage
  | .conditionReadPerformed _ => .queue
  | .message _ => .network
  | .barrierRequestApply _ => .network
  | _ => .start

/-- The row of an event in its state table, which orders the events of one cycle (R14, Table 20-1, R381); 0 for what is in none. -/
def Auto.row : Auto → Nat
  | .probeEnd _ => 4
  | .cruiseMessage _ _ msg =>
    match msgType msg with
    | 2 => 5 | 5 => 10 | 8 => 11 | 7 => 13 | _ => 0
  | .roundTimer _ => 7
  | .claimWindowEnd _ => 9
  | .pllLockTimeout _ => 14
  | .heartbeatTimeout _ => 15
  | .recruise _ => 16
  | .holdLimit _ => 17
  | .contextLaunchStart _ _ => 1
  | .gangDeadline _ => 2
  | .kernelComplete _ => 3
  | _ => 0

/-- Due steps in the order of their tables' rows; those of one row in the order in which they were set. -/
def byRow : List (Nat × Auto) → List (Nat × Auto)
  | [] => []
  | e :: r => insertRow e (byRow r)
where
  /-- A step put before those of a later row and before those of its own that were set after it. -/
  insertRow (e : Nat × Auto) : List (Nat × Auto) → List (Nat × Auto)
    | [] => [e]
    | x :: r => if e.2.row ≤ x.2.row then e :: x :: r else x :: insertRow e r

/-- Due timers of the stages that p selects as turns, and the timers without them. -/
def dueStage (now : Nat) (p : Stage → Bool) (l : List (Nat × Auto)) : List Turn := dueOf now (byRow (l.filter (fun e => p e.2.stage)))
def dropStage (now : Nat) (p : Stage → Bool) (l : List (Nat × Auto)) : List (Nat × Auto) :=
  l.filter (fun e => !(decide (e.1 ≤ now) && p e.2.stage))

/-- Whether a due step belongs at the start of a cycle; where no tile runs every due step does. -/
def State.atStart (s : State) (g : Stage) : Bool := g == .start || !s.tilesRun

/-- The due timers of the tile clock that start a cycle, then those of the cruise, then the gangs whose value CYCLE has reached. -/
def State.dueTurns (s : State) : List Turn :=
  dueStage s.now s.atStart s.timers ++ dueOf s.wafer.time (byRow s.wafer.cruise.timers)
    ++ (if s.tilesRun then s.wafer.gangsDue.map Turn.auto else [])

/-- Those timers taken off their lists. -/
def State.dropDue (s : State) : State :=
  ({ s with timers := dropStage s.now s.atStart s.timers }).modCruise (fun c => { c with timers := laterOf s.wafer.time c.timers })

/-- Whether a due step is an operation that reaches an accumulator (R147). -/
def State.atAcc (s : State) (a : Auto) : Bool :=
  match a with
  | .message n => (s.wafer.net.find? (fun m => m.serial == n)).any (fun m => match m.body with
    | .op o => gaSpace o.addr == 1
    | _ => false)
  | _ => false

/-- The arrivals of a cycle: those at accumulators after the engines, in the order in which the network brings them, the others before (R147,
R217). -/
def State.arrivals (s : State) (acc : Bool) : State :=
  let mine (e : Nat × Auto) : Bool := e.2.stage == .network && (acc || !s.atAcc e.2)
  let due := dueOf s.now (s.timers.filter mine)
  { s with timers := s.timers.filter (fun e => !(decide (e.1 ≤ s.now) && mine e)), agenda := due ++ s.agenda }

/-- The earliest time after now at which the cruise has something to do. -/
def State.nextTime (s : State) : Option Nat :=
  let starts := (List.finRange 96).filterMap (fun r => if (s.ret r).st = .ready then (s.ret r).clock.startAt else none)
  ((s.wafer.cruise.timers.map (·.1) ++ starts).filter (fun t => decide (s.wafer.time < t))).foldl
    (fun b t => match b with | some x => some (min x t) | none => some t) none

/-- What the machine does when it has nothing in hand: its due timers; then a tile clock cycle, where tiles run; else time passes to
the next timer of the cruise. With none it waits for an event from outside. -/
def State.plan (s : State) : State :=
  if !s.dueTurns.isEmpty then { s.dropDue with agenda := s.dueTurns }
  else if s.tilesRun then { s with timers := dropStage s.now (· == .queue) s.timers, agenda := s.cycleTurns }
  else match s.nextTime with
    | some t => s.reach t
    | none => s

/-- One turn of the agenda. -/
def State.runTurn (s : State) : Turn → Result
  | .event i => exec i s
  | .auto a => s.runAuto a
  | .seats c => .next (s.focus c).takeSeats
  | .attempt c seat => (s.focus c).seatTurn seat
  | .engines c => .next (s.engineCycle c)
  | .arrivals acc => .next (s.arrivals acc)
  | .ports => .next { s with agenda := s.portTurns ++ s.agenda }

end Sys2Proof.Machine
end

