-- ==== Sys2Proof/Machine/Step.lean ====
section
/-! DEFINITION. One step of the machine, and an instruction placed where the next step fetches. -/

namespace Sys2Proof.Machine

/-- One step: the first turn of the agenda; with an empty agenda the machine plans its next turns. -/
def step (s : State) : Host.Outcome State Fault Refusal :=
  match s.agenda with
  | t :: rest => State.runTurn { s with agenda := rest } t
  | [] => .next s.plan

/-- s with an instruction word stored where step fetches next, in the slot in which decodeTableWord reads it. -/
def State.withFetchWord (s : State) (_nbits w : Nat) : State :=
  s.placeBundle (bundleWith (BitVec.ofNat 32 w) (tableSlot (BitVec.ofNat 32 w)))

end Sys2Proof.Machine
end

