-- ==== Sys2Proof/Machine/Window.lean ====
section
/-! DEFINITION. What the host reads in the launch window (Tables 13-5, 14-4, 18-4, 19-5, 20-9, 21-6, 21-7, 22-1). The reads that clear what they
return are steps of their own; every other read changes nothing. -/

namespace Sys2Proof.Machine

/-- The word n of a number. -/
def wordOf (v n : Nat) : BitVec 32 := BitVec.ofNat 32 (v / 2 ^ (32 * n))

/-- The registers of a launch queue (Table 13-5). -/
def State.queueWord (s : State) (q : QueueId) (reg : Nat) : BitVec 32 :=
  let x := s.queue q
  match reg with
  | 0x00 => BitVec.ofNat 32 (bnat x.devApp * 2 ^ 29 + bnat x.sec * 2 ^ 28 + x.asid % 4096 * 2 ^ 16)
  | 0x04 => s.wafer.lqstat q
  | 0x08 => x.tail.setWidth 32
  | 0x0C => x.head.setWidth 32
  | 0x10 => x.chead.setWidth 32
  | 0x14 => x.ctail.setWidth 32
  | _ => 0

/-- HSTAT (Table 13-5). -/
def HostRegs.hstat (h : HostRegs) : BitVec 32 := BitVec.ofNat 32 (h.hstatCount * 2 ^ 16 + bnat h.hstatLsovf * 2 ^ 15 + h.hstatLast.toNat)

/-- The registers from 0x500 to 0x7FF. -/
def HostRegs.word (h : HostRegs) (off : Nat) : BitVec 32 :=
  match off with
  | 0x500 => h.ewdog
  | 0x50C => h.abortGrace
  | 0x510 => h.hstat
  | 0x514 => h.gangGrace
  | 0x600 => wordOf h.ldsrc.toNat 0
  | 0x604 => wordOf h.ldsrc.toNat 1
  | 0x608 => h.ldsize
  | 0x610 => h.ldstat
  | 0x700 => wordOf h.astBase.toNat 0
  | 0x704 => wordOf h.astBase.toNat 1
  | 0x70C => BitVec.ofNat 32 (bnat h.tlbBusyOn * 2 ^ 31)
  | 0x710 => wordOf h.tlbVa.toNat 0
  | 0x714 => wordOf h.tlbVa.toNat 1
  | 0x720 => wordOf h.pgfRing.toNat 0
  | 0x724 => wordOf h.pgfRing.toNat 1
  | 0x728 => h.pgfHead.setWidth 32
  | 0x730 => wordOf h.htBase.toNat 0
  | 0x734 => wordOf h.htBase.toNat 1
  | _ => 0

/-- The tile registers (Table 19-5). -/
def State.tileWord (s : State) (off : Nat) : BitVec 32 :=
  match off with
  | 0x800 => s.wafer.host.tsel.setWidth 32
  | 0x804 => s.tstate
  | 0x808 => BitVec.ofNat 32 (bnat (s.tileAt s.hostTile).life.secure)
  | 0x80C => (s.tileAt s.hostTile).life.wssec
  | 0x814 => s.migstat
  | 0x818 => (s.tileAt s.hostTile).life.ceCount
  | 0x81C => s.wafer.host.ceThresh
  | 0x820 => s.wafer.host.qTimeout
  | 0x824 => s.scrstat
  | _ => 0

/-- The reticle registers (Table 20-9). -/
def State.reticleWord (s : State) (off : Nat) : BitVec 32 :=
  let x := s.ret s.wafer.selReticle
  match off with
  | 0x900 => s.wafer.cruise.rsel.setWidth 32
  | 0x904 => s.rstate
  | 0x908 => wordOf x.key.toNat 0
  | 0x90C => wordOf x.key.toNat 1
  | 0x910 => x.power.mean.setWidth 32
  | 0x914 => x.power.peak.setWidth 32
  | 0x918 => x.power.mv.setWidth 32
  | 0x91C => x.power.crack.setWidth 32
  | 0x920 => s.rclk
  | 0x924 => BitVec.ofNat 32 (x.causes.toNat * 2 ^ 16 + x.cause.toNat)
  | 0x928 => x.power.ithrot
  | 0x92C => x.power.leavebud
  | 0x930 => x.power.leaveto
  | 0x934 => x.power.crkth
  | 0x93C => s.wstat
  | 0x940 => s.wafer.cruise.newdef
  | _ => 0

/-- The wafer's link registers (Table 21-6). -/
def Wafer.linkWord (w : Wafer) (off : Nat) : BitVec 32 :=
  match off with
  | 0xA00 => w.links.wafer.setWidth 32
  | 0xA04 => w.links.rsel.setWidth 32
  | 0xA08 => ((assocGet w.links.routes w.links.rsel.toNat).getD 0).setWidth 32
  | 0xA0C => w.links.time.setWidth 32
  | 0xA10 => BitVec.ofNat 32 (w.otherWafers.length + 1)
  | _ => 0

/-- The four words of a wavelength (R491). -/
def Wave.word (v : Wave) (n : Nat) : BitVec 32 :=
  match n with
  | 0 => v.bias.setWidth 32
  | 1 => v.power.setWidth 32
  | 2 => v.hrs
  | _ => v.eol

/-- The registers of a port (Table 21-7). -/
def Port.word (p : Port) (reg : Nat) : BitVec 32 :=
  match reg with
  | 0x00 => BitVec.ofNat 32 (bnat p.regs.sec * 2 ^ 29 + bnat p.regs.devctl * 2 ^ 28 + p.regs.minw.toNat * 2 ^ 24)
  | 0x04 => p.lksts
  | 0x08 => BitVec.ofNat 32 (p.regs.why.toNat + if p.regs.purged then 0x8E00 else 0)
  | 0x0C => p.regs.peer
  | 0x10 => p.regs.peerA
  | 0x14 => p.regs.pol
  | 0x1C => p.regs.rpl
  | 0x20 => p.regs.rplto
  | 0x24 => p.regs.off
  | 0x28 => p.regs.dly
  | 0x2C => p.regs.fecth
  | 0x30 => p.regs.bmax
  | 0x34 => p.regs.pmin
  | _ =>
    if 0x40 ≤ reg ∧ reg < 0xC0 then (p.waves[Fin.ofNat 8 ((reg - 0x40) / 16)]).word ((reg - 0x40) % 16 / 4)
    else if 0xC0 ≤ reg ∧ reg < 0xE0 then
      let v := p.waves[Fin.ofNat 8 ((reg - 0xC0) / 4)]
      BitVec.ofNat 32 (v.corrected.toNat * 2 ^ 16 + v.uncorrected.toNat)
    else 0

/-- DSTAT and DPC of the selected context (Table 22-1). -/
def State.dstat (s : State) : BitVec 32 :=
  let c := s.tile.ctx s.selTag
  BitVec.ofNat 32 (bnat c.dbg.held * 2 ^ 31 + c.dbg.reason.toNat * 2 ^ 28 + c.dbg.watch.toNat * 2 ^ 24 + c.sys.doneMask.toNat * 2 ^ 20)
def State.dpc (s : State) : BitVec 32 :=
  let c := s.tile.ctx s.selTag
  BitVec.ofNat 32 ((pcIndex c.flow.pc).toNat * 2 ^ 18 + c.dbg.brk.toNat)

/-- The host snapshot's value that ACHSEL selects (R509). -/
def State.achData (s : State) : Nat :=
  let sel := s.wafer.dbg.achsel
  let a := s.tile.acct
  if sel.toNat.testBit 16 then a.hostElapsed.toNat else a.hostSnap.at (acctKey (fieldNat sel 15 12) (fieldNat sel 11 6) (fieldNat sel 5 1))

/-- The registers that concern the selected tile and context; a non-secure host function reads 0 of a secure one (R499). -/
def State.debugWord (s0 : State) (secureFn : Bool) (off : Nat) : BitVec 32 :=
  let s := s0.focus s0.selTile
  let d := s.tile.dbg
  if s.selSecure ∧ !secureFn then 0
  else if 0xB40 ≤ off ∧ off < 0xBC0 then
    let w : Fin 16 := Fin.ofNat 16 ((off - 0xB40) / 8)
    if off % 8 = 0 then (d.wpAddr[w]).setWidth 32 else d.wpCtl[w]
  else
    match off with
    | 0xB08 => s.dstat
    | 0xB0C => s.dpc
    | 0xBC0 => d.tctl
    | 0xBC4 => BitVec.ofNat 32 (d.discards.toNat * 2 ^ 16 + d.next.toNat)
    | 0xBD8 => wordOf s.achData 0
    | 0xBDC => wordOf s.achData 1
    | _ => 0

/-- The ring of the selected tile (Table 22-1). -/
def State.ringWord (s0 : State) (secureFn : Bool) (off : Nat) : BitVec 32 :=
  let s := s0.focus s0.selTile
  if s.tile.life.secure ∧ !secureFn then 0 else wordOf ((assocGet s.tile.dbg.ring (off / 16)).getD 0).toNat (off % 16 / 4)

/-- Whether a secure tile lies in a partition of the paired run. -/
def State.pairSecure (s : State) : Bool :=
  s.tiles.any (fun t => t.life.secure && s.wafer.dbg.part.any (fun r => r.inside r.primary t.at' || r.inside r.shadow t.at'))

/-- The other debug registers (Table 22-1). -/
def State.pairWord (s : State) (secureFn : Bool) (off : Nat) : BitVec 32 :=
  let d := s.wafer.dbg
  match off with
  | 0xB00 => d.dsel
  | 0xB10 => d.dbgen.setWidth 32
  | 0xBD4 => d.achsel
  | _ =>
    if s.pairSecure ∧ !secureFn then 0
    else
      match off with
      | 0xC00 => d.pairctl
      | 0xC04 => d.pairp.setWidth 32
      | 0xC08 => d.pairs.setWidth 32
      | 0xC0C => d.pairto
      | 0xC10 => BitVec.ofNat 32 (bnat d.part.isSome * 2 ^ 31 + bnat d.mismatch * 2 ^ 30 + d.why.toNat * 2 ^ 28
          + min (d.beats.filter (·.here)).length 0xFFFF)
      | 0xC14 => wordOf d.mva.toNat 0
      | 0xC18 => wordOf d.mva.toNat 1
      | 0xC1C => d.msrc
      | _ => 0

/-- The word that a host function reads at an offset of the launch window; a write-only or unlisted one reads as zero. -/
def State.windowWord (s : State) (secureFn : Bool) (off : Nat) : BitVec 32 :=
  if off % 4 ≠ 0 then 0
  else if off < 0x400 then s.queueWord (Fin.ofNat 16 (off / 0x40)) (off % 0x40)
  else if off < 0x500 then (s.wafer.ls[Fin.ofNat 64 ((off - 0x400) / 4)]).setWidth 32
  else if off < 0x800 then s.wafer.host.word off
  else if off < 0x900 then s.tileWord off
  else if off < 0xA00 then s.reticleWord off
  else if off < 0xB00 then s.wafer.linkWord off
  else if off = 0xB00 ∨ off = 0xB10 ∨ off = 0xBD4 ∨ 0xC00 ≤ off ∧ off < 0xD00 then s.pairWord secureFn off
  else if off < 0xC00 then s.debugWord secureFn off
  else if 0x50000 ≤ off ∧ off < 0x70000 then
    let e := (assocGet (s.queue (Fin.ofNat 16 ((off - 0x50000) / 0x2000))).cring ((off - 0x50000) % 0x2000 / 32)).getD 0
    wordOf e.toNat (off % 32 / 4)
  else if 0x70000 ≤ off ∧ off < 0x74000 then (s.port (Fin.ofNat 64 ((off - 0x70000) / 0x100))).word ((off - 0x70000) % 0x100)
  else if 0x78000 ≤ off ∧ off < 0x79000 then s.ringWord secureFn (off - 0x78000)
  else 0

end Sys2Proof.Machine
end

