-- ==== Sys2Proof/Safety.lean ====
section
/-! DEFINITION. The terms in which claims speak: reading memory byte by byte, the conditions on a state under which nothing but an
instruction's own conditions stands in the way of its issue, what an issued bundle leaves of the rest of the machine, and what
every run keeps. -/

namespace Sys2Proof.Machine

/-! ### Memory, byte by byte -/

/-- A byte of a local memory of the tile at c (R32). -/
def State.byte (s : State) (c : TileId) (sp : Space) (a : Nat) : Byte := ((s.tileAt c).store sp).cells.byteAt a

/-- A byte of external physical memory (R515). -/
def State.extByte (s : State) (a : Nat) : Byte := s.wafer.ext.cells.byteAt a

/-- Every byte of every memory reads in t as it reads in s. -/
def SameMemory (s t : State) : Prop := (∀ c sp a, t.byte c sp a = s.byte c sp a) ∧ ∀ a, t.extByte a = s.extByte a

/-- Every byte of every memory but those of the n bytes at a of a local memory of the tile at c reads in t as it reads in s. -/
def SameMemoryBut (s t : State) (c : TileId) (sp : Space) (a n : Nat) : Prop :=
  (∀ d sq b, (d ≠ c ∨ sq ≠ sp ∨ b < a ∨ a + n ≤ b) → t.byte d sq b = s.byte d sq b) ∧ ∀ b, t.extByte b = s.extByte b

/-! ### Before the issue -/

/-- What the bundle about to issue reads: the writes that are due have landed (R82). -/
def State.reads (s : State) : State := s.modCtx Context.landed

/-- The slot predicate of an instruction in a bundle without a header (R67): none, or a true predicate register without poison. -/
abbrev State.predOn (s : State) (p : BitVec 2) : Prop :=
  s.issue.header = 0 ∧ (p = 0 ∨ (s.reads.ctx.regs.getP (0#1 ++ p) = { val := 1, poison := false } ∧ s.ctx.regBad.contains (.p (0#1 ++ p)) = false))

/-- None of the registers that a slot reads has an uncorrectable error (R286). -/
abbrev State.filesGood (s : State) (rs : List RegRef) : Prop := rs.all (fun r => !s.ctx.regBad.contains r) = true

/-- What an attempt of a bundle that holds one instruction meets before it looks at the instruction: no cause waits to be
taken (R275), no host step is under way (R502), the values due have come (R85), no other bundle has issued in this cycle (R64),
no watchpoint sees the context (R504), the next PC lies in the window (R62), no loop counter is near its top (R309). -/
abbrev State.Clear (s : State) : Prop :=
  s.issue = { header := s.issue.header, words := s.issue.words }
  ∧ (s.ctx.sys.inHandler = true ∨ (s.ctx.life.deferred = none ∧ s.ctx.life.recovery = false))
  ∧ s.ctx.dbg.stepTrap = false ∧ s.ctx.life.partLanded = false ∧ s.ctx.doneSlots = 0 ∧ s.ctx.dbg.popped = []
  ∧ lastArrival (dueNow s.ctx.pending) ≤ s.now
  ∧ s.tile.core.log.issued = []
  ∧ (∀ w : Fin 16, s.watchOn w = false)
  ∧ (s.ctx.flow.advance s.ctx.sys.inHandler none none).pc.toNat < 16 * s.windowLen
  ∧ (s.ctx.sys.inHandler = true ∨ s.tile.acct.loops.all (fun e => decide (e.2 < 0xFFFFFF00)) = true)

/-! ### After the issue -/

/-- A context without its registers, pending writes and program counters, and without what the issue of a bundle counts: the serial
number of its bundles, the observation of R292, the cycle of its last issue. -/
def Context.rest (c : Context) : Context :=
  { c with regs := {}, pending := [], flow := {}, serial := 0, segN := 0, segC := 0,
           life := { c.life with lastIssue := none, yielded := false, partLanded := false, entering := false },
           asked := { c.asked with gslicePast := none, gsliceIn := none }, dbg := { c.dbg with popped := [] } }

/-- The machine without what the issue of a bundle of the context in focus may change: the context's own part, the loop
counters (R309), the scratch of the attempt and of the cycle. -/
def State.rest (s : State) : State :=
  { (s.modCtx Context.rest) with
    issue := {}
    tile := { (s.modCtx Context.rest).tile with acct := { s.tile.acct with loops := [] }, core := { s.tile.core with log := {} } } }

/-- t is r after its bundle has issued with the results ws, the PC having gone on: the registers stand as r has them until a result lands, and
nothing else has changed. r is the state in which the instruction has read its operands and had its effect. -/
def Issues (r t : State) (transfer : Option (BitVec 32)) (loop : Option (Fin 4 × BitVec 32 × Nat)) (ws : List Pending) : Prop :=
  t.rest = r.rest ∧ SameMemory r t ∧ t.ctx.regs = r.ctx.regs
  ∧ t.ctx.pending = ws.foldl (fun l p => insertPending p l) r.ctx.pending
  ∧ t.ctx.flow = r.ctx.flow.advance r.ctx.sys.inHandler transfer loop

/-- The pending write of a result of slot k with latency l (R82). -/
def State.result (s : State) (k : Nat) (l : Lat) (w : RegWrite) (poison : Bool) : Pending :=
  { write := w, poison := poison, remain := l.cycles s.declaredB, arrive := s.now + l.cycles s.wafer.gradeB,
    serial := s.ctx.serial, slot := k }

/-- Instruction i, alone in a bundle, completes in s: the bundle issues with the results ws, a transfer and a loop start; r is the state in
which the instruction has read its operands and had its other effects. -/
def CompletesWith (i : Instr) (s r : State) (transfer : Option (BitVec 32)) (loop : Option (Fin 4 × BitVec 32 × Nat))
    (ws : List Pending) : Prop := ∃ t, exec i s = .next t ∧ Issues r t transfer loop ws

/-- An instruction that neither transfers nor starts a loop completes. -/
abbrev Completes (i : Instr) (s r : State) (ws : List Pending) : Prop := CompletesWith i s r none none ws

/-! ### What every run keeps -/

/-- Every memory of a tile is in its canonical form. -/
def TileMem.wf (m : TileMem) : Bool := m.spad.cells.wf && m.acc.cells.wf && m.wst.cells.wf

/-- Every memory of the machine is in its canonical form. -/
def State.memWf (s : State) : Bool :=
  s.tiles.all (fun t => t.mem.wf) && s.wafer.spareMem.all (fun t => t.mem.wf) && s.wafer.ext.cells.wf

/-- Serial numbers name one thing: kernel sequence numbers of queued records and of kernels (R322), messages under way, and the operations of
a tile's network command queue; all lie below the next number to be given. -/
def State.Serials (s : State) : Prop :=
  let seqs := s.wafer.queues.toList.flatMap (fun q => q.recs.map (·.seq)) ++ s.wafer.kernels.map (·.seq)
  seqs.Nodup ∧ (∀ n ∈ seqs, n < s.wafer.nextSeq)
  ∧ (s.wafer.net.map (·.serial)).Nodup ∧ (∀ m ∈ s.wafer.net, m.serial < s.wafer.nextMsg)
  ∧ ∀ t ∈ s.tiles, (t.netq.map (·.serial)).Nodup ∧ ∀ o ∈ t.netq, o.serial < s.wafer.nextMsg

end Sys2Proof.Machine
end

