-- ==== Sys2Proof/Certificates/Slice0/Obligations.lean ====
section
/-! DEFINITION. What is claimed of the model, from the spec's numbered rules: one proposition each, with the tables of results that
they speak of. -/

namespace Sys2Proof.Machine

/-! ### Tables of results (chapter 4) -/

/-- The two-operand functions of Table 4-1 with their latencies: a and b are the words of ga and gb. -/
def scalarTwo : List ((BitVec 2 → BitVec 5 → BitVec 5 → BitVec 5 → Instr) × Nat × (Word → Word → Word)) :=
  [(.add, 1, fun a b => BitVec.ofNat 32 (a.toNat + b.toNat)),
   (.sub, 1, fun a b => BitVec.ofInt 32 ((a.toNat : Int) - b.toNat)),
   (.and, 1, fun a b => a &&& b), (.or, 1, fun a b => a ||| b), (.xor, 1, fun a b => a ^^^ b), (.andn, 1, fun a b => a &&& ~~~b),
   (.shl, 1, fun a b => BitVec.ofNat 32 (a.toNat * 2 ^ (b.toNat % 32))),
   (.shr, 1, fun a b => BitVec.ofNat 32 (a.toNat / 2 ^ (b.toNat % 32))),
   (.sar, 1, fun a b => BitVec.ofInt 32 (a.toInt / 2 ^ (b.toNat % 32))),
   (.rol, 1, fun a b => a <<< (b.toNat % 32) ||| a >>> (32 - b.toNat % 32)),
   (.min, 1, fun a b => BitVec.ofInt 32 (min a.toInt b.toInt)), (.max, 1, fun a b => BitVec.ofInt 32 (max a.toInt b.toInt)),
   (.minu, 1, fun a b => BitVec.ofNat 32 (min a.toNat b.toNat)), (.maxu, 1, fun a b => BitVec.ofNat 32 (max a.toNat b.toNat)),
   (.mul, 3, fun a b => BitVec.ofNat 32 (a.toNat * b.toNat)),
   (.mulh, 3, fun a b => BitVec.ofInt 32 (a.toInt * b.toInt / 2 ^ 32)),
   (.mulhu, 3, fun a b => BitVec.ofNat 32 (a.toNat * b.toNat / 2 ^ 32)),
   (.div, 34, fun a b => if b = 0 then 0xFFFFFFFF else a.sdiv b),
   (.divu, 34, fun a b => if b = 0 then 0xFFFFFFFF else BitVec.ofNat 32 (a.toNat / b.toNat)),
   (.rem, 34, fun a b => if b = 0 then a else a.srem b),
   (.remu, 34, fun a b => if b = 0 then a else BitVec.ofNat 32 (a.toNat % b.toNat)),
   (.adds, 1, fun a b => BitVec.ofInt 32 (min (max (a.toInt + b.toInt) (-2 ^ 31)) (2 ^ 31 - 1))),
   (.subs, 1, fun a b => BitVec.ofInt 32 (min (max (a.toInt - b.toInt) (-2 ^ 31)) (2 ^ 31 - 1)))]

/-- The one-operand functions of Table 4-1. -/
def scalarOne : List ((BitVec 2 → BitVec 5 → BitVec 5 → Instr) × (Word → Word)) :=
  [(.clz, BitVec.clz), (.ctz, BitVec.ctz), (.popc, BitVec.cpop), (.brev, BitVec.reverse),
   (.bswap, fun a => a.extractLsb' 0 8 ++ a.extractLsb' 8 8 ++ a.extractLsb' 16 8 ++ a.extractLsb' 24 8)]

/-- The immediate forms of R96 with a signed immediate, with their latencies. -/
def scalarImm : List ((BitVec 2 → BitVec 5 → BitVec 5 → BitVec 14 → Instr) × Nat × (Word → Word → Word)) :=
  [(.addi, 1, fun a i => a + i), (.andi, 1, fun a i => a &&& i), (.ori, 1, fun a i => a ||| i), (.xori, 1, fun a i => a ^^^ i),
   (.muli, 3, fun a i => a * i)]

/-- The shifts by an immediate of R96. -/
def scalarShift : List ((BitVec 2 → BitVec 5 → BitVec 5 → BitVec 5 → Instr) × (Word → Nat → Word)) :=
  [(.shli, fun a n => BitVec.ofNat 32 (a.toNat * 2 ^ n)), (.shri, fun a n => BitVec.ofNat 32 (a.toNat / 2 ^ n)),
   (.sari, fun a n => BitVec.ofInt 32 (a.toInt / 2 ^ n))]

/-- The conditions of R99 by their codes (Table 3-4). -/
def setpCond : List (BitVec 4 × (Word → Word → Bool)) :=
  [(0, fun a b => a = b), (1, fun a b => a ≠ b), (2, fun a b => a.toInt < b.toInt), (3, fun a b => a.toInt ≤ b.toInt),
   (4, fun a b => a.toInt > b.toInt), (5, fun a b => a.toInt ≥ b.toInt), (6, fun a b => a.toNat < b.toNat),
   (7, fun a b => a.toNat ≤ b.toNat), (8, fun a b => a.toNat > b.toNat), (9, fun a b => a.toNat ≥ b.toNat),
   (10, fun a b => (a &&& b) ≠ 0)]

/-- The combinations of R99 by cb: with the old predicate and the condition; whether the old predicate is read. -/
def setpCombine : List (BitVec 2 × (Bool → Bool → Bool) × Bool) :=
  [(0, fun _ c => c, false), (1, fun o c => o && c, true), (2, fun o c => o || c, true)]

/-- The functions of R100. -/
def plog : List ((BitVec 2 → BitVec 3 → BitVec 3 → BitVec 3 → BitVec 1 → BitVec 1 → Instr) × (Bool → Bool → Bool)) :=
  [(.pand, fun a b => a && b), (.por, fun a b => a || b), (.pxor, fun a b => a != b)]

/-- The transfers of Table 4-2 with a relative target, with whether they link. -/
def relTransfers : List ((BitVec 2 → BitVec 1 → BitVec 3 → BitVec 20 → Instr) × Bool) := [(.br, false), (.call, true)]

/-- The transfers of Table 4-2 to a register, with whether they link. -/
def regTransfers : List ((BitVec 2 → BitVec 1 → BitVec 3 → BitVec 5 → Instr) × Bool) := [(.brr, false), (.callr, true)]

/-- What a taken transfer to t leaves: its record in the trace, of kind 1 for RET (R508), and the link PC + 32 in g31. -/
def Transfers (i : Instr) (s : State) (t : BitVec 32) (link : Bool) (kind : Nat) : Prop :=
  let r := s.reads.trace s.tag kind t 0 0 (s.ctx.flow.pc.extractLsb' 4 14)
  CompletesWith i s r (some t) none (if link then [r.result 0 (.n 1) (.g 31 (s.ctx.flow.pc + 32)) false] else [])

/-- The system registers that read a field of State or a wired value (Table 4-8), n being the number. -/
def sysValues (s : State) : List (BitVec 10 × Word) :=
  let c := s.reads.ctx
  ([(0x00, c.sys.fpc), (0x01, c.sys.srstep), (0x02, 0#24 ++ c.sys.cause), (0x03, c.sys.epc), (0x04, 0#28 ++ c.sys.doneMask),
   (0x05, c.sys.poisonRec.extractLsb' 0 32), (0x06, c.sys.poisonRec.extractLsb' 32 32),
   (0x08, BitVec.ofNat 32 s.tile.at'.x), (0x09, BitVec.ofNat 32 s.tile.at'.y), (0x0A, BitVec.ofNat 32 s.tile.life.px),
   (0x0B, BitVec.ofNat 32 s.tile.life.py), (0x0E, 0#30 ++ c.sys.prio), (0x11, c.sys.cycleHs), (0x12, s.cycle.extractLsb' 32 32)] : List (BitVec 10 × Word))
  ++ (List.finRange 4).map (fun k => (BitVec.ofNat 10 (0x18 + k.val), if c.flow.loops[k].active then c.flow.loops[k].cnt else 0))
  ++ (List.finRange 32).map (fun k => (BitVec.ofNat 10 (0x40 + k.val), 0#16 ++ c.sems.s[k]))

/-- A local access of n bytes at a that no check of R141 stops and no stall of R142 to R144 and Table 14-8 holds: inside its space, aligned,
on bytes and units that are the kernel's, in the mode and world that the weight store asks for, with no lock, no occupied bank, no
refresh, and no acquire unperformed (R241). -/
def Reaches (s : State) (sp : Space) (a n align : Nat) (write : Bool) : Prop :=
  a % align = 0 ∧ a + n ≤ (match sp with | .spad => 0x1F0000 | .acc => 0x40000 | .wst => 0x1000000)
  ∧ (∀ u ∈ unitsOf sp a n, s.tile.unitState s.ctx.life.kernel u = some .held)
  ∧ (sp = .wst → s.writeMode = write ∧ (s.ctx.life.secure = true ∨ ∀ b ∈ banksOf .wst a n, s.tile.life.wssec.toNat.testBit b = false)
      ∧ ∀ b ∈ banksOf .wst a n, inRefresh s.cycle b = false)
  ∧ s.tile.lockFree s.now sp a n write = true ∧ (sp ≠ .acc → s.tile.banksFree s.now sp a n = true) ∧ s.ctx.remote.acquire = none

/-- The units that a mask names, from unit first on. -/
def maskUnits (w : Word) (first n : Nat) : List Nat := ((List.range n).filter (fun b => w.getLsbD b)).map (fun b => first + b)

/-- The pairs that GID, GDIM and GBASE read, with their two constructors. -/
def groupReads : List ((BitVec 2 → BitVec 5 → BitVec 3 → Instr) × (BitVec 2 → BitVec 5 → BitVec 5 → Instr)
    × ((Nat × Nat) × (Nat × Nat) × (Nat × Nat) → Nat × Nat)) :=
  [(.gid, .gidReg, fun x => x.1), (.gdim, .gdimReg, fun x => x.2.1), (.gbase, .gbaseReg, fun x => x.2.2)]

/-! ### Vector operations (chapter 5) -/

/-- The state in which the V sources of an instruction of a slot have been read: each feed among them has given its oldest vector, once (R71,
R72). -/
def Sources (s : State) (as : List (BitVec 5)) (slot : Nat := 1) : State := (as.flatMap srcPops).foldl (State.popFeed slot) s.reads

/-- Nothing stands in the way of an instruction that reads V sources and registers: no register has an uncorrectable error, every feed among the
sources is ACTIVE and holds a vector that can be popped (R72). -/
def Fed (s : State) (as : List (BitVec 5)) (rs : List RegRef) : Prop :=
  s.Clear ∧ s.filesGood (as.flatMap srcRegs ++ rs)
  ∧ ∀ f ∈ as.flatMap srcPops, (s.ctx.feeds[f]).active = true ∧ ∃ v vs, (s.ctx.feeds[f]).held = v :: vs ∧ v.due ≤ s.now

/-- Results of the V slot, r being the state in which the sources have been read: a vector under write mask mk (R118, R119), a whole vector, a mask. -/
def vectorResult (r : State) (lat : Nat) (d : BitVec 4) (mk : BitVec 3) (v : Vec) (poison : Bool) : List Pending :=
  [r.result 1 (.n lat) (.v d v (r.m mk) (mk == 0)) (poison || r.anyPoison [.m mk])]
def wholeResult (r : State) (lat : Nat) (d : BitVec 4) (v : Vec) (poison : Bool) : List Pending :=
  [r.result 1 (.n lat) (.v d v fullMask true) poison]

/-- The integer types of Table 3-4: code, width, whether signed. -/
def intTypes : List (BitVec 3 × Nat × Bool) := [(0, 32, true), (1, 32, false), (2, 16, true), (3, 16, false), (4, 8, true), (5, 8, false)]

/-- The floating types of Table 3-4. -/
def floatTypes : List (BitVec 3 × Fmt) := [(0, .f32), (1, .bf16), (2, .f16)]

/-- The forms of a two-operand V instruction: of two V sources, and of a V source and a g register. -/
abbrev VectorForm := BitVec 2 → BitVec 4 → BitVec 5 → BitVec 5 → BitVec 3 → BitVec 3 → Instr

/-- The arithmetic functions of Table 5-2: width, least and greatest value of the type, the elements' values; the result is taken mod 2^w. -/
def vectorInts : List (VectorForm × VectorForm × (Nat → Int → Int → Int → Int → Int)) :=
  [(.vadd, .vaddScalar, fun _ _ _ a b => a + b), (.vsub, .vsubScalar, fun _ _ _ a b => a - b),
   (.vmul, .vmulScalar, fun _ _ _ a b => a * b), (.vmulh, .vmulhScalar, fun w _ _ a b => a * b / 2 ^ w),
   (.vmin, .vminScalar, fun _ _ _ a b => min a b), (.vmax, .vmaxScalar, fun _ _ _ a b => max a b),
   (.vadds, .vaddsScalar, fun _ lo hi a b => max lo (min hi (a + b))), (.vsubs, .vsubsScalar, fun _ lo hi a b => max lo (min hi (a - b))),
   (.vabsd, .vabsdScalar, fun _ _ _ a b => max (a - b) (b - a)),
   (.vshl, .vshlScalar, fun w _ _ a b => a * 2 ^ (b % w).toNat), (.vshr, .vshrScalar, fun w _ _ a b => a / 2 ^ (b % w).toNat),
   (.vavg, .vavgScalar, fun _ _ _ a b => (a + b + 1) / 2)]

/-- The logic functions of Table 5-2. -/
def vectorLogic : List (VectorForm × VectorForm × (Vec → Vec → Vec)) :=
  [(.vand, .vandScalar, fun a b => a &&& b), (.vor, .vorScalar, fun a b => a ||| b), (.vxor, .vxorScalar, fun a b => a ^^^ b)]

/-- The value of element j of a vector in an integer type (R37, R123). -/
def elementInt (w : Nat) (sg : Bool) (v : Vec) (j : Nat) : Int :=
  if sg then (v.extractLsb' (w * j) w).toInt else (v.extractLsb' (w * j) w).toNat

/-- The rounding functions of Table 5-3. -/
def vectorRounds : List (VectorForm × VectorForm × (Rm → FVal → FVal → FVal)) :=
  [(.vfadd, .vfaddScalar, FVal.add), (.vfsub, .vfsubScalar, fun r a b => FVal.add r a b.neg), (.vfmul, .vfmulScalar, fun _ => FVal.mul)]

/-- The selecting functions of Table 5-3. -/
def vectorSelects : List (VectorForm × VectorForm × (FVal → FVal → FVal)) :=
  [(.vfmin, .vfminScalar, FVal.minF), (.vfmax, .vfmaxScalar, FVal.maxF)]

/-- The one-operand functions of Table 5-3 with their latencies: of an element's bits. -/
def vectorOnes : List ((BitVec 2 → BitVec 4 → BitVec 5 → BitVec 3 → BitVec 3 → Instr) × Nat × (Fmt → FpMode → Nat → Nat)) :=
  [(.vfabs, 2, signElem (fun _ => false)), (.vfneg, 2, signElem (fun b => !b)), (.vexp2, 8, transcElem exp2F), (.vlog2, 8, transcElem log2F),
   (.vrcp, 8, transcElem rcpF), (.vrsqrt, 8, transcElem rsqrtF)]

/-- The fused forms of R125: whether the product and the addend are negated. -/
def vectorFused : List ((BitVec 2 → BitVec 4 → BitVec 5 → BitVec 5 → BitVec 5 → BitVec 3 → BitVec 2 → Instr) × Bool × Bool) :=
  [(.vfma, false, false), (.vfms, false, true), (.vfnma, true, false)]

/-- The integer conditions of VCMP (Table 3-4). -/
def intCond : List (BitVec 4 × (Int → Int → Prop)) :=
  [(0, fun a b => a = b), (1, fun a b => a ≠ b), (2, fun a b => a < b), (3, fun a b => a ≤ b), (4, fun a b => b < a), (5, fun a b => b ≤ a)]

/-- The mask functions of R127. -/
def maskLogic : List ((BitVec 2 → BitVec 3 → BitVec 3 → BitVec 3 → Instr) × (Mask → Mask → Mask)) :=
  [(.mand, fun a b => a &&& b), (.mor, fun a b => a ||| b), (.mxor, fun a b => a ^^^ b), (.mandn, fun a b => a &&& ~~~b)]

/-- The integer reductions of R135: identity and function; the last is VSCAN's, which gives each lane its prefix. -/
def reductions : List ((BitVec 2 → BitVec 4 → BitVec 5 → BitVec 3 → BitVec 3 → Instr) × (Bool → Int) × (Int → Int → Int) × Bool) :=
  [(.vrsum, fun _ => 0, fun a b => a + b, false), (.vrmax, fun sg => if sg then -2 ^ 31 else 0, max, false),
   (.vrmin, fun sg => if sg then 2 ^ 31 - 1 else 2 ^ 32 - 1, min, false), (.vscan, fun _ => 0, fun a b => a + b, true)]

/-- The F32 reductions of R135: lane i of cluster c from the source and the mask. -/
def floatReductions : List ((BitVec 2 → BitVec 4 → BitVec 5 → BitVec 3 → BitVec 3 → Instr) × (FpMode → Vec → Mask → Nat → Nat → FVal)) :=
  [(.vrsum, fun md x k c _ => laneNan (reduceLane md (.num true 0 0) x k c) 16 (treeF32 (reduceLane md (.num true 0 0) x k c) 4 0)),
   (.vrmax, fun md x k c _ => (List.range 16).foldl (fun v i => FVal.maxF v (reduceLane md (.inf true) x k c i)) (.inf true)),
   (.vrmin, fun md x k c _ => (List.range 16).foldl (fun v i => FVal.minF v (reduceLane md (.inf false) x k c i)) (.inf false)),
   (.vscan, fun md x k c i => laneNan (reduceLane md (.num true 0 0) x k c) (i + 1) (scanF32 (reduceLane md (.num true 0 0) x k c) (i + 1)))]

/-! ### Memory and engines (chapters 6 to 9) -/

/-- A load of n bytes at ea of a space completes: it occupies its banks, counts the errors that it corrects, and its result w lands after latency
l; where a word reads as uncorrectable, the result is poisoned and POISONREC has its origin of KIND 6 (R145, R286). -/
def Loads (i : Instr) (s : State) (sp : Space) (ea n : Nat) (l : Lat) (w : RegWrite) : Prop :=
  let bad := s.tile.readBad sp ea n
  let r := (s.reads.useBanks sp ea n (if n = 512 then 8 else 1)).modTile (fun t => t.countCorrected sp ea n)
  Completes i s (if bad then r.modCtx (fun c => c.recordPoison (poisonRecord 0 2 6 s.ctx.flow.pc)) else r) [s.reads.result 2 l w bad]
    ∧ ∃ t, exec i s = .next t ∧ SameMemory s t

/-- A store of the n low bytes of v at ea of a space completes: it occupies its banks, those bytes read as written, and no other byte of any memory
changes (R145). -/
def Stores (i : Instr) (s : State) (sp : Space) (ea n v : Nat) : Prop :=
  Completes i s ((s.reads.useBanks sp ea n (if n = 512 then 8 else 1)).modTile (fun t => t.write sp ea n v)) []
    ∧ ∃ t, exec i s = .next t ∧ SameMemoryBut s t s.tile.at' sp ea n
      ∧ ∀ k < n, t.byte s.tile.at' sp (ea + k) = BitVec.ofNat 8 (v / 2 ^ (8 * k))

/-- ea of a local form: the base and the sign-extended offset mod 2^32 (R140). -/
def localEa {w : Nat} (s : State) (b : BitVec 5) (off : BitVec w) : Nat := (s.reads.g b + BitVec.ofInt 32 off.toInt).toNat

/-- A g register without poison and without an uncorrectable error. -/
abbrev cleanG (s : State) (b : BitVec 5) : Prop := s.filesGood [.g b] ∧ (s.reads.ctx.regs.getG b).poison = false

/-- A V source without poison: its register is sound, or its feed can give a vector that has met no uncorrectable error. -/
abbrev cleanV (s : State) (a : BitVec 5) : Prop :=
  s.reads.anyPoison (srcRegs a) = false ∧ ∀ f ∈ srcPops a, ∀ v vs, (s.ctx.feeds[f]).held = v :: vs → v.poison = false

/-- A remote operation can be issued: nothing keeps the bundle, the tile may inject, and the network command queue and q3 of the tag have room (R164,
R336). -/
def Sends (s : State) (units : Nat) : Prop :=
  s.tile.life.st ≠ .quiesced ∧ ((s.tile.netq.filter (fun o => !o.performed)).length < 32) ∧ units ≤ s.tile.q3Free s.tag
    ∧ s.ctx.remote.acquire = none

/-- The address of a remote operand, h[79:0] plus ga mod 2^80 (R168), passes the checks of R517, and no TLB entry of its granules is bad. -/
def Addressed (s : State) (o : RemoteOp) (h : BitVec 3) (len align : Nat) (spaces : List Nat) : Prop :=
  s.reads.globalCheck (s.reads.h h) o.addr len align spaces false = none ∧ ∀ e ∈ s.tlbHits o, e.2.bad = false

/-- A block of 32 bytes in the scratchpad that a bundle reads at issue (R513). -/
def BlockAt (s : State) (ea : Nat) : Prop := Reaches s .spad ea 32 32 false ∧ s.tile.readBad .spad ea 32 = false

/-- The routine r that runs on the tile in focus can fetch in this cycle (R183, R191, R203): it waits for no leave, is not being saved or restored,
and no fault has ended it. -/
def Fetching (u : State) (r : MatrixRun) : Prop :=
  u.tile.mx.run = some r ∧ (∀ n, r.leave ≠ .requested n) ∧ r.fetchAt ≤ u.now ∧ r.fault = none ∧ r.saving = none ∧ r.restoring = none

/-- The running routine of the tile in focus replaced. -/
def State.running (u : State) (r : Option MatrixRun) : State := u.modTile (fun t => { t with mx := { t.mx with run := r } })

/-- Result queue q of a tag of the tile in focus can take an entry now (R158, R337). -/
def QueueRoom (u : State) (k : Tag) (q : Fin 4) : Prop := ((u.tile.ctx k).rq[q]).length < 8 ∧ ∀ p ∈ u.tile.pushes, p.tag ≠ k ∨ p.q ≠ q
/-! ### The network and the wafer -/

/-- Registers, program counters, system registers, pending writes and semaphores of a context are in y as in x. -/
def SameContext (x y : Context) : Prop := y.regs = x.regs ∧ y.flow = x.flow ∧ y.sys = x.sys ∧ y.pending = x.pending ∧ y.sems = x.sems

/-- What a program reads of its context is in t as in s, in every context of every tile. -/
def SameContexts (s t : State) : Prop := ∀ c k, SameContext ((s.tileAt c).ctx k) ((t.tileAt c).ctx k)

/-- Tag k of a tile is the incoming context, a fresh one of kernel seq, of a swap that has not been decided. -/
def Withdrawable (t : Tile) (k : Tag) (seq : Nat) : Prop :=
  (t.ctx k).life.st = .staged ∧ ∃ w, t.core.swap = some w ∧ w.decided = none ∧ w.inTag = some k ∧ freshOf w.incoming seq = true

/-- Neither a byte of memory nor what a program reads of its context differs in t. -/
def Quiet (s t : State) : Prop := SameMemory s t ∧ SameContexts s t

/-- A host-visible event counted in HSTAT (R330). -/
def State.logged (s : State) (code : BitVec 8) : State :=
  s.modWafer (fun w => { w with host := { w.host with hstatCount := min (w.host.hstatCount + 1) 65535, hstatLast := code } })

/-- The next write of the launch window's offset off carries no uncorrectable error. -/
def State.WriteGood (s : State) (off : Nat) : Prop := off ∉ s.wafer.host.regBad

/-- R331: a write of the offset off that carries an uncorrectable error is discarded and recorded in HSTAT. -/
def WriteLost (s : State) (off : Nat) (i : Instr) : Prop :=
  off ∈ s.wafer.host.regBad →
    exec i s = .next ((s.modWafer (fun w => { w with host := { w.host with regBad := w.host.regBad.filter (· ≠ off) } })).logged 0x92)

/-- The messages of t are ms and one from src to dst, at least the cycles of its way off: 2 for each link (R26, R431). -/
def State.carries (t : State) (ms : List Msg) (src dst : TileId) (body : MsgBody) : Prop :=
  ∃ m : Msg, t.wafer.net = ms ++ [m] ∧ m.src = src ∧ m.dst = dst ∧ m.body = body ∧ m.poison = false ∧ m.held = false
    ∧ t.now + max 1 (t.wafer.wayCycles src dst body) ≤ m.due ∧ (m.due, Auto.message m.serial) ∈ t.timers

/-- The messages of a state but those of serial number n. -/
def State.netBut (s : State) (n : Nat) : List Msg := s.wafer.net.filter (fun m => m.serial ≠ n)

/-- A tile may perform the next unit of a remote operation (R166): it is LIVE on the grid, the world of its memory admits the operation, its
weight store is not in WRITE mode, and the unit lies below the scratchpad's save slots. -/
def Admits (u : State) (o : RemoteOp) : Prop :=
  let a := gaOff o.addr + (if o.kind = .rget then 512 * (o.part / 8) else 0)
  u.tile.life.st = .live ∧ u.tile.at'.y < u.wafer.gridH
  ∧ (o.secure = true ∨ (u.tile.life.secure = false ∧ (gaSpace o.addr = 2 → ∀ b ∈ banksOf .wst a 512, u.tile.life.wssec.toNat.testBit b = false)))
  ∧ (gaSpace o.addr = 2 → ∀ k ∈ u.tile.kernels, k.writeMode = false) ∧ (gaSpace o.addr = 0 → a + 512 ≤ 0x1F0000)

/-- Whether an operation of the queue of the tile in focus may be injected now (R164, R333, R403). -/
def State.goes (u : State) (o : RemoteOp) : Bool :=
  o.ready && !o.injected && !o.failing && o.kind != .barrier && u.chanTurn o
  && o.after.all (fun n => u.tile.netq.all (fun x => x.serial != n || x.performed))

/-- A channel item is due and may be taken: no migration refuses its tile (R440), and no earlier item of its channel is behind it on the way (R403). -/
def ItemDue (s : State) (n : Nat) (m : Msg) : Prop :=
  s.msg? n = some m ∧ s.wafer.refuses m.dst = false
  ∧ ∀ x ∈ s.wafer.net, x.serial < m.serial → x.dst = m.dst → x.src = m.src → x.body.chanItem ≠ m.body.chanItem ∨ m.body.chanItem = none

/-- An end of a kernel's channel on the tile in focus of u has become what f makes of it; nothing else of u has changed but the message n, gone. -/
def EndBecomes (u t : State) (n kernel ch : Nat) (send : Bool) (f : ChanEnd → ChanEnd) : Prop :=
  Quiet u t ∧ t.wafer.net = u.netBut n ∧ t.tile.netq = u.tile.netq
  ∧ t.tile.stores = { u.tile.stores with chans := u.tile.stores.chans.map (fun e =>
      if e.kernel = kernel ∧ e.n = ch ∧ e.send = send then f e else e) }

/-- The fields that a write of LQCTL sets beside its command (Table 13-5). -/
def LaunchQueue.fields (x : LaunchQueue) (v : BitVec 32) : LaunchQueue :=
  { x with devApp := v.getLsbD 29, sec := v.getLsbD 28, asid := (v.extractLsb' 16 12).toNat }

/-- Queue q of t holds for record r an entry of status st that becomes due in the next cycle, with the increment of its SIG (R324). -/
def Finished (s t : State) (q : QueueId) (r : Queued) (st : Nat) : Prop :=
  ∃ d ∈ (t.queue q).due, d.seq = r.seq ∧ d.readyAt = s.now + 1
    ∧ d.sig = (if (r.record.extractLsb' 224 32).getLsbD 15 then some (r.record.extractLsb' 232 6) else none)
    ∧ ∃ e : BitVec 256, d.entry = some e ∧ e.extractLsb' 92 4 = BitVec.ofNat 4 st ∧ e.extractLsb' 0 64 = BitVec.ofNat 64 r.seq
        ∧ e.extractLsb' 192 64 = s.wafer.cycle

/-- The conditions of R320 for the head r of queue q. -/
def MayDispatch (s : State) (q : QueueId) (r : Queued) : Prop :=
  (s.wafer.kernels.filter (fun k => k.queue == q.val && k.st != .complete)).length ≤ 1
  ∧ (∀ n ∈ recWaits r.record, (recWaits r.record).count n ≤ (s.wafer.ls[n.toFin]).toNat)
  ∧ ((s.queue q).ctail - (s.queue q).chead).toNat + 3 ≤ 256
  ∧ ∀ i, s.wafer.image? (recImage r.record) = some i → ∀ c ∈ i.placed, ((s.tileAt c).kernels.filter TileKernel.holdsBanks).length ≤ 1

/-- The head of queue q has left it in t: its waits are decremented (R320). -/
def HeadTaken (s t : State) (q : QueueId) (r : Queued) : Prop :=
  (t.queue q).recs = (s.queue q).recs.tail ∧ (t.queue q).cond = none
  ∧ ∀ n : Fin 64, (t.wafer.ls[n]).toNat = (s.wafer.ls[n]).toNat - (recWaits r.record).count (BitVec.ofFin n)

/-- The record r at the head of queue q has started its kernel in t from image i (R322, R360). -/
def Started (s t : State) (q : QueueId) (r : Queued) (i : Image) : Prop :=
  Quiet s t ∧ HeadTaken s t q r ∧ t.wafer.nextOrder = s.wafer.nextOrder + 1
  ∧ (∃ k : Kernel, t.wafer.kernels = s.wafer.kernels ++ [k] ∧ k.seq = r.seq ∧ k.queue = q.val ∧ k.image = i.handle ∧ k.record = r.record
      ∧ k.asid = (s.queue q).asid ∧ k.secure = i.secure ∧ k.st = .running ∧ k.order = s.wafer.nextOrder ∧ k.faults = 0
      ∧ k.group = (if r.record.extractLsb' 448 64 = 0 then .bound else .gangWait) ∧ k.gangGrace = s.wafer.host.gangGrace ∧ k.gangChecked = false)
  ∧ (∃ d ∈ (t.queue q).due, d.seq = r.seq ∧ d.entry = none)
  ∧ ∀ c ∈ i.placed, (s.tileAt c).kernels.length < (t.tileAt c).kernels.length
      ∧ ∃ x ∈ (t.tileAt c).kernels, x.kernel = r.seq ∧ x.started = false ∧ x.order = s.wafer.nextOrder
        ∧ (r.record.extractLsb' 448 64 = 0 → ∃ n, s.now < n ∧ (n, Auto.contextLaunchStart c r.seq) ∈ t.timers)

/-- Kernel seq is ending in t with status 5 as a host or a gang ends it (R327, R378): its contexts on every tile take the cause, which a lower one held
already outranks; a swap that was to bring in a fresh one is withdrawn (R253); its grace runs. -/
def Aborting (s t : State) (seq : Nat) (code : BitVec 8) (group : GroupState) (late : Bool) : Prop :=
  SameMemory s t ∧ (∀ c k, ¬ Withdrawable (s.tileAt c) k seq → SameContext ((s.tileAt c).ctx k) ((t.tileAt c).ctx k))
  ∧ (∀ c ∈ s.tiles.map (·.at'), ∀ k : Tag, Withdrawable (s.tileAt c) k seq →
      ((t.tileAt c).ctx k).life.st = .empty ∧ (t.tileAt c).core.swap = none)
  ∧ (∀ x ∈ t.wafer.kernels, x.seq = seq → x.st = .ending ∧ x.status = 5 ∧ x.group = group ∧ x.late = late)
  ∧ (∀ c ∈ s.tiles.map (·.at'), ∀ j : Tag, let x := (s.tileAt c).ctx j
      x.life.kernel = seq → x.life.st ≠ .empty → x.life.st ≠ .killing → ¬ Withdrawable (s.tileAt c) j seq →
      ((t.tileAt c).ctx j).life.deferred = some (match x.life.deferred with
        | some old => if code.toNat < old.toNat then code else old
        | none => code))
  ∧ (∀ x ∈ t.tiles, ∀ y ∈ x.kernels, y.kernel = seq → y.started = true)
  ∧ (s.wafer.host.abortGrace = 0 → ∀ x ∈ t.wafer.kernels, x.seq = seq → x.killAt = some s.now)
  ∧ (s.wafer.host.abortGrace ≠ 0 → (s.now + s.wafer.host.abortGrace.toNat, Auto.abortGraceExpiry seq) ∈ t.timers)

/-- p is the spare that R433 chooses for coordinate c: in reach by some path of at most three links, and first in its order. -/
def Chosen (w : Wafer) (c : TileId) (failed : List (Nat × Nat)) (p : Nat × Nat) : Prop :=
  let ok (x : Nat × Nat) : Prop := x ∈ w.spares ∧ x ∉ failed ∧ ∃ n ∈ w.pathLinks c x, n ≤ 3
  ok p ∧ ∃ a, w.placeOf c = some a ∧ ∀ x, ok x → spareRank (!w.segmentBroken a) a p ≤ spareRank (!w.segmentBroken a) a x

/-- The rank of a spare for coordinate c in the order of R433. -/
def Wafer.rankAt (w : Wafer) (c : TileId) (x : Nat × Nat) : Nat :=
  let a := (w.placeOf c).getD (0, 0)
  spareRank (!w.segmentBroken a) a x

/-- No spare can take coordinate c. -/
def NoSpare (w : Wafer) (c : TileId) (failed : List (Nat × Nat)) : Prop :=
  w.placeOf c = none ∨ ∀ x ∈ w.spares, x ∈ failed ∨ ∀ n ∈ w.pathLinks c x, 3 < n

/-- What a request to move coordinate c, made by instruction i in s0, leads to from state s (R435, R438): nothing for a RETIRED or SPARE tile; a place in the order of
requests while a migration runs or the tile is not LIVE; a settling migration to the chosen spare; retirement where it is asked for or
no spare is left. -/
def Requested (i : Instr) (s0 s : State) (c : TileId) (retire : Bool) : Prop :=
  let st := (s.tileAt c).life.st
  ∃ t, exec i s0 = .next t ∧ SameMemory s t
    ∧ (st = .retired ∨ st = .spare → t = s)
    ∧ (st ≠ .retired → st ≠ .spare → (s.wafer.migration ≠ none ∨ st ≠ .live) →
        t = s.modWafer (fun w => { w with migWaiting := w.migWaiting ++ [(c, retire)] }))
    ∧ (st = .live → s.wafer.migration = none →
        (∀ p, retire = false → Chosen s.wafer c [] p → SameContexts s t ∧ (t.tileAt c).life.st = .migrating
          ∧ t.wafer.map = s.wafer.map ∧ ∃ g, t.wafer.migration = some g ∧ g.c = c ∧ g.phase = .settle ∧ g.since = s.now
            ∧ s.wafer.rankAt c (g.px, g.py) = s.wafer.rankAt c p)
        ∧ (retire = true ∨ NoSpare s.wafer c [] → (t.tileAt c).life.st = .retired ∧ t.wafer.map = s.wafer.map.filter (fun e => e.1 ≠ c)
          ∧ (∀ k, ((t.tileAt c).ctx k).life.st = .empty ∨ ((t.tileAt c).ctx k).life.st = .killing)
          ∧ t.wafer.host.migLast = 0xAB ∧ ∃ g, t.wafer.migration = some g ∧ g.c = c ∧ g.retireOnly = true ∧ g.phase = .check))

/-- What the failure of the target spare leads to (R434, R440): it is RETIRED and the migration goes on to the next spare, or is given up, its
tile LIVE, with 0xA8 and 0xAB recorded. -/
def SpareFails (i : Instr) (s : State) (g : Migration) : Prop :=
  let p := (g.px, g.py)
  let w : Wafer := { s.wafer with spares := s.wafer.spares.filter (fun x => x ≠ p) }
  ∃ t, exec i s = .next t ∧ SameMemory s t ∧ (s.wafer.migWaiting = [] → SameContexts s t) ∧ t.wafer.spares = w.spares ∧ p ∈ t.wafer.retired
    ∧ (∀ c ∈ g.region, (t.tileAt c).life.st ≠ .quiesced)
    ∧ (∀ q, Chosen w g.c (p :: g.failed) q → ∃ h, t.wafer.migration = some h ∧ h.c = g.c ∧ h.failed = p :: g.failed ∧ h.retried = false
        ∧ h.region = [] ∧ (g.phase = .settle → h.phase = .settle) ∧ (g.phase ≠ .settle → h.phase = .copy)
        ∧ s.wafer.rankAt g.c (h.px, h.py) = s.wafer.rankAt g.c q)
    ∧ (NoSpare w g.c (p :: g.failed) → s.wafer.migWaiting = [] → t.wafer.migration = none ∧ (t.tileAt g.c).life.st = .live
        ∧ t.wafer.host.migLast = 0xAB ∧ 0xA8 ∈ (t.tileAt g.c).life.causes ∧ 0xAB ∈ (t.tileAt g.c).life.causes)

/-- Message m of type typ reaches reticle r on a side and is not discarded (R454). -/
def Taken (s : State) (r : ReticleId) (side : Fin 4) (m : BitVec 512) (typ : Nat) : Prop :=
  let x := s.ret r
  x.st ≠ .reset ∧ x.st ≠ .selfTest ∧ x.st ≠ .failed ∧ (x.side[side]).discards < 3 ∧ (x.st = .probe ∨ (x.side[side]).res = .up)
  ∧ msgBad m = false ∧ msgType m = typ

/-- A message of type typ from reticle r for which p holds crosses its side in t: it arrives at the reticle beside it, later than now. -/
def Crosses (t : State) (r : ReticleId) (side : Fin 4) (typ : Nat) (p : BitVec 512 → Prop) : Prop :=
  ∃ q d m, beside r side = some q ∧ (d, Auto.cruiseMessage q (facing side) m) ∈ t.wafer.cruise.timers ∧ t.wafer.time < d
    ∧ msgType m = typ ∧ p m

/-- In t only reticle r of the cruise differs from s, and no byte of memory and no context. -/
def OnlyReticle (s t : State) (r : ReticleId) : Prop := Quiet s t ∧ ∀ q, q ≠ r → t.ret q = s.ret q

/-- Every UP side of reticle r but one carries a message of type typ with round and key for which p holds. -/
def Floods (s t : State) (r : ReticleId) (but : Option (Fin 4)) (typ : Nat) (p : BitVec 512 → Prop) : Prop :=
  ∀ k : Fin 4, ((s.ret r).side[k]).res = .up → beside r k ≠ none → some k ≠ but → Crosses t r k typ p

/-- Reticle r enters round n with a best key (R455): it is in ELECT, floods ELECT and starts its round timer. -/
def EntersRound (s t : State) (r : ReticleId) (n : BitVec 16) (best : BitVec 64) : Prop :=
  let x := t.ret r
  x.st = .elect ∧ x.round = n ∧ x.best = best ∧ x.entered = s.wafer.time ∧ x.reports = []
  ∧ (s.wafer.time + 200 * usec, Auto.roundTimer r) ∈ t.wafer.cruise.timers
  ∧ Floods t t r none 2 (fun m => msgRound m = n ∧ msgField m 16 64 = best ∧ msgKey m = x.key)

/-- The PLL of reticle r holds in t (R460): 0xB6 is recorded, its neighbours are told, a parent is selected within 40 µs, and its time runs. -/
def EntersHold (s t : State) (r : ReticleId) : Prop :=
  let x := s.ret r
  (t.ret r).clock.pll = .hold ∧ (t.ret r).clock.since = s.wafer.time ∧ (t.ret r).clock.holds.toNat = min (x.clock.holds.toNat + 1) 65535
  ∧ (t.ret r).cause = 0xB6 ∧ (s.wafer.time + 5000 * usec + 1, Auto.holdLimit r) ∈ t.wafer.cruise.timers
  ∧ (∃ d ≤ 40 * usec, (s.wafer.time + d, Auto.parentSelection r) ∈ t.wafer.cruise.timers)
  ∧ Floods s t r none 6 (fun m => msgField m 16 8 = 1)

/-- The reticle r slews to a parent (R460). -/
def Slews (s t : State) (r : ReticleId) (parent : BitVec 3) (depth : BitVec 8) : Prop :=
  OnlyReticle s t r ∧ (t.ret r).clock.pll = .slew ∧ (t.ret r).clock.parent = parent ∧ (t.ret r).clock.depth = depth
  ∧ Floods s t r none 6 (fun m => msgField m 16 8 = 2 ∧ msgField m 17 8 = depth)

/-- A re-cruise of a wafer in service, from s (R465): its kernels have completed ABORTED, nothing is in the network, OPEN queues are STOPPED, the
grid is gone; a reticle that has died is FAILED. -/
def ReCruised (s t : State) (died : Option ReticleId) : Prop :=
  ((s.wafer.kernels.map (·.seq)).Nodup → ∀ k ∈ t.wafer.kernels, k.st = .complete) ∧ t.wafer.net = [] ∧ t.wafer.migration = none
  ∧ (∀ q : QueueId, (s.queue q).st ≠ .flushing → (t.queue q).st = (if (s.queue q).st = .opened then .stopped else (s.queue q).st))
  ∧ (∀ r, died = some r → (t.ret r).st = .failed)
  ∧ (∀ k ∈ s.wafer.kernels, k.st ≠ .complete → ∃ j ∈ t.wafer.kernels, j.seq = k.seq ∧ j.status = 5)
  ∧ ∀ a, t.extByte a = s.extByte a

/-- Nothing differs in t but port p, what watches it and what was on it. -/
def OnlyPort (s t : State) (p : PortId) : Prop := Quiet s t ∧ ∀ q, q ≠ p → t.port q = s.port q

/-- A port holds a flit, to send or to send again. -/
def Port.hasFlit (x : Port) (f : BitVec 1024) : Prop := (∃ o ∈ x.sendq, o.flit = f) ∨ ∃ r ∈ x.replay, r.flit = f

/-- Port p has entered FAILED or DARK with a reason (R483, R486): its buffers are purged and no wavelength is lit. -/
def Downed (s t : State) (p : PortId) (st : PortSt) (why : BitVec 8) : Prop :=
  OnlyPort s t p ∧ (t.port p).st = st ∧ (t.port p).regs.why = why ∧ (t.port p).replay = [] ∧ (t.port p).sendq = []
  ∧ (∀ w : Fin 8, ((t.port p).waves[w]).st = .dark ∨ ((t.port p).waves[w]).st = .failed)
  ∧ ((s.port p).replay ≠ [] ∨ (s.port p).sendq ≠ [] → (t.port p).regs.purged = true)

/-- The mask of one wavelength. -/
def oneWave (w : Fin 8) : BitVec 8 := BitVec.ofNat 8 (2 ^ w.val)

/-- Only tag k of the tile in focus of u differs in t, in its debug view and what it has deferred. -/
def OnlyDebug (u t : State) (k : Tag) : Prop :=
  Quiet u t ∧ t.tile.at' = u.tile.at' ∧ ∀ j, j ≠ k → (t.tile.ctx j).dbg = (u.tile.ctx j).dbg

/-- The sum of the counters of a store. -/
def counterSum (c : Counts) : Nat := c.foldl (fun n e => n + e.2) 0

/-- A beat of a paired run and its counterpart by their key (R511). -/
def Paired (b x : PairBeat) : Prop :=
  x.here = true ∧ x.shadow ≠ b.shadow ∧ x.rx = b.rx ∧ x.ry = b.ry ∧ x.ordinal = b.ordinal

/-- Words that the spec writes out (Tables 4-3, 5-9, 6-9, 9-5, 10-7, 11-6, 12-5, 13-6, 14-6, 15-3, 16-3, 17-4, 18-3, 21-9, 22-3 and the examples of
chapters 3, 6, 7, 8 and 17), each with its slot and the instruction it stands for. -/
def workedWords : List (Fin 4 × BitVec 32 × Instr) :=
  [(0, 0x28280003, .movi 0 5 3), (0, 0x68001002, .loopi 0 0 4 2), (0, 0x04210A00, .add 0 4 4 5), (0, 0x5800000B, .call 0 0 0 11),
   (0, 0x80000191, .yield 0 100), (0, 0x84298008, .cstart 0 5 6 2), (0, 0x8800000C, .trap 0 3), (0, 0x90024014, .acrange 0 9 5),
   (0, 0x944A0008, .launch 0 9 8 2), (0, 0x983A000B, .kseqQueue 0 7 8 2), (0, 0x9C298022, .gbaseReg 0 5 6), (0, 0xA0018214, .barinit 0 6 2 5),
   (0, 0xA818001F, .chwin 0 3 7), (0, 0xAC19402A, .pgtouch 0 3 5 1 2), (0, 0xB09183F1, .lkpark 0 18 6 0xFC), (0, 0xB400C01D, .dbgmark 0 3 7),
   (1, 0x0520C000, .vadd 1 2 1 16 0 0), (1, 0x0451900A, .vor 0 5 3 4 0 0),
   (2, 0x0E430200, .vld 2 4 6 0x200), (2, 0x40071120, .rst 0 0 7 2 2 1), (2, 0x60253020, .hmsg 0 1 5 6 4), (2, 0x50E00000, .drain 0 7),
   (3, 0x04205000, .mcall 0 1 0 5), (3, 0x0C494000, .cpy 0 2 1 5), (3, 0x1820C000, .dset 0 1 3)]

end Sys2Proof.Machine

open Sys2Proof Sys2Proof.Machine

/-! ### The scalar slot (chapter 4) -/

/-- R94, Table 4-1: each two-operand function of major 0x01 completes with gd taking f(ga, gb) after its row's latency, poisoned where an
operand is (R91); nothing else changes.
R94, Table 4-1: CLZ, CTZ, POPC, BREV and BSWAP. -/
def Obligations.ScalarFunctions : Prop :=
  (∀ x ∈ scalarTwo, ∀ (s : State) (p : BitVec 2) (d a b : BitVec 5), s.Clear → s.predOn p → s.filesGood [.g a, .g b] →
       Completes (x.1 p d a b) s s.reads
         [s.reads.result 0 (.n x.2.1) (.g d (x.2.2 (s.reads.g a) (s.reads.g b))) (s.reads.anyPoison [.g a, .g b])])
  ∧ (∀ x ∈ scalarOne, ∀ (s : State) (p : BitVec 2) (d a : BitVec 5), s.Clear → s.predOn p → s.filesGood [.g a] →
       Completes (x.1 p d a) s s.reads [s.reads.result 0 (.n 1) (.g d (x.2 (s.reads.g a))) (s.reads.anyPoison [.g a])])

/-- R96, R97: the immediate forms of the ALU, and MOVI, MOVHI and LEAB, which read no register.
R98: the bit-field forms, bit by bit: the field of ga at pos with len bits, extended with its sign or with zeros; BFI replaces the field of
gd, which is a source too, by the low bits of ga. -/
def Obligations.ImmediatesAndBitFields : Prop :=
  ((∀ x ∈ scalarImm, ∀ (s : State) (p : BitVec 2) (d a : BitVec 5) (i : BitVec 14), s.Clear → s.predOn p → s.filesGood [.g a] →
       Completes (x.1 p d a i) s s.reads
         [s.reads.result 0 (.n x.2.1) (.g d (x.2.2 (s.reads.g a) (BitVec.ofInt 32 i.toInt))) (s.reads.anyPoison [.g a])])
     ∧ (∀ x ∈ scalarShift, ∀ (s : State) (p : BitVec 2) (d a n : BitVec 5), s.Clear → s.predOn p → s.filesGood [.g a] →
       Completes (x.1 p d a n) s s.reads
         [s.reads.result 0 (.n 1) (.g d (x.2 (s.reads.g a) n.toNat)) (s.reads.anyPoison [.g a])])
     ∧ ∀ (s : State) (p : BitVec 2) (d : BitVec 5) (i : BitVec 19), s.Clear → s.predOn p →
       Completes (.movi p d i) s s.reads [s.reads.result 0 (.n 1) (.g d (BitVec.ofInt 32 i.toInt)) false]
       ∧ Completes (.movhi p d i) s s.reads [s.reads.result 0 (.n 1) (.g d (BitVec.ofNat 32 (i.toNat * 2 ^ 13))) false]
       ∧ Completes (.leab p d i) s s.reads
           [s.reads.result 0 (.n 1) (.g d (BitVec.ofInt 32 ((s.ctx.flow.pc.toNat : Int) + i.toInt * 16))) false])
  ∧ (∀ (s : State) (p : BitVec 2) (d a l k : BitVec 5), s.Clear → s.predOn p → k.toNat + (l.toNat + 1) ≤ 32 →
       s.filesGood [.g a, .g d] → ∃ x y z : Word,
       (∀ i < 32, x.getLsbD i = (s.reads.g a).getLsbD (k.toNat + min i l.toNat))
       ∧ (∀ i < 32, y.getLsbD i = (decide (i ≤ l.toNat) && (s.reads.g a).getLsbD (k.toNat + i)))
       ∧ (∀ i < 32, z.getLsbD i = if k.toNat ≤ i ∧ i ≤ k.toNat + l.toNat then (s.reads.g a).getLsbD (i - k.toNat)
           else (s.reads.g d).getLsbD i)
       ∧ Completes (.bfx p d a l k) s s.reads [s.reads.result 0 (.n 1) (.g d x) (s.reads.anyPoison [.g a])]
       ∧ Completes (.bfxu p d a l k) s s.reads [s.reads.result 0 (.n 1) (.g d y) (s.reads.anyPoison [.g a])]
       ∧ Completes (.bfi p d a l k) s s.reads [s.reads.result 0 (.n 1) (.g d z) (s.reads.anyPoison [.g a, .g d])])

/-- R99: SETP and SETPI write pd with the condition, combined with the old pd as cb says; the old pd counts for poison only where it is read. -/
def Obligations.Compares : Prop :=
  ∀ c ∈ setpCond, ∀ m ∈ setpCombine, ∀ (s : State) (p : BitVec 2) (d : BitVec 3) (a b : BitVec 5) (i : BitVec 10),
    s.Clear → s.predOn p → s.filesGood [.g a, .g b, .p d] →
    Completes (.setp p d m.1 a b c.1) s s.reads
      [s.reads.result 0 (.n 1) (.p d (m.2.1 (s.reads.p d) (c.2 (s.reads.g a) (s.reads.g b))))
        (s.reads.anyPoison [.g a, .g b] || (m.2.2 && s.reads.anyPoison [.p d]))]
    ∧ Completes (.setpi p d m.1 a c.1 i) s s.reads
      [s.reads.result 0 (.n 1) (.p d (m.2.1 (s.reads.p d) (c.2 (s.reads.g a) (BitVec.ofInt 32 i.toInt))))
        (s.reads.anyPoison [.g a] || (m.2.2 && s.reads.anyPoison [.p d]))]

/-- R100, R101: predicate logic with inverted operands, and its function 11, which is reserved; and SEL, whose result is poisoned by any of its
three operands. -/
def Obligations.PredicateLogicAndSelect : Prop :=
  (∀ x ∈ plog, ∀ (s : State) (p : BitVec 2) (d a b : BitVec 3) (ia ib : BitVec 1), s.Clear → s.predOn p → s.filesGood [.p a, .p b] →
    Completes (x.1 p d a b ia ib) s s.reads
      [s.reads.result 0 (.n 1) (.p d (x.2 (s.reads.p a != (ia == 1)) (s.reads.p b != (ib == 1)))) (s.reads.anyPoison [.p a, .p b])])
  ∧ (∀ w : BitVec 32, w.toNat / 2 ^ 26 = 0x12 → w.toNat % 4 = 3 → decodeSlot 0 w = .error 1)
  ∧ ∀ (s : State) (p : BitVec 2) (d a b : BitVec 5) (c : BitVec 3) (v : BitVec 1), s.Clear → s.predOn p →
    s.filesGood [.g a, .g b, .p c] →
    Completes (.sel p d a b c v) s s.reads
      [s.reads.result 0 (.n 1) (.g d (if s.reads.p c != (v == 1) then s.reads.g a else s.reads.g b))
        (s.reads.anyPoison [.g a, .g b, .p c])]

/-! ### Bundles, control flow, semaphores, system registers (chapters 3 and 4) -/

/-- R63, R66: a NOP issues with no effect; a header alone issues when each active wait's semaphore covers the active waits that name it,
and takes one for each.
R78, R79: a reserved encoding, whatever its predicate, poisons the default destination of its class after 1 bundle, 2 in class V, and
is the origin that POISONREC holds if it held none; where that destination is g0 the bundle traps with 0x01.
Rests on the model's own reading or choice where log 20 says so. -/
def Obligations.EmptyAndReservedSlots : Prop :=
  ((∀ s : State, s.Clear → Completes .nop s s.reads [])
     ∧ ∀ (s : State) (w x : BitVec 1) (a b : BitVec 5) (r i : BitVec 3) (l : BitVec 9), s.Clear →
       (w = 1 → (if x = 1 ∧ a = b then 2 else 1) ≤ s.ctx.sems.val a) → (x = 1 → (if w = 1 ∧ a = b then 2 else 1) ≤ s.ctx.sems.val b) →
       Completes (.header w a x b r i l) s (s.reads.modCtx (fun c =>
         let c := if w = 1 then { c with sems := c.sems.take a 1 } else c
         if x = 1 then { c with sems := c.sems.take b 1 } else c)) [])
  ∧ (∀ (s : State) (k : Fin 4) (w : BitVec 32) (kind : BitVec 5), s.Clear → s.ctx.sys.inHandler = false → ∀ v, (s.program.bind (·.vector)) = some v →
       let r := s.reads.modCtx (fun c => c.recordPoison (poisonRecord w k.val kind s.ctx.flow.pc))
       (k = 1 → Completes (.reservedEncoding k w kind) s r [r.result 1 (.n 2) (.v (w.extractLsb' 20 4) 0 fullMask true) true])
       ∧ (k = 3 → Completes (.reservedEncoding k w kind) s r [r.result 3 (.n 1) (.x (w.extractLsb' 21 3) 0) true])
       ∧ (k = 0 ∨ k = 2 → w.extractLsb' 19 5 ≠ 0 →
           Completes (.reservedEncoding k w kind) s r [r.result k.val (.n 1) (.g (w.extractLsb' 19 5) 0) true])
       ∧ (k = 0 ∨ k = 2 → w.extractLsb' 19 5 = 0 → ∃ t, exec (.reservedEncoding k w kind) s = .next t ∧ t.ctx.sys.inHandler = true
           ∧ t.ctx.sys.cause = 0x01 ∧ t.ctx.sys.poisonRec = (s.ctx.recordPoison (poisonRecord w k.val kind s.ctx.flow.pc)).sys.poisonRec))

/-- R102, R103: a transfer that is taken goes to its target after one delay bundle and links if it is a call; one that is not taken does nothing.
The target is a bundle of the window (R62).
R62: a transfer that is taken to an address that is no multiple of 16 traps with 0x21, and to one outside the window with 0x20; it then
commits nothing: no register but EPC and CAUSE changes beyond the writes that were pending.
Rests on the model's own reading or choice where log 17 says so. -/
def Obligations.ControlTransfers : Prop :=
  (∀ (s : State) (p : BitVec 2) (v : BitVec 1) (c : BitVec 3), s.Clear → s.predOn p → s.filesGood [.p c] → (s.reads.ctx.regs.getP c).poison = false →
       let target (t : Int) : Prop := t % 16 = 0 ∧ 0 ≤ t ∧ t < 16 * s.windowLen
       if s.reads.p c != (v == 1) then
         (∀ x ∈ relTransfers, ∀ o : BitVec 20, target ((s.ctx.flow.pc.toNat : Int) + o.toInt * 16) →
           Transfers (x.1 p v c o) s (BitVec.ofInt 32 ((s.ctx.flow.pc.toNat : Int) + o.toInt * 16)) x.2 0)
         ∧ (∀ x ∈ regTransfers, ∀ a : BitVec 5, s.filesGood [.g a] → (s.reads.ctx.regs.getG a).poison = false → target (s.reads.g a).toNat →
           Transfers (x.1 p v c a) s (s.reads.g a) x.2 0)
         ∧ (s.filesGood [.g 31] → (s.reads.ctx.regs.getG 31).poison = false → target (s.reads.g 31).toNat →
           Transfers (.ret p v c) s (s.reads.g 31) false 1)
       else
         (∀ x ∈ relTransfers, ∀ o : BitVec 20, Completes (x.1 p v c o) s s.reads [])
         ∧ (∀ x ∈ regTransfers, ∀ a : BitVec 5, Completes (x.1 p v c a) s s.reads [])
         ∧ Completes (.ret p v c) s s.reads [])
  ∧ (∀ (s : State) (p : BitVec 2) (v : BitVec 1) (c : BitVec 3) (a : BitVec 5), s.Clear → s.predOn p → s.filesGood [.p c, .g a] →
       (s.reads.ctx.regs.getP c).poison = false → (s.reads.ctx.regs.getG a).poison = false → (s.reads.p c != (v == 1)) = true →
       s.ctx.sys.inHandler = false → ∀ n, (s.program.bind (·.vector)) = some n →
       ∀ code : BitVec 8, (if (s.reads.g a).toNat % 16 ≠ 0 then code = 0x21 else 16 * s.windowLen ≤ (s.reads.g a).toNat ∧ code = 0x20) →
       ∀ i ∈ [Instr.brr p v c a, .callr p v c a], ∃ t, exec i s = .next t ∧ t.ctx.sys.cause = code ∧ t.ctx.sys.inHandler = true
         ∧ t.ctx.sys.epc = s.ctx.flow.npc.extractLsb' 4 14 ++ s.ctx.flow.pc.extractLsb' 4 14 ++ (0b0001#4)
         ∧ t.ctx.flow.pc = BitVec.ofNat 32 (16 * n) ∧ t.ctx.regs = (s.ctx.landedAll).regs)

/-- R106: LOOP and LOOPI outside a handler start level l with the count and the body of len bundles after their own.
R107: how a context's counters advance at a bundle: with a taken transfer the PC after the next is its target; the highest active level
whose end the bundle stands at, outside a delay bundle and a handler, goes back while its count is above 1 and falls at 1; a loop with a
count starts at the next bundle.
Rests on the model's own reading or choice where log 17 says so. -/
def Obligations.LoopsAndAdvance : Prop :=
  (∀ (s : State) (p l : BitVec 2), s.Clear → s.predOn p → s.ctx.sys.inHandler = false →
       (∀ (a : BitVec 5) (n : BitVec 14), s.filesGood [.g a] → (s.reads.ctx.regs.getG a).poison = false →
         (s.ctx.flow.advance false none (some (Fin.ofNat 4 l.toNat, s.reads.g a, n.toNat))).pc.toNat < 16 * s.windowLen →
         CompletesWith (.loop p l a n) s s.reads none (some (Fin.ofNat 4 l.toNat, s.reads.g a, n.toNat)) [])
       ∧ ∀ (c : BitVec 12) (n : BitVec 10),
         (s.ctx.flow.advance false none (some (Fin.ofNat 4 l.toNat, c.setWidth 32, n.toNat))).pc.toNat < 16 * s.windowLen →
         CompletesWith (.loopi p l c n) s s.reads none (some (Fin.ofNat 4 l.toNat, c.setWidth 32, n.toNat)) [])
  ∧ ((∀ (f : Flow) (q : Bool) (t : BitVec 32), (f.advance q (some t) none).npc = t ∧ (f.advance q (some t) none).indelay = true
         ∧ (f.advance q none none).indelay = false)
     ∧ (∀ (f : Flow) (q : Bool), (f.indelay = true ∨ q = true ∨ ∀ k : Fin 4, f.loops[k].active = false ∨ f.loops[k].stop ≠ f.pc) →
         (f.advance q none none).pc = f.npc ∧ (f.advance q none none).npc = f.npc + 16 ∧ (f.advance q none none).loops = f.loops)
     ∧ (∀ (f : Flow) (k : Fin 4), f.indelay = false → f.loops[k].active = true → f.loops[k].stop = f.pc → 1 < f.loops[k].cnt.toNat →
         (∀ j : Fin 4, k < j → f.loops[j].active = false ∨ f.loops[j].stop ≠ f.pc) →
         (f.advance false none none).pc = f.loops[k].start ∧ (f.advance false none none).npc = f.loops[k].start + 16
         ∧ (f.advance false none none).loops[k].cnt = f.loops[k].cnt - 1 ∧ (f.advance false none none).loops[k].active = true
         ∧ ∀ j : Fin 4, j ≠ k → (f.advance false none none).loops[j] = f.loops[j])
     ∧ (∀ (f : Flow) (k : Fin 4), f.indelay = false → f.loops[k].active = true → f.loops[k].stop = f.pc → f.loops[k].cnt.toNat ≤ 1 →
         (∀ j : Fin 4, k < j → f.loops[j].active = false ∨ f.loops[j].stop ≠ f.pc) →
         (f.advance false none none).loops[k].active = false)
     ∧ ∀ (f : Flow) (l : Fin 4) (c : Word) (n : Nat), c ≠ 0 →
         (f.advance false none (some (l, c, n))).loops[l]
           = { active := true, start := f.pc + 16, stop := f.pc + BitVec.ofNat 32 (16 * n), cnt := c })

/-- R110 to R112: WAIT issues when its semaphore is at least n and takes n; SIG adds n for the next cycle where the sum stays within 65,535, and
traps with 0x60 where it does not. -/
def Obligations.Semaphores : Prop :=
  ∀ (s : State) (p : BitVec 2) (k : BitVec 5) (n : BitVec 16), s.Clear → s.predOn p →
    (n.toNat ≤ s.ctx.sems.val k → Completes (.wait p k n) s (s.reads.modCtx (fun c => { c with sems := { c.sems with
        s := c.sems.s.set k.toNat (BitVec.ofNat 16 (s.ctx.sems.val k - n.toNat)) k.isLt } })) [])
    ∧ (s.ctx.sems.val k + n.toNat ≤ 65535 → Completes (.sig p k n) s (s.reads.modCtx (fun c => { c with sems := { c.sems with
        inc := c.sems.inc.set k.toNat (c.sems.inc[k.toNat]'k.isLt + n.toNat) k.isLt } })) [])
    ∧ (65535 < s.ctx.sems.val k + n.toNat → s.ctx.sys.inHandler = false → ∀ v, (s.program.bind (·.vector)) = some v →
        ∃ t, exec (.sig p k n) s = .next t ∧ t.ctx.sys.cause = 0x60 ∧ t.ctx.sems = s.ctx.sems)

/-- R113, R115, Table 4-8: MOVS writes gd with the register and no poison; CYCLELO also puts CYCLE[63:32] into CYCLEHS.
R42, R79, R111, R113: SMOV writes the registers that Table 4-8 marks RW, each as its chapter gives: FPC keeps reserved modes out and sets
SRSTEP to 0, EPC clears EPCDELAY, DONEMASK keeps four bits, a zero to POISONLO clears POISONREC, a semaphore takes its value at
the end of the cycle. -/
def Obligations.SystemRegisters : Prop :=
  (∀ (s : State) (p : BitVec 2) (d : BitVec 5), s.Clear → s.predOn p →
       (∀ x ∈ sysValues s, Completes (.movs p d x.1) s s.reads [s.reads.result 0 (.n 1) (.g d x.2) false])
       ∧ Completes (.movs p d 0x10) s (s.reads.modCtx (fun c => { c with sys := { c.sys with cycleHs := s.cycle.extractLsb' 32 32 } }))
           [s.reads.result 0 (.n 1) (.g d (s.cycle.extractLsb' 0 32)) false])
  ∧ (∀ (s : State) (p : BitVec 2) (a : BitVec 5), s.Clear → s.predOn p → s.filesGood [.g a] → (s.reads.ctx.regs.getG a).poison = false →
       let w := s.reads.g a
       let wrote (f : SysRegs → SysRegs) : State := s.reads.modCtx (fun c => { c with sys := f c.sys })
       Completes (.smov p a 0x00) s (wrote (fun q => { q with fpc := fpcWrite q.fpc w, srstep := 0 })) []
       ∧ Completes (.smov p a 0x01) s (wrote (fun q => { q with srstep := w })) []
       ∧ Completes (.smov p a 0x03) s (wrote (fun q => { q with epc := w, epcDelay := false })) []
       ∧ Completes (.smov p a 0x04) s (wrote (fun q => { q with doneMask := w.extractLsb' 0 4 })) []
       ∧ Completes (.smov p a 0x05) s (wrote (fun q => if w = 0 then { q with poisonRec := 0 } else q)) []
       ∧ ∀ k : Fin 32, Completes (.smov p a (BitVec.ofNat 10 (0x40 + k.val))) s (s.reads.modCtx (fun c =>
           { c with sems := { c.sems with put := c.sems.put ++ [(BitVec.ofNat 5 k.val, w.extractLsb' 0 16)] } })) [])

/-! ### Contexts, traps, containment (chapters 10 and 11) -/

/-- R270 to R273: PARK, once the context's commands, operations and outlets are done, lands its pending writes, makes its ports idle and leaves
its seat, DORMANT if the context is armed, else with its tag EMPTY; YIELD leaves the seat READY, or BLOCKED until CYCLE is n + 1
past its own; ARM and SPRIO leave their effect to the end of the cycle.
Rests on the model's own reading or choice where log 17 says so. -/
def Obligations.ParkYieldArmPrio : Prop :=
  ∀ (s : State) (p : BitVec 2) (n : BitVec 12), s.Clear → s.predOn p →
    (s.reads.holds .parkReady = true →
      (s.ctx.sys.armed = true → ∃ t, exec (.park p) s = .next t ∧ SameMemory s t ∧ t.ctx.life.st = .dormant
        ∧ t.tile.core.seatOf s.tag = none ∧ t.ctx.pending = [] ∧ t.ctx.regs = s.ctx.landedAll.regs ∧ t.ctx.portsIdle = true
        ∧ t.ctx.flow = s.ctx.flow.advance s.ctx.sys.inHandler none none)
      ∧ (s.ctx.sys.armed = false → ∃ t, exec (.park p) s = .next t ∧ SameMemory s t ∧ t.ctx = {} ∧ t.ctx.life.st = .empty
        ∧ t.tile.core.seatOf s.tag = none ∧ EndAct.fold s.tag ∈ t.tile.core.atEnd))
    ∧ (let until' := if n = 0 then none else some (s.cycle + n.setWidth 64 + 1)
       Completes (.yield p n) s ((s.reads.modCtx (fun c => { c with life := { c.life with waits := [], yieldUntil := until' } })).leaveSeat
         (if n = 0 then .ready else .blocked)) [])
    ∧ Completes (.arm p n) s (s.reads.atEnd (.arm s.tag (n == 1))) []
    ∧ Completes (.sprio p n) s (s.reads.atEnd (.prio s.tag (n.setWidth 2))) []

/-- R274: CSTART of a number that no context of the tile holds gives the lowest free tag to a fresh READY context of the same kernel at ga, with
the starter's priority; of a HALTED one makes it READY; CSTOP leaves the halt of one that is READY, ISSUING or BLOCKED, and CKILL the kill of
one that may be killed, to the end of the cycle. gd takes the state found, before a handler start or a displacement of the cycle (R254), and DONE
in bit 31. A context of another kernel or world is left alone and gd takes 0x10.
Rests on the model's own reading or choice where log 144 says so. -/
def Obligations.ContextControl : Prop :=
  ∀ (s : State) (p : BitVec 2) (d a : BitVec 5) (n : BitVec 12) (m : Fin 4), s.Clear → s.predOn p → s.ctx.life.st = .issuing →
    m.val = n.toNat % 4 →
    let gd (w : Word) : List Pending := [s.reads.result 0 (.n 1) (.g d w) false]
    let found (k : Tag) : CtxState := if s.tile.core.log.begun.any (·.1 == k) then .dormant
      else if s.tile.core.log.displaced = some k then .issuing else (s.tile.ctx k).life.st
    (s.reads.foreign m = true →
      (s.filesGood [.g a] → (s.reads.ctx.regs.getG a).poison = false → Completes (.cstart p d a n) s s.reads (gd 0x10))
      ∧ Completes (.cstop p d n) s s.reads (gd 0x10) ∧ Completes (.ckill p d n) s s.reads (gd 0x10))
    ∧ (s.filesGood [.g a] → (s.reads.ctx.regs.getG a).poison = false → (s.reads.g a).toNat % 16 = 0 →
        (s.reads.g a).toNat < 16 * s.windowLen →
      (s.tile.numbered m = none → ∀ k, s.tile.freeTag = some k →
        Completes (.cstart p d a n) s
          (s.reads.giveTag k (freshContext s.ctx.life.kernel s.ctx.life.secure (s.reads.g a) s.ctx.sys.prio .ready (some m)))
          (gd 0x80000000))
      ∧ (s.tile.numbered m = none → s.tile.freeTag = none → Completes (.cstart p d a n) s s.reads (gd 0))
      ∧ ∀ k, s.tile.numbered m = some k → s.reads.foreign m = false →
        if (s.tile.ctx k).life.st = .halted then
          Completes (.cstart p d a n) s (s.reads.modTile (fun t => t.modCtx k (fun c => { c with life := { c.life with st := .ready } })))
            (gd (BitVec.ofNat 32 (2 ^ 31 + (found k).code)))
        else Completes (.cstart p d a n) s s.reads (gd (BitVec.ofNat 32 (found k).code)))
    ∧ (s.tile.numbered m = none → Completes (.cstop p d n) s s.reads (gd 0) ∧ Completes (.ckill p d n) s s.reads (gd 0))
    ∧ ∀ k, s.tile.numbered m = some k → s.reads.foreign m = false →
      let st := found k
      (if st = .ready ∨ st = .issuing ∨ st = .blocked then
          Completes (.cstop p d n) s (s.reads.atEnd (.halt k)) (gd (BitVec.ofNat 32 (2 ^ 31 + st.code)))
        else Completes (.cstop p d n) s s.reads (gd (BitVec.ofNat 32 st.code)))
      ∧ (if st = .dormant ∨ st = .ready ∨ st = .issuing ∨ st = .blocked ∨ st = .halted ∨ st = .faulted then
          Completes (.ckill p d n) s (s.reads.atEnd (.killBegin k (if k = s.tag then none else some s.tag) false))
            (gd (BitVec.ofNat 32 (2 ^ 31 + st.code)))
        else Completes (.ckill p d n) s s.reads (gd (BitVec.ofNat 32 st.code)))

/-- R278, R283, R284: TRAP issues, and the context then takes trap 0x08 + n at the next bundle: EPC holds both program counters and fault mask 0,
pending writes land, and the handler starts no sooner than 4 cycles later; RETT in a handler goes on at the counters of EPC with the
delay bit that was kept, and outside a handler traps with 0x03; one whose EPC.PC lies outside the window (R62) is a double fault (R280).
Rests on the model's own reading or choice where log 17, 18 say so. -/
def Obligations.TrapAndReturn : Prop :=
  ∀ (s : State) (p : BitVec 2) (n : BitVec 12), s.Clear → s.predOn p →
    (∀ v, (s.program.bind (·.vector)) = some v → s.ctx.sys.inHandler = false →
      let f := s.ctx.flow.advance false none none
      (∃ t, exec (.trap p n) s = .next t ∧ SameMemory s t ∧ t.ctx.sys.inHandler = true ∧ t.ctx.sys.cause = 0x08 + n.setWidth 8
        ∧ t.ctx.sys.epc = f.npc.extractLsb' 4 14 ++ f.pc.extractLsb' 4 14 ++ (0#4) ∧ t.ctx.sys.epcDelay = f.indelay
        ∧ t.ctx.regs = s.ctx.landedAll.regs ∧ t.ctx.pending = [] ∧ t.ctx.flow.loops = f.loops
        ∧ t.ctx.flow.pc = BitVec.ofNat 32 (16 * v) ∧ t.ctx.flow.npc = BitVec.ofNat 32 (16 * v) + 16 ∧ t.ctx.flow.indelay = false
        ∧ s.now + 4 ≤ t.ctx.life.resumeAt ∧ lastArrival s.ctx.pending < t.ctx.life.resumeAt)
      ∧ ∃ t, exec (.rett p) s = .next t ∧ SameMemory s t ∧ t.ctx.sys.cause = 0x03 ∧ t.ctx.sys.inHandler = true)
    ∧ (s.ctx.sys.inHandler = true → 16 * s.windowLen ≤ 16 * (s.ctx.sys.epc.extractLsb' 4 14).toNat →
      ∃ t, exec (.rett p) s = .next t ∧ SameMemory s t ∧ t.ctx.life.st = .faulted ∧ t.ctx.sys.cause = 0 ∧ t.ctx.sys.inHandler = true
        ∧ t.ctx.sys.epc = s.ctx.sys.epc ∧ t.tile.core.seatOf s.tag = none)
    ∧ (s.ctx.sys.inHandler = true → 16 * (s.ctx.sys.epc.extractLsb' 4 14).toNat < 16 * s.windowLen →
      ∃ t, exec (.rett p) s = .next t ∧ SameMemory s t ∧ t.ctx.sys.inHandler = false ∧ t.ctx.regs = s.reads.ctx.regs
        ∧ t.ctx.flow.pc = (0#14 ++ s.ctx.sys.epc.extractLsb' 4 14 ++ 0#4 : BitVec 32)
        ∧ t.ctx.flow.npc = (0#14 ++ s.ctx.sys.epc.extractLsb' 18 14 ++ 0#4 : BitVec 32)
        ∧ t.ctx.flow.indelay = s.ctx.sys.epcDelay ∧ t.ctx.flow.loops = s.ctx.flow.loops ∧ t.ctx.sys.epc = s.ctx.sys.epc)

/-- R288, R290, R293: CTOPEN takes g and p as it reads them and its target into the checkpoint and opens the region, which no command of an earlier
one then belongs to; CTCLOSE closes it; SEGCHK of a segment whose length and CRC-32C the observation meets issues and the observation
starts again, and one that they do not meet traps with 0xA2 or 0xA3. -/
def Obligations.ContainmentAndSegments : Prop :=
  ∀ (s : State) (p : BitVec 2) (o : BitVec 12), s.Clear → s.predOn p →
    (let t := (s.ctx.flow.pc.toNat : Int) + o.toInt * 16
     t % 16 = 0 → 0 ≤ t → t < 16 * s.windowLen →
      Completes (.ctopen p o) s ((s.reads.modTile (fun x => x.outOfRegion s.tag)).modCtx (fun c =>
        { c with ckpt := { opened := true, g := s.reads.ctx.regs.g, p := s.reads.ctx.regs.p, handler := BitVec.ofInt 32 t } })) [])
    ∧ Completes (.ctclose p) s (s.reads.modCtx (fun c => { c with ckpt := { c.ckpt with opened := false } })) []
    ∧ (s.reads.holds .segSpaced = true → ∀ first len crc, s.segments[o.toNat]? = some (first, len, crc) →
      (s.ctx.segN.toNat = len → s.ctx.segC ^^^ 0xFFFFFFFF = crc → Completes (.segchk p o) s s.reads []
        ∧ (s.ctx.sys.inHandler = false → ∃ t, exec (.segchk p o) s = .next t ∧ t.ctx.segN = 0 ∧ t.ctx.segC = 0xFFFFFFFF))
      ∧ (s.ctx.sys.inHandler = false → ∀ v, (s.program.bind (·.vector)) = some v →
        (s.ctx.segN.toNat ≠ len → ∃ t, exec (.segchk p o) s = .next t ∧ t.ctx.sys.cause = 0xA2)
        ∧ (s.ctx.segN.toNat = len → s.ctx.segC ^^^ 0xFFFFFFFF ≠ crc → ∃ t, exec (.segchk p o) s = .next t ∧ t.ctx.sys.cause = 0xA3)))

/-! ### Accounts, queues, kernels, groups, barriers, colours (chapters 6, 12 to 16) -/

/-- R311 to R315: ACRANGE of a legal range leaves it to the end of the cycle; ACREAD reads a counter of the snapshot, zero of an invisible account,
and only a poisoned address poisons it; ACREAD.snap leaves the snapshot to the end of the cycle and gives CYCLE[31:0]; ACREAD.el
gives half of the snapshot's elapsed count; ACLOOP gives a live loop counter, and with clr sets it to zero; ACCLR folds the tag's account.
Rests on the model's own reading or choice where log 139 says so. -/
def Obligations.Accounts : Prop :=
  ∀ (s : State) (p : BitVec 2) (d a : BitVec 5), s.Clear → s.predOn p →
    (∀ n : BitVec 6, s.filesGood [.g a] → (s.reads.ctx.regs.getG a).poison = false →
      let lo := ((s.reads.g a).extractLsb' 0 15).toNat
      let hi := ((s.reads.g a).extractLsb' 16 15).toNat
      (s.reads.g a).getLsbD 15 = false → (s.reads.g a).getLsbD 31 = false → lo ≤ hi → hi ≤ 16384 →
      (lo < hi → ∀ r ∈ s.tile.acct.ranges[s.tag], r.1 ≠ n.toNat → r.2.1 < r.2.2 → hi ≤ r.2.1 ∨ r.2.2 ≤ lo) →
      Completes (.acrange p a n) s (s.reads.atEnd (.range s.tag n.toNat lo hi)) [])
    ∧ (s.filesGood [.g a] → (s.reads.ctx.regs.getG a).poison = false → (s.reads.g a).toNat < 0x9000 →
      let w := s.reads.g a
      let v := if s.reads.acctVisible (w.extractLsb' 12 4).toNat then
        s.tile.acct.snap.at (acctKey (w.extractLsb' 12 4).toNat (w.extractLsb' 6 6).toNat (w.extractLsb' 1 5).toNat) else 0
      Completes (.acread p d a) s s.reads
        [s.reads.result 0 (.n 1) (.g d (BitVec.ofNat 32 (if w.getLsbD 0 then v / 2 ^ 32 else v))) false])
    ∧ (s.filesGood [.g a] → (s.reads.ctx.regs.getG a).poison = true →
      ∃ w, Completes (.acread p d a) s s.reads [s.reads.result 0 (.n 1) (.g d w) true])
    ∧ Completes (.acreadSnap p d) s (s.reads.atEnd .snapshot) [s.reads.result 0 (.n 1) (.g d (s.cycle.setWidth 32)) false]
    ∧ (∀ h : BitVec 1, Completes (.acreadEl p d h) s s.reads
        [s.reads.result 0 (.n 1) (.g d (s.tile.acct.snapElapsed.extractLsb' (32 * h.toNat) 32)) false])
    ∧ (∀ (c t : BitVec 1) (k l : BitVec 2), (c = 1 → (s.ctx.flow.loops[k.toNat]'k.isLt).active = false) →
      let key := s.tag.val * 32 + k.toNat * 8 + l.toNat * 2 + t.toNat
      Completes (.acloop p d c t k l) s s.reads
        [s.reads.result 0 (.n 1) (.g d (BitVec.ofNat 32 (s.tile.acct.loops.at key))) false]
      ∧ (c = 1 → s.ctx.sys.inHandler = true → ∃ t', exec (.acloop p d c t k l) s = .next t'
        ∧ t'.tile.acct.loops = s.tile.acct.loops.put key 0))
    ∧ Completes (.acclr p) s (s.reads.modTile (fun t => { t with acct := t.acct.fold s.tag })) []

/-- R339 to R342: LAUNCH appends the record at ga with the next kernel sequence number and gives its low word, once every earlier access is
performed; QSTAT gives LQSTAT as at the start of the cycle, and 0 of a secure queue to a non-secure context; QSTAT.ls a launch
semaphore; QPRIO leaves its change to the end of the cycle; QCANCEL takes the records that contexts of the kernel launched and that are not dispatched
out of the queue and gives their number.
Rests on the model's own reading or choice where log 58, 59, 60 say so. -/
def Obligations.Queues : Prop :=
  ∀ (s : State) (p : BitVec 2) (d a : BitVec 5) (q : BitVec 4), s.Clear → s.predOn p →
    let open' : Prop := ((s.queue q.toFin).st = .opened ∨ (s.queue q.toFin).st = .stopped) ∧ (s.queue q.toFin).devApp = true
      ∧ (s.queue q.toFin).sec = s.ctx.life.secure
    let status : Word := match (s.queue q.toFin).was with
      | some (n, w) => if n = s.now then w else s.wafer.lqstat q.toFin
      | none => s.wafer.lqstat q.toFin
    let ea := (s.reads.g a).toNat
    let rec' : BitVec 512 := BitVec.ofNat 512 (s.tile.read .spad ea 64)
    (s.filesGood [.g a] → (s.reads.ctx.regs.getG a).poison = false → Reaches s .spad ea 64 64 false →
      s.tile.readBad .spad ea 64 = false → s.tile.performedAt s.tag 6 = true → open' → recMalformed rec' = false → (s.queue q.toFin).full = false →
      Completes (.launch p d a q) s
        (((s.reads.useBanks .spad ea 64 1).modTile (fun t => t.countCorrected .spad ea 64)).keepStat q.toFin
          |>.append q.toFin rec' (some s.ctx.life.kernel) false)
        [s.reads.result 0 (.n 1) (.g d (BitVec.ofNat 32 s.wafer.nextSeq)) false])
    ∧ Completes (.qstat p d q) s s.reads
        [s.reads.result 0 (.n 1) (.g d (if (s.queue q.toFin).sec && !s.ctx.life.secure then 0 else status)) false]
    ∧ (∀ n : BitVec 6, Completes (.qstatLs p d n) s s.reads [s.reads.result 0 (.n 1) (.g d (0#16 ++ s.wafer.ls[n.toFin])) false])
    ∧ (∀ e n : BitVec 2, Completes (.qprio p d e n) s (s.reads.atEnd (.reprio s.tag e n d s.ctx.serial)) [])
    ∧ (open' → ∃ t, exec (.qcancel p d q) s = .next t ∧ SameMemory s t ∧
        let mine (r : Queued) : Bool := r.byKernel == some s.ctx.life.kernel
          && !((s.queue q.toFin).cond.isSome && ((s.queue q.toFin).recs.take 1).any (fun x => x.seq == r.seq))
        (t.queue q.toFin).recs = (s.queue q.toFin).recs.filter (fun r => !mine r)
        ∧ s.reads.result 0 (.n 1) (.g d (BitVec.ofNat 32 ((s.queue q.toFin).recs.filter mine).length)) false ∈ t.ctx.pending)

/-- R365 to R368: BANKREL of units that the kernel holds or claims, and KEND where no other context of the kernel is on the tile, leave the
release to the end of the cycle once the kernel's commands and ports are done; BANKTST gives the held and claimed units; KSEQ
the kernel's own number or the one that last completed from a queue. R361: a unit whose zeroing has ended is HELD.
Rests on the model's own reading or choice where log 66, 67 say so. -/
def Obligations.KernelInstructions : Prop :=
  (∀ (s : State) (u : Nat) (x : TileKernel) (l r : List TileKernel), s.tile.kernels = l ++ x :: r → (∃ n ≤ s.now, assocGet x.units u = some (.zeroing n)) →
    (∀ y ∈ l ++ r, ∀ n, assocGet y.units u ≠ some (.zeroing n)) →
    exec (.unitZeroingDone s.tile.at' u) s = .next (s.modTile (fun t =>
      { t with kernels := l ++ { x with units := assocPut x.units u .held } :: r })))
  ∧ ∀ (s : State) (p : BitVec 2) (d a : BitVec 5), s.Clear → s.predOn p →
    let k := s.ctx.life.kernel
    (s.filesGood [.g a] → (s.reads.ctx.regs.getG a).poison = false →
      (s.reads.g a ≠ 0 → s.reads.holds .kernelQuiet = true) →
      ((s.reads.g a).toNat < 0x10000 → (∀ u ∈ maskUnits (s.reads.g a) 0 16, s.tile.unitForeign k u = false) →
        Completes (.bankrel p a) s (s.reads.atEnd (.release k (maskUnits (s.reads.g a) 0 16))) [])
      ∧ ∀ h : BitVec 1, (∀ u ∈ maskUnits (s.reads.g a) (16 + 32 * h.toNat) 32, s.tile.unitForeign k u = false) →
        Completes (.bankrelAcc p a h) s (s.reads.atEnd (.release k (maskUnits (s.reads.g a) (16 + 32 * h.toNat) 32))) [])
    ∧ (s.reads.holds .kernelQuiet = true → (∀ g ∈ s.tile.tagsOf k, g = s.tag) → ∃ us, Completes (.kend p) s (s.reads.atEnd (.release k us)) []
        ∧ ∀ x, s.tile.kernels.find? (fun e => e.kernel == k) = some x →
          ∀ u : Nat × UnitState, u ∈ x.units → (u.2 ≠ .released → u.1 ∈ us))
    ∧ (let held (u : Nat) : Bool := s.tile.unitState k u == some .held
       let gives (sel : BitVec 12) (f : Nat → Bool) : Prop := ∃ w : Word, (∀ b < 32, w.getLsbD b = f b)
         ∧ Completes (.banktst p d sel) s s.reads [s.reads.result 0 (.n 1) (.g d w) false]
       gives 0 (fun b => if b < 16 then held b else s.tile.unitPending k (b - 16))
       ∧ gives 1 (fun b => held (16 + b)) ∧ gives 2 (fun b => held (48 + b)))
    ∧ Completes (.kseq p d 0) s s.reads [s.reads.result 0 (.n 1) (.g d (BitVec.ofNat 32 k)) false]
    ∧ Completes (.kseq p d 1) s s.reads [s.reads.result 0 (.n 1) (.g d (BitVec.ofNat 32 (k / 2 ^ 32))) false]
    ∧ (s.filesGood [.g a] → (s.reads.ctx.regs.getG a).poison = false → ∀ q : Fin 16, (s.reads.g a).toNat = q.val →
      Completes (.kseqQueue p d a 2) s s.reads [s.reads.result 0 (.n 1) (.g d (BitVec.ofNat 32 (s.wafer.queues[q]).lastDone)) false]
      ∧ Completes (.kseqQueue p d a 3) s s.reads
          [s.reads.result 0 (.n 1) (.g d (BitVec.ofNat 32 ((s.wafer.queues[q]).lastDone / 2 ^ 32))) false])

/-- R322, R375 to R377, R383, R384: GID, GDIM and GBASE give the pair of the scope instance at a level, in the two halves of gd; GSLICE gives GANG's
halves and the group's state, and GSLICE.wait issues at its time. Table 15-7: at the tile level the instance is the tile. A kernel that
waits for GANG starts once CYCLE has reached it; a notice of another wafer's start is kept, one of its abandonment abandons the kernel, as
the deadline does that finds a start missing; a launch starts the contexts of a kernel on a tile.
Rests on the model's own reading or choice where log 74, 136 say so. -/
def Obligations.Groups : Prop :=
  ∀ (s : State) (p : BitVec 2) (d a : BitVec 5), s.Clear → s.predOn p →
    let gd (w : Word) (poison : Bool) : List Pending := [s.reads.result 0 (.n 1) (.g d w) poison]
    let half (x : Nat × Nat) : Word := BitVec.ofNat 16 x.1 ++ BitVec.ofNat 16 x.2
    (∀ x ∈ groupReads,
      (∀ n : BitVec 3, Completes (x.1 p d n) s s.reads (gd (half (x.2.2 (s.levelInfo n.toNat))) false))
      ∧ (s.filesGood [.g a] → (s.reads.ctx.regs.getG a).poison = false → (s.reads.g a).toNat < 8 →
        Completes (x.2.1 p d a) s s.reads (gd (half (x.2.2 (s.levelInfo (s.reads.g a).toNat))) false))
      ∧ (s.filesGood [.g a] → (s.reads.ctx.regs.getG a).poison = true → ∃ w, Completes (x.2.1 p d a) s s.reads (gd w true)))
    ∧ s.levelInfo 1 = ((s.tile.at'.x, s.tile.at'.y), (1, 1), (s.tile.at'.x, s.tile.at'.y))
    ∧ (∀ k, s.wafer.kernel? s.ctx.life.kernel = some k →
      Completes (.gslice p d 0) s s.reads (gd (k.record.extractLsb' 448 32) false)
      ∧ Completes (.gslice p d 1) s s.reads (gd (k.record.extractLsb' 480 32) false)
      ∧ Completes (.gslice p d 2) s s.reads (gd (BitVec.ofNat 32 k.group.code) false))
    ∧ (s.filesGood [.g a] → (s.reads.ctx.regs.getG a).poison = false → s.gang ≠ 0 →
      s.cycle = s.gang + (s.reads.g a).setWidth 64 → Completes (.gsliceWait p a) s s.reads [])
    ∧ ∀ n k, s.wafer.kernel? n = some k → let gang := recGang k.record
      (k.group = .gangWait → k.st = .running → gang.toNat ≤ s.wafer.cycle.toNat → ∃ t, exec (.gangStart n) s = .next t ∧ SameMemory s t
        ∧ ∀ x ∈ t.wafer.kernels, x.seq = n → x.group = .gangStarting)
      ∧ (∀ w, ∃ t, exec (.startNoticeArrival gang w) s = .next t ∧ SameMemory s t ∧ ∃ x ∈ t.wafer.links.notices, x.1 = 0 ∧ x.2.1 = gang ∧ x.2.2.1 = w)
      ∧ (k.slice gang = true →
        (∀ w, ∃ t, exec (.abandonNoticeArrival gang w) s = .next t ∧ SameMemory s t ∧ ∀ x ∈ t.wafer.kernels, x.seq = n → x.late = true)
        ∧ (k.late = true → ∃ t, exec (.gangDeadline n) s = .next t ∧ SameMemory s t ∧ ∀ x ∈ t.wafer.kernels, x.seq = n → x.group = .abandoned))
      ∧ ∀ x, s.tile.kernels.find? (fun x => x.kernel == n) = some x → x.started = false → k.st = .running → k.group = .bound →
        s.tile.mayStart x = true → recContexts k.record ≤ s.tile.emptyNumbers.length →
        recContexts k.record ≤ ((List.finRange 8).filter (fun g => (s.tile.ctx g).life.st == .empty)).length →
        ∃ t, exec (.contextLaunchStart s.tile.at' n) s = .next t ∧ SameMemory s t ∧ ∀ y ∈ t.tile.kernels, y.kernel = n → y.started = true

/-- R393 to R398: BARINIT, BARARV and BARDROP issue when their request has been accepted; BARARV and BARDROP give its phase. BARWAIT issues when the
barrier's phase has passed the context's view, and where the tag has arrived since its last BARWAIT its feeds drop what they hold; BARTST gives the mirror's state, and
BARTST.view the view.
R149: COLSET leaves the colours of c + 1 regions to the end of the cycle; COLGET gives half of the colours or COLDROP, which sel 3 clears.
Rests on the model's own reading or choice where log 26, 76, 79 say so. -/
def Obligations.BarriersAndColours : Prop :=
  (∀ (s : State) (p : BitVec 2) (d a : BitVec 5) (l : BitVec 3) (n : BitVec 6), s.Clear → s.predOn p →
       let used : State := s.reads.modCtx (fun c => { c with asked := { c.asked with verdict := none } })
       (∀ v, s.ctx.asked.barReq = none → s.ctx.asked.verdict = some v → v.n = n → v.accepted = true →
         (v.fn = 0 → s.filesGood [.g a] → (s.reads.ctx.regs.getG a).poison = false → Completes (.barinit p a l n) s used [])
         ∧ (v.fn = 1 → Completes (.bararv p d n) s used [s.reads.result 0 (.n 1) (.g d (v.phase.setWidth 32)) false])
         ∧ (v.fn = 2 → Completes (.bardrop p d n) s used [s.reads.result 0 (.n 1) (.g d (v.phase.setWidth 32)) false]))
       ∧ (∀ m v, s.mirror n = some m → s.view n = some v →
         (v.dropped = false → m.st ≠ .uninit → v.v - m.phase = 0 ∨ 32768 ≤ (v.v - m.phase).toNat →
           Completes (.barwait p n) s (if v.owed then
             (s.reads.modView s.ctx.life.kernel s.tag n.toNat (fun v => { v with owed := false })).atEnd (.discard s.tag) else s.reads) [])
         ∧ Completes (.bartstView p d n) s s.reads [s.reads.result 0 (.n 1) (.g d (v.v.setWidth 32)) false]
         ∧ (m.level < 8 → ∃ w : Word, Completes (.bartst p d n) s s.reads [s.reads.result 0 (.n 1) (.g d w) false]
           ∧ w.extractLsb' 30 2 = BitVec.ofNat 2 m.st.code ∧ w.getLsbD 29 = v.dropped
           ∧ w.getLsbD 28 = (!v.dropped && m.st != .uninit && decide (v.v - m.phase = 0 ∨ 32768 ≤ (v.v - m.phase).toNat))
           ∧ w.extractLsb' 16 12 = BitVec.ofNat 12 (if m.st = .uninit then 0 else m.level) ∧ w.extractLsb' 0 16 = m.phase)))
  ∧ (∀ (s : State) (p : BitVec 2) (d a : BitVec 5) (c f : BitVec 6), s.Clear → s.predOn p →
       (s.filesGood [.g a] → (s.reads.ctx.regs.getG a).poison = false →
         Completes (.colset p a c f) s (s.reads.atEnd (.colours f.toNat (c.toNat + 1) ((s.reads.g a).getLsbD 0))) [])
       ∧ (let gd (w : Word) : List Pending := [s.reads.result 0 (.n 1) (.g d w) false]
          Completes (.colget p d 0) s s.reads (gd (s.tile.mem.colours.extractLsb' 0 32))
          ∧ Completes (.colget p d 1) s s.reads (gd (s.tile.mem.colours.extractLsb' 32 32))
          ∧ Completes (.colget p d 2) s s.reads (gd s.tile.mem.colDrop)
          ∧ Completes (.colget p d 3) s (s.reads.modTile (fun t => { t with mem := { t.mem with colDrop := 0 } })) (gd s.tile.mem.colDrop)))

/-! ### Channels, pages, links, debug (chapters 17, 18, 21 and 22) -/

/-- R409 to R411: CHOPEN opens the closed ends of the channel on the tile, bound to the tag, and each sends its notice: a send end an open notice, a
receive end a grant of its window; CHCLOSE closes the ends that it may, and an OPEN send end and a receive end that is not lost send their notice; both wait while the tile may not
inject (R436); CHSTAT and
CHWIN give the ends' states, tags, drops, credit and held messages, zero for an end that is not there. -/
def Obligations.Channels : Prop :=
  ∀ (s : State) (p : BitVec 2) (d : BitVec 5) (c : BitVec 12), s.Clear → s.predOn p →
    let ends := s.myEnds c
    (ends ≠ [] → s.tile.life.st ≠ .quiesced → (∀ e ∈ ends, e.st = .closed ∧ (e.send = false → e.win / 4 ≤ s.tile.q3Free s.tag)) →
      Completes (.chopen p c) s (ends.foldl (fun s e =>
        (s.modEnd e.kernel e.n e.send (fun x => { x with st := .opened, tag := some s.tag })).sendItem e
          (if e.send then .openNotice e.kernel e.n else .grant e.kernel e.n e.win)) s.reads) [])
    ∧ (ends ≠ [] → (∀ e ∈ ends, (e.tag = none ∨ e.tag = some s.tag) ∧ (e.send = false → e.held = [])) → s.reads.holds (.chanSent c) = true →
      s.tile.life.st ≠ .quiesced →
      Completes (.chclose p c) s ((ends.filter (fun e => e.st ≠ .closed)).foldl (fun s e =>
        let t := s.modEnd e.kernel e.n e.send (fun x => { x with st := .closed, tag := none })
        if e.send ∧ e.st = .opened then t.sendItem e (.closeNotice e.kernel e.n)
        else if !e.send ∧ (e.st = .opened ∨ e.st = .peerClosed) then t.sendItem e (.revoke e.kernel e.n) else t) s.reads) [])
    ∧ (let snd := s.tile.chanEnd s.ctx.life.kernel c.toNat true
       let rcv := s.tile.chanEnd s.ctx.life.kernel c.toNat false
       let code (e : Option ChanEnd) : Nat := match e with
         | none => 0
         | some e => match e.st with | .closed => 1 | .opened => 2 | .revoked => 3 | .peerClosed => 3 | .lost => 4
       let tag (e : Option ChanEnd) : Nat := ((e.bind (·.tag)).map (·.val)).getD 0
       (∃ w : Word, Completes (.chstat p d c) s s.reads [s.reads.result 0 (.n 1) (.g d w) false]
          ∧ (w.extractLsb' 29 3).toNat = code snd ∧ (w.extractLsb' 26 3).toNat = code rcv ∧ (w.extractLsb' 23 3).toNat = tag snd
          ∧ (w.extractLsb' 20 3).toNat = tag rcv ∧ w.extractLsb' 16 4 = 0 ∧ w.extractLsb' 0 16 = (rcv.map (·.drops)).getD 0)
       ∧ Completes (.chwin p d c) s s.reads [s.reads.result 0 (.n 1)
          (.g d (BitVec.ofNat 32 ((snd.map (·.credit)).getD 0 * 2 ^ 16 + 4 * (rcv.map (·.held.length)).getD 0))) false])

/-- R428 to R430: PGPROBE and PGTOUCH give the word that their walk has answered and use the answer up; PGINV drops the tile's TLB entries of the
kernel's ASID and world that hold the page, where no handle holds it PINNED and it is of the own wafer, and PGINV.ALL all of them.
R495 to R498: LKSTAT gives LKSTS of a port, 0 of a secure port to a non-secure context, and sets or clears the watched port; LKPARK and LKWAKE make
their request at an ACTIVE or DEGRADED port that a device may control and give the wavelengths that it names, 0 at any other
port (the waking tag of one that does not join at once is the issuing one); LKSTAMP gives LKOFF or LKDLY once a stamp has been exchanged.
Rests on the model's own reading or choice where log 41, 44, 86, 94, 103 say so. -/
def Obligations.PageAndLinkInstructions : Prop :=
  (∀ (s : State) (p : BitVec 2) (d a : BitVec 5) (n : BitVec 3) (w : BitVec 1), s.Clear → s.predOn p →
       let va := s.reads.remoteAddr n a
       let sec := hSec (s.reads.h n)
       (s.filesGood [.h n, .g a] → (s.reads.ctx.regs.getH n).poison = false → (s.reads.ctx.regs.getG a).poison = false →
         s.reads.globalCheck (s.reads.h n) va 1 1 [8] true = none →
         ((s.ownWafer va = true → s.tlbBad sec (gaVa va) = none) → ∀ ans, s.ctx.asked.pageAns = some ans → ans.va = va → ans.sec = sec → ans.cause = 0 →
           let used : State := s.reads.modCtx (fun c => { c with asked := { c.asked with pageAns := none } })
           let gd : List Pending := [s.reads.result 0 (.n 1) (.g d ans.word) false]
           (ans.touch = false → ans.write = false → Completes (.pgprobe p d a n) s used gd)
           ∧ (ans.touch = true → ans.write = (w == 1) → Completes (.pgtouch p d a w n) s used gd))
         ∧ (s.ownWafer va = false → Completes (.pginv p a n) s s.reads [])
         ∧ (s.ownWafer va = true → s.wafer.heldPinned s.asid s.ctx.life.secure (gaVa va) = false →
           Completes (.pginv p a n) s (s.reads.modTile (fun t => { t with stores := { t.stores with
             tlb := t.stores.tlb.filter (fun e =>
               !(e.asid == s.asid && e.secWorld == s.ctx.life.secure && e.vpn == (gaVa va % 2 ^ 57) >>> e.shift)) } })) []))
       ∧ (s.asid ≠ 0 → Completes (.pginvAll p) s (s.reads.modTile (fun t => { t with stores := { t.stores with
           tlb := t.stores.tlb.filter (fun e => !(e.asid == s.asid && e.secWorld == s.ctx.life.secure)) } })) []))
  ∧ (∀ (s : State) (p : BitVec 2) (d a : BitVec 5) (m : BitVec 8) (q : PortId), s.Clear → s.predOn p → s.filesGood [.g a] →
       (s.reads.ctx.regs.getG a).poison = false → (s.reads.g a).toNat = q.val →
       let x := s.port q
       let own : Prop := x.regs.sec = false ∨ s.ctx.life.secure = true
       let gd (w : Word) : List Pending := [s.reads.result 0 (.n 1) (.g d w) false]
       let watch (o : Option PortId) : State := s.reads.modCtx (fun c => { c with dbg := { c.dbg with port := o } })
       (own → Completes (.lkstat p d a 0) s s.reads (gd (s.lkstsAt q)) ∧ Completes (.lkstat p d a 1) s (watch (some q)) (gd (s.lkstsAt q))
           ∧ Completes (.lkstat p d a 2) s (watch none) (gd (s.lkstsAt q)))
       ∧ (x.regs.sec = true → s.ctx.life.secure = false →
           Completes (.lkstat p d a 0) s s.reads (gd 0) ∧ Completes (.lkstat p d a 2) s (watch none) (gd 0))
       ∧ (own → x.regs.devctl = true →
         (x.st ≠ .active → x.st ≠ .degraded → Completes (.lkpark p d a m) s s.reads (gd 0) ∧ Completes (.lkwake p d a m) s s.reads (gd 0))
         ∧ (x.st = .active ∨ x.st = .degraded →
           (m &&& x.maskOf [.active] ≠ x.maskOf [.active] →
             Completes (.lkpark p d a m) s ((s.reads.keepLksts q).parkPort q (m &&& x.maskOf [.active])) (gd ((m &&& x.maskOf [.active]).setWidth 32)))
           ∧ (let w := m &&& x.maskOf [.parked, .litIdle]
              let r := ((s.reads.keepLksts q).wakePort q w false).modPort q (fun x => x.modWaves (w &&& x.maskOf [.waking, .litIdle]) (fun v =>
                { v with waking := some (s.tile.at', s.tag) }))
              Completes (.lkwake p d a m) s r (gd (w.setWidth 32))
              ∧ ∀ k : Fin 8, w.getLsbD k.val = true →
                ((r.port q).waves[k]).st = .active ∨ ((r.port q).waves[k]).waking = some (s.tile.at', s.tag))))
       ∧ (x.st = .active ∨ x.st = .degraded → x.stampDone = true →
         Completes (.lkstamp p d a 0) s s.reads (gd x.regs.off) ∧ Completes (.lkstamp p d a 1) s s.reads (gd x.regs.dly)))

/-- R506, R507: BRK's bundle issues and then the context is held with reason 2 and the n of the BRK where DBGEN lets it be held, else it takes trap
0xBB; DBGMARK makes a trace record of kind 4 and TRCON and TRCOFF set the trace bit where the trace is of the context's world.
Rests on the model's own reading or choice where log 99 says so. -/
def Obligations.DebugInstructions : Prop :=
  ∀ (s : State) (p : BitVec 2) (a : BitVec 5) (n : BitVec 12) (m : BitVec 9), s.Clear → s.predOn p →
    let next := s.ctx.flow.advance s.ctx.sys.inHandler none none
    (s.ctx.sys.inHandler = false → s.wafer.dbg.dbgen.getLsbD (if s.ctx.life.secure then 1 else 0) = true →
      ∃ t, exec (.brk p n) s = .next t ∧ SameMemory s t ∧ t.ctx.dbg.held = true ∧ t.ctx.dbg.reason = 2 ∧ t.ctx.dbg.brk = n
        ∧ t.ctx.flow = next ∧ t.ctx.regs = s.reads.ctx.regs ∧ t.ctx.sys.inHandler = false)
    ∧ (s.ctx.sys.inHandler = false → s.wafer.dbg.dbgen.getLsbD (if s.ctx.life.secure then 1 else 0) = false →
      ∀ v, (s.program.bind (·.vector)) = some v →
      ∃ t, exec (.brk p n) s = .next t ∧ SameMemory s t ∧ t.ctx.dbg.brk = n ∧ t.ctx.sys.cause = 0xBB
        ∧ t.ctx.sys.epc = next.npc.extractLsb' 4 14 ++ next.pc.extractLsb' 4 14 ++ (0#4))
    ∧ (s.tile.dbg.tctl.getLsbD 29 = s.ctx.life.secure →
      (s.filesGood [.g a] → (s.reads.ctx.regs.getG a).poison = false →
        Completes (.dbgmark p a m) s (s.reads.trace s.tag 4 (s.reads.g a) 0 m.toNat (s.ctx.flow.pc.extractLsb' 4 14)) [])
      ∧ Completes (.trcon p) s (s.reads.modCtx (fun c => { c with dbg := { c.dbg with tracing := true } })) []
      ∧ Completes (.trcoff p) s (s.reads.modCtx (fun c => { c with dbg := { c.dbg with tracing := false } })) [])
    ∧ (s.tile.dbg.tctl.getLsbD 29 ≠ s.ctx.life.secure → s.ctx.sys.inHandler = false → ∀ v, (s.program.bind (·.vector)) = some v →
      ∃ t, exec (.trcon p) s = .next t ∧ t.ctx.sys.cause = 0xBF ∧ t.ctx.dbg.tracing = s.ctx.dbg.tracing)

/-! ### The vector slot (chapter 5) -/

/-- R71, R72: a V source below 16 is the v register, 16 to 23 the vector that the feed has given, 24 is zero and 25 the lane indices.
R118 to R120, R123, Table 5-2: the integer functions on two V sources, and on a V source and a g register whose low bits stand in every element:
each enabled lane of vd takes, two bundles later, the function of its elements mod 2^w; vd is poisoned by any operand and by the mask. -/
def Obligations.VectorIntegers : Prop :=
  (∀ s : State, s.Clear →
       (∀ a : BitVec 5, a.toNat < 16 → (Sources s [a]).vsrc a = ((s.reads.ctx.regs.getV (a.setWidth 4)).val, (s.reads.ctx.regs.getV (a.setWidth 4)).poison))
       ∧ (∀ (f : Fin 8) v vs, (s.ctx.feeds[f]).held = v :: vs → (Sources s [BitVec.ofNat 5 (16 + f.val)]).vsrc (BitVec.ofNat 5 (16 + f.val)) = (v.val, v.poison)
           ∧ ((Sources s [BitVec.ofNat 5 (16 + f.val)]).ctx.feeds[f]).held = vs
           ∧ ((Sources s [BitVec.ofNat 5 (16 + f.val), BitVec.ofNat 5 (16 + f.val)]).ctx.feeds[f]).held = vs)
       ∧ (Sources s [24]).vsrc 24 = (0, false)
       ∧ ∀ L < 128, lane ((Sources s [25]).vsrc 25).1 L = BitVec.ofNat 32 L)
  ∧ (∀ (s : State) (p : BitVec 2) (d : BitVec 4) (a b : BitVec 5) (m : BitVec 3), s.predOn p → ∀ t ∈ intTypes,
       let lo : Int := if t.2.2 then -2 ^ (t.2.1 - 1) else 0
       let hi : Int := if t.2.2 then 2 ^ (t.2.1 - 1) - 1 else 2 ^ t.2.1 - 1
       let spread : Vec := BitVec.ofNat 4096 ((List.range (4096 / t.2.1)).foldl (fun n j => n + (s.reads.g b).toNat % 2 ^ t.2.1 * 2 ^ (t.2.1 * j)) 0)
       (Fed s [a, b] [.m m] → let r := Sources s [a, b]
         (∀ x ∈ vectorInts, ∃ v, Completes (x.1 p d a b m t.1) s r (vectorResult r 2 d m v ((r.vsrc a).2 || (r.vsrc b).2))
           ∧ ∀ j < 4096 / t.2.1, elementInt t.2.1 false v j
             = x.2.2 t.2.1 lo hi (elementInt t.2.1 t.2.2 (r.vsrc a).1 j) (elementInt t.2.1 t.2.2 (r.vsrc b).1 j) % 2 ^ t.2.1)
         ∧ ∀ x ∈ vectorLogic, Completes (x.1 p d a b m t.1) s r
             (vectorResult r 2 d m (x.2.2 (r.vsrc a).1 (r.vsrc b).1) ((r.vsrc a).2 || (r.vsrc b).2)))
       ∧ (Fed s [a] [.g b, .m m] → let r := Sources s [a]
         (∀ x ∈ vectorInts, ∃ v, Completes (x.2.1 p d a b m t.1) s r (vectorResult r 2 d m v ((r.vsrc a).2 || r.anyPoison [.g b]))
           ∧ ∀ j < 4096 / t.2.1, elementInt t.2.1 false v j
             = x.2.2 t.2.1 lo hi (elementInt t.2.1 t.2.2 (r.vsrc a).1 j) (elementInt t.2.1 t.2.2 spread j) % 2 ^ t.2.1)
         ∧ (∀ x ∈ vectorLogic, Completes (x.2.1 p d a b m t.1) s r
             (vectorResult r 2 d m (x.2.2 (r.vsrc a).1 spread) ((r.vsrc a).2 || r.anyPoison [.g b]))))
       ∧ (Fed s [a] [.m m] → let r := Sources s [a]
         ∃ v, Completes (.vpopc p d a m t.1) s r (vectorResult r 2 d m v (r.vsrc a).2)
           ∧ ∀ j < 4096 / t.2.1, elementInt t.2.1 false v j
             = ((List.range t.2.1).filter (fun i => (r.vsrc a).1.getLsbD (t.2.1 * j + i))).length))

/-- R121, R124, R125, Table 5-3: the floating functions round once to the format of their type with FPC's mode and the element's draw, and take one
SRSTEP value; minimum, maximum, sign and transcendental functions take none.
Rests on the model's own reading or choice where log 19 says so. -/
def Obligations.VectorFloats : Prop :=
  ∀ (s : State) (p : BitVec 2) (d : BitVec 4) (a b c : BitVec 5) (m : BitVec 3), s.predOn p → ∀ t ∈ floatTypes,
    let md := FpMode.of s.ctx.sys.fpc
    let step := s.ctx.sys.srstep.toNat
    let next (r : State) : State := r.modCtx (fun c => { c with sys := { c.sys with srstep := s.ctx.sys.srstep + 1 } })
    let w := t.2.width
    let at' (v : Vec) (j : Nat) : FVal := t.2.decodeDaz md.daz ((v.extractLsb' (w * j) w).toNat)
    let word : FVal := t.2.decodeDaz md.daz ((s.reads.g b).toNat % 2 ^ w)
    let gives (v : Vec) (f : Nat → Nat) : Prop := ∀ j < 4096 / w, (v.extractLsb' (w * j) w).toNat = f j
    (Fed s [a, b] [.m m] → let r := Sources s [a, b]
      (∀ x ∈ vectorRounds, ∃ v, Completes (x.1 p d a b m t.1) s (next r) (vectorResult r 4 d m v ((r.vsrc a).2 || (r.vsrc b).2))
        ∧ gives v (fun j => t.2.encode md (elemDraw md step w j) (x.2.2 md.rm (at' (r.vsrc a).1 j) (at' (r.vsrc b).1 j))))
      ∧ ∀ x ∈ vectorSelects, ∃ v, Completes (x.1 p d a b m t.1) s r (vectorResult r 2 d m v ((r.vsrc a).2 || (r.vsrc b).2))
        ∧ gives v (fun j => t.2.encode { md with rm := .rtz } 0 (x.2.2 (at' (r.vsrc a).1 j) (at' (r.vsrc b).1 j))))
    ∧ (Fed s [a] [.g b, .m m] → let r := Sources s [a]
      (∀ x ∈ vectorRounds, ∃ v, Completes (x.2.1 p d a b m t.1) s (next r) (vectorResult r 4 d m v ((r.vsrc a).2 || r.anyPoison [.g b]))
        ∧ gives v (fun j => t.2.encode md (elemDraw md step w j) (x.2.2 md.rm (at' (r.vsrc a).1 j) word)))
      ∧ ∀ x ∈ vectorSelects, ∃ v, Completes (x.2.1 p d a b m t.1) s r (vectorResult r 2 d m v ((r.vsrc a).2 || r.anyPoison [.g b]))
        ∧ gives v (fun j => t.2.encode { md with rm := .rtz } 0 (x.2.2 (at' (r.vsrc a).1 j) word)))
    ∧ (Fed s [a] [.m m] → let r := Sources s [a]
      (∀ x ∈ vectorOnes, ∃ v, Completes (x.1 p d a m t.1) s r (vectorResult r x.2.1 d m v (r.vsrc a).2)
        ∧ gives v (fun j => x.2.2 t.2 md ((r.vsrc a).1.extractLsb' (w * j) w).toNat % 2 ^ w))
      ∧ ∃ v, Completes (.vfrint p d a m t.1) s (next r) (vectorResult r 2 d m v (r.vsrc a).2)
        ∧ gives v (fun j => t.2.encode { md with rm := .rtz } 0 (rintVal md.rm (elemDraw md step w j) (at' (r.vsrc a).1 j))))
    ∧ (Fed s [a, b, c] [.m m] → let r := Sources s [a, b, c]
      ∀ x ∈ vectorFused, ∃ v, Completes (x.1 p d a b c m (t.1.setWidth 2)) s (next r)
          (vectorResult r 4 d m v ((r.vsrc a).2 || (r.vsrc b).2 || (r.vsrc c).2))
        ∧ gives v (fun j => t.2.encode md (elemDraw md step w j)
            (FVal.fma md.rm x.2.1 x.2.2 (at' (r.vsrc a).1 j) (at' (r.vsrc b).1 j) (at' (r.vsrc c).1 j))))

/-- R126 to R128: a compare gives a lane's bit where the mask has it and every element of the lane meets the condition; mask logic; VSEL takes
the lanes of its mask from va and the others from vb. -/
def Obligations.VectorMasks : Prop :=
  ∀ (s : State) (p : BitVec 2) (d : BitVec 4) (q x y m : BitVec 3) (a b : BitVec 5), s.predOn p →
    (Fed s [a, b] [.m m] → let r := Sources s [a, b]
      let po := (r.vsrc a).2 || (r.vsrc b).2 || r.anyPoison [.m m]
      (∀ t ∈ intTypes, ∀ c ∈ intCond, ∃ k : Mask, Completes (.vcmp p q a b m t.1 c.1) s r [r.result 1 (.n 2) (.m q k) po]
        ∧ ∀ L < 128, (k.getLsbD L = true ↔ (r.m m).getLsbD L = true ∧ ∀ e < 32 / t.2.1,
          c.2 (elementInt t.2.1 t.2.2 (r.vsrc a).1 (L * (32 / t.2.1) + e)) (elementInt t.2.1 t.2.2 (r.vsrc b).1 (L * (32 / t.2.1) + e))))
      ∧ (∀ t ∈ floatTypes, ∀ c : Fin 8, ∃ k : Mask, Completes (.vfcmp p q a b m t.1 (BitVec.ofNat 4 c.val)) s r [r.result 1 (.n 2) (.m q k) po]
        ∧ ∀ L < 128, (k.getLsbD L = true ↔ (r.m m).getLsbD L = true ∧ ∀ e < 32 / t.2.width,
          fcond c.val (floatAt t.2 (FpMode.of s.ctx.sys.fpc) (r.vsrc a).1 (L * (32 / t.2.width) + e))
            (floatAt t.2 (FpMode.of s.ctx.sys.fpc) (r.vsrc b).1 (L * (32 / t.2.width) + e)) = true))
      ∧ ∃ v, Completes (.vsel p d a b m) s r (wholeResult r 2 d v po)
        ∧ ∀ L < 128, lane v L = if (r.m m).getLsbD L then lane (r.vsrc a).1 L else lane (r.vsrc b).1 L)
    ∧ (s.Clear → s.filesGood [.m x, .m y] → ∀ f ∈ maskLogic, Completes (f.1 p q x y) s s.reads
        [s.reads.result 1 (.n 2) (.m q (f.2 (s.reads.m x) (s.reads.m y))) (s.reads.anyPoison [.m x, .m y])])

/-- R129 to R134: VCVT converts the elements of each cluster; VEN and VDE write the registers of their group, seven bundles later, and take an
SRSTEP value where a floating format rounds.
Rests on the model's own reading or choice where log 19 says so. -/
def Obligations.VectorConversions : Prop :=
  ∀ (s : State) (p : BitVec 2) (d : BitVec 4) (a b : BitVec 5) (e c : BitVec 4) (m : BitVec 3) (w : BitVec 1) (l : BitVec 5), s.predOn p →
    let md := FpMode.of s.ctx.sys.fpc
    let step := s.ctx.sys.srstep.toNat
    let next (r : State) : State := r.modCtx (fun c => { c with sys := { c.sys with srstep := s.ctx.sys.srstep + 1 } })
    let group (r : State) (n val : Nat) (poison : Bool) : List Pending := (List.range n).map (fun i =>
      r.result 1 (.n 7) (.v (d + BitVec.ofNat 4 i) (BitVec.ofNat 4096 (val / 2 ^ (4096 * i))) fullMask true) poison)
    (Fed s [a] [.m m] → let r := Sources s [a]
      ∃ v, Completes (.vcvt p d a e c m w) s (next r) (vectorResult r 4 d m v (r.vsrc a).2)
        ∧ ∀ k < 8, ∀ i < 512 / formatWidth e.toNat, element (formatWidth e.toNat) v (512 / formatWidth e.toNat * k + i)
          = if i < 512 / max (formatWidth c.toNat) (formatWidth e.toNat) then
              convertElem c.toNat e.toNat (w == 1) md (elemDraw md step (formatWidth e.toNat) (512 / formatWidth e.toNat * k + i))
                (element (formatWidth c.toNat) (r.vsrc a).1 (512 / formatWidth c.toNat * k + i)) % 2 ^ formatWidth e.toNat
            else 0)
    ∧ (let n := venIn e.toNat l.toNat
       let as := if n ≤ 1 then [a, b] else [b]
       Fed s as (if n ≤ 1 then [] else groupRegs a n) → let r := Sources s as
       Completes (.ven p d a b e l) s (if formatIsInt e.toNat then r else next r)
         (group r (layRegs l.toNat) (venRow l.toNat e.toNat md (if formatIsInt e.toNat then 0 else step)
           (venVals l.toNat e.toNat md (r.group a n).1 (r.vsrc b).1.toNat)) ((r.group a n).2 || (r.vsrc b).2)))
    ∧ (let n := layRegs l.toNat
       let as := if n ≤ 1 then [a] else []
       Fed s as (if n ≤ 1 then [] else groupRegs a n) → let r := Sources s as
       Completes (.vde p d a e l) s (if formatIsInt e.toNat then r else next r)
         (group r (vdeOut e.toNat l.toNat) (vdeRow l.toNat e.toNat md (if formatIsInt e.toNat then 0 else step) (r.group a n).1) (r.group a n).2))

/-- R135 to R137: the reductions give every lane of a cluster the sum, maximum or minimum of its enabled lanes, VSCAN the sum of those up to its own;
VPERM, VROT, VBCL and VXCOPY move lanes.
R138, R139: VMOVI and VMOVH put an immediate, and VBCG a g register, in every lane; VGET gives a lane to a g register; VPUT replaces one lane. -/
def Obligations.VectorMoves : Prop :=
  (∀ (s : State) (p : BitVec 2) (d : BitVec 4) (a b k : BitVec 5) (m j : BitVec 3), s.predOn p →
       (Fed s [a] [.m m] → let r := Sources s [a]
         let moved (i : Instr) (lat : Nat) (f : Nat → Nat) : Prop := ∃ v, Completes i s r (vectorResult r lat d m v (r.vsrc a).2)
           ∧ ∀ c < 8, ∀ l < 16, lane v (16 * c + l) = lane (r.vsrc a).1 (f (16 * c + l))
         (∀ x ∈ reductions, ∀ sg : Bool, ∃ v,
           Completes (x.1 p d a m (if sg then 0 else 1)) s r (wholeResult r 4 d v ((r.vsrc a).2 || r.anyPoison [.m m]))
           ∧ ∀ c < 8, ∀ l < 16, ((lane v (16 * c + l)).toNat : Int) = ((List.range (if x.2.2.2 then l + 1 else 16)).foldl (fun acc i =>
               x.2.2.1 acc (if (r.m m).getLsbD (16 * c + i) then elementInt 32 sg (r.vsrc a).1 (16 * c + i) else x.2.1 sg)) (x.2.1 sg)) % 2 ^ 32)
         ∧ (∀ x ∈ floatReductions, ∃ v, Completes (x.1 p d a m 2) s r (wholeResult r 4 d v ((r.vsrc a).2 || r.anyPoison [.m m]))
           ∧ ∀ c < 8, ∀ l < 16, (lane v (16 * c + l)).toNat
             = reduceBits (FpMode.of s.ctx.sys.fpc) (x.2 (FpMode.of s.ctx.sys.fpc) (r.vsrc a).1 (r.m m) c l))
         ∧ moved (.vrot p d a k m) 2 (fun L => L / 16 * 16 + (L % 16 + 16 - k.toNat % 16) % 16)
         ∧ moved (.vbcl p d a k m) 2 (fun L => L / 16 * 16 + k.toNat % 16)
         ∧ moved (.vxcopy p d a 0 j m) 5 (fun L => (L / 16 + 8 - j.toNat) % 8 * 16 + L % 16)
         ∧ moved (.vxcopy p d a 1 j m) 5 (fun L => j.toNat * 16 + L % 16)
         ∧ moved (.vxcopy p d a 2 j m) 5 (fun L => (L / 16).xor j.toNat * 16 + L % 16))
       ∧ (Fed s [a, b] [.m m] → let r := Sources s [a, b]
         ∃ v, Completes (.vperm p d a b m) s r (vectorResult r 2 d m v ((r.vsrc a).2 || (r.vsrc b).2))
           ∧ ∀ c < 8, ∀ l < 16, lane v (16 * c + l) = lane (r.vsrc a).1 (16 * c + (lane (r.vsrc b).1 (16 * c + l)).toNat % 16)))
  ∧ (∀ (s : State) (p : BitVec 2) (d : BitVec 4) (a g : BitVec 5) (m : BitVec 3) (i : BitVec 17) (l : BitVec 7), s.predOn p →
       (s.Clear → s.filesGood [.m m] → ∃ v u,
         Completes (.vmovi p d m i) s s.reads (vectorResult s.reads 2 d m v false)
         ∧ Completes (.vmovh p d m i) s s.reads (vectorResult s.reads 2 d m u false)
         ∧ ∀ L < 128, (lane v L).toNat = i.toNat ∧ (lane u L).toNat = i.toNat * 64)
       ∧ (s.Clear → s.filesGood [.g g] → ∃ v, Completes (.vbcg p d g) s s.reads (wholeResult s.reads 2 d v (s.reads.anyPoison [.g g]))
         ∧ ∀ L < 128, lane v L = s.reads.g g)
       ∧ (Fed s [a] [] → let r := Sources s [a]
         Completes (.vget p a g l) s r [r.result 1 (.n 2) (.g g (lane (r.vsrc a).1 l.toNat)) (r.vsrc a).2])
       ∧ (Fed s [a] [.g g] → let r := Sources s [a]
         ∃ v, Completes (.vput p d a g l) s r (wholeResult r 2 d v ((r.vsrc a).2 || r.anyPoison [.g g]))
           ∧ ∀ L < 128, lane v L = if L = l.toNat then s.reads.g g else lane (r.vsrc a).1 L))

/-! ### The memory slot (chapters 6, 9 and 17) -/

/-- R140 to R145: the loads of Table 6-2, of whatever bytes their address reaches: a sized load of the scratchpad, with zeros or its sign, the
accumulator and vector loads; a poisoned base makes no access and poisons the destination.
R140 to R145: the stores of Table 6-2; AVST adds to the accumulator's words in its modes 1 and 2, as F32 and as I32. -/
def Obligations.LocalAccesses : Prop :=
  (∀ (s : State) (p : BitVec 2) (d b : BitVec 5) (v : BitVec 4) (x : BitVec 1), s.Clear → s.predOn p → s.filesGood [.g b] →
       ((s.reads.ctx.regs.getG b).poison = false →
         (∀ (z : BitVec 2) (o : BitVec 11), z ≠ 3 → Reaches s .spad (localEa s b o) (2 ^ z.toNat) (2 ^ z.toNat) false →
           let raw := s.tile.read .spad (localEa s b o) (2 ^ z.toNat)
           Loads (.ld p d b z x o) s .spad (localEa s b o) (2 ^ z.toNat) .spad
             (.g d (if x = 1 then BitVec.ofInt 32 (BitVec.ofNat (8 * 2 ^ z.toNat) raw).toInt else BitVec.ofNat 32 raw)))
         ∧ (∀ o : BitVec 11, Reaches s .acc (localEa s b o) 4 4 false → Loads (.ald p d b o) s .acc (localEa s b o) 4 .acc
             (.g d (BitVec.ofNat 32 (s.tile.read .acc (localEa s b o) 4))))
         ∧ (∀ o : BitVec 15, Reaches s .spad (localEa s b o) 512 64 false → Loads (.vld p v b o) s .spad (localEa s b o) 512 .spad
             (.v v (BitVec.ofNat 4096 (s.tile.read .spad (localEa s b o) 512)) fullMask true))
         ∧ (∀ o : BitVec 13, Reaches s .acc (localEa s b o) 512 64 false → Loads (.avld p v b o) s .acc (localEa s b o) 512 .acc
             (.v v (BitVec.ofNat 4096 (s.tile.read .acc (localEa s b o) 512)) fullMask true))
         ∧ ∀ o : BitVec 15, let ea := (s.reads.g b + o.setWidth 32).toNat
           Reaches s .wst ea 512 64 false → Loads (.wld p v b o) s .wst ea 512 .wst (.v v (BitVec.ofNat 4096 (s.tile.read .wst ea 512)) fullMask true))
       ∧ ((s.reads.ctx.regs.getG b).poison = true → s.ctx.remote.acquire = none →
         let none' (i : Instr) (l : Machine.Lat) (w : RegWrite) : Prop := Completes i s s.reads [s.reads.result 2 l w true]
         (∀ (z : BitVec 2) (o : BitVec 11), z ≠ 3 → none' (.ld p d b z x o) .spad (.g d 0))
         ∧ (∀ o : BitVec 11, none' (.ald p d b o) .acc (.g d 0))
         ∧ (∀ o : BitVec 15, none' (.vld p v b o) .spad (.v v 0 fullMask true) ∧ none' (.wld p v b o) .wst (.v v 0 fullMask true))
         ∧ ∀ o : BitVec 13, none' (.avld p v b o) .acc (.v v 0 fullMask true)))
  ∧ (∀ (s : State) (p : BitVec 2) (g b : BitVec 5) (v : BitVec 4), s.Clear → s.predOn p → cleanG s b → s.tile.mem.wf = true →
       (cleanG s g →
         (∀ (z : BitVec 2) (o : BitVec 11), z ≠ 3 → Reaches s .spad (localEa s b o) (2 ^ z.toNat) (2 ^ z.toNat) true →
           Stores (.st p g b z o) s .spad (localEa s b o) (2 ^ z.toNat) (s.reads.g g).toNat)
         ∧ ∀ o : BitVec 11, Reaches s .acc (localEa s b o) 4 4 true → Stores (.ast p g b o) s .acc (localEa s b o) 4 (s.reads.g g).toNat)
       ∧ (s.filesGood [.v v] → (s.reads.ctx.regs.getV v).poison = false →
         let x := (s.reads.ctx.regs.getV v).val
         (∀ o : BitVec 15, Reaches s .spad (localEa s b o) 512 64 true → Stores (.vst p v b o) s .spad (localEa s b o) 512 x.toNat)
         ∧ (∀ o : BitVec 13, Reaches s .acc (localEa s b o) 512 64 true →
           Stores (.avst p v b 0 o) s .acc (localEa s b o) 512 x.toNat
           ∧ ∀ m : BitVec 2, m = 1 ∨ m = 2 → ∃ t, exec (.avst p v b m o) s = .next t ∧ SameMemoryBut s t s.tile.at' .acc (localEa s b o) 512
             ∧ t.ctx.regs = s.reads.ctx.regs ∧ ∀ L < 128, t.tile.read .acc (localEa s b o + 4 * L) 4
               = (if m = 1 then addF32 (s.tile.read .acc (localEa s b o + 4 * L) 4) (lane x L).toNat
                  else (s.tile.read .acc (localEa s b o + 4 * L) 4 + (lane x L).toNat) % 2 ^ 32))
         ∧ ∀ o : BitVec 15, let ea := (s.reads.g b + o.setWidth 32).toNat
           Reaches s .wst ea 512 64 true → Stores (.wst p v b o) s .wst ea 512 x.toNat))

/-- R146: AMO gives the old word of the accumulator to gd and writes the new one in one step. -/
def Obligations.Atomics : Prop :=
  ∀ (s : State) (p : BitVec 2) (d a b : BitVec 5) (f : BitVec 4), s.Clear → s.predOn p → cleanG s a → cleanG s b → (f = 5 → cleanG s (b + 1)) →
    s.tile.mem.wf = true → f.toNat ≤ 5 →
    (∀ o ∈ s.tile.opsOf s.tag, o.kind = .ramo → o.ord = 0) →
    let ea := (s.reads.g a).toNat
    let old : Word := BitVec.ofNat 32 (s.tile.read .acc ea 4)
    let x := s.reads.g b
    let new : Word := match f.toNat with
      | 0 => old + x
      | 1 => BitVec.ofNat 32 (addF32 old.toNat x.toNat)
      | 2 => x
      | 3 => BitVec.ofInt 32 (min old.toInt x.toInt)
      | 4 => BitVec.ofInt 32 (max old.toInt x.toInt)
      | _ => if old = x then s.reads.g (b + 1) else old
    Reaches s .acc ea 4 4 true → ∃ t, exec (.amo p d a b f) s = .next t ∧ SameMemoryBut s t s.tile.at' .acc ea 4
      ∧ t.tile.read .acc ea 4 = new.toNat ∧ t.ctx.regs = s.reads.ctx.regs
      ∧ t.ctx.pending = insertPending (s.reads.result 2 .acc (.g d old) (s.tile.readBad .acc ea 4)) s.reads.ctx.pending
      ∧ t.ctx.flow = s.ctx.flow.advance s.ctx.sys.inHandler none none

/-- R153 to R159: FCFG and OCFG start a port at its block's first vector; OPUSH gives a vector to its outlet; POPQ takes the oldest entry of a result
queue: its tag word with VALID to g, its payload, if any, to vd.
R160 to R162: HSET, HGET and HADD on global-address registers, PARSET and PARGET on x registers.
Rests on the model's own reading or choice where log 28, 142 say so. -/
def Obligations.PortsAndAddressRegisters : Prop :=
  (∀ (s : State) (p : BitVec 2) (a : BitVec 5) (i : BitVec 15), s.Clear → s.predOn p →
       let ea := localEa s a i
       let blk : BitVec 256 := BitVec.ofNat 256 (s.tile.read .spad ea 32)
       (cleanG s a → BlockAt s ea →
         (∀ f : Fin 8, let feed (rb : Bool) (n : Nat) : Feed :=
               { active := true, rebuild := rb, block := blk, blockAddr := BitVec.ofNat 32 ea, fpc := s.ctx.sys.fpc, region := s.ctx.ckpt.opened, readAt := n }
           let starts (j : Instr) (rb : Bool) : Prop := ∃ n, s.now < n ∧ Completes j s
             (({ s.reads with fresh := s.fresh + 1 }.useBanks .spad ea 32 1).modCtx (fun c => { c with feeds := c.feeds.set f.val (feed rb n) f.isLt })) []
           (walkOk blk = true → s.walkForeign blk = false → starts (.fcfg p (BitVec.ofNat 3 f.val) a i) false)
           ∧ (rebuildOk blk = true → s.rebuildForeign blk = false → starts (.fcfgRb p (BitVec.ofNat 3 f.val) a i) true))
         ∧ ∀ o : Fin 4, (s.ctx.outlets[o]).buf = [] → walkOk blk = true → s.walkForeign blk = false →
           Completes (.ocfg p (BitVec.ofNat 2 o.val) a i) s ((s.reads.useBanks .spad ea 32 1).modCtx (fun c =>
             { c with outlets := c.outlets.set o.val { active := true, block := blk, blockAddr := BitVec.ofNat 32 ea } o.isLt })) [])
       ∧ (∀ (o : Fin 4) (x : BitVec 5), Fed s [x] [] → cleanV s x → s.ctx.remote.acquire = none → (s.ctx.outlets[o]).active = true →
         (s.ctx.outlets[o]).pushed < walkTotal (s.ctx.outlets[o]).block → (s.ctx.outlets[o]).buf.length < 2 →
         ∃ t, exec (.opush p (BitVec.ofNat 2 o.val) x) s = .next t ∧ SameMemory s t ∧ t.ctx.regs = s.reads.ctx.regs
           ∧ (t.ctx.outlets[o]).buf = (s.ctx.outlets[o]).buf ++ [((Sources s [x] 2).vsrc x).1]
           ∧ (t.ctx.outlets[o]).pushed = (s.ctx.outlets[o]).pushed + 1
           ∧ t.ctx.flow = s.ctx.flow.advance s.ctx.sys.inHandler none none)
       ∧ ∀ (d : BitVec 4) (g : BitVec 5) (q : Fin 4) (r : BitVec 3), let qq : BitVec 2 := BitVec.ofNat 2 q.val
         let gd (w : Word) : Pending := s.reads.result 2 (.n 1) (.g g w) false
         let pd (v : Bool) : Pending := s.reads.result 2 (.n 1) (.p r v) false
         (s.ctx.rq[q] = [] → Completes (.popqFlag p d g qq r) s s.reads [gd 0, pd false])
         ∧ ∀ e rest, s.ctx.rq[q] = e :: rest →
           let taken : State := s.reads.modCtx (fun c => { c with rq := c.rq.set q.val rest q.isLt })
           let r' : State := if e.data.isSome && e.poison then taken.modCtx (fun c => c.recordPoison (poisonRecord 0 2 7 s.ctx.flow.pc)) else taken
           let vd : List Pending := (e.data.map (fun v => s.reads.result 2 (.n 1) (.v d v fullMask true) e.poison)).toList
           Completes (.popqFlag p d g qq r) s r' (gd (e.word ||| 0x80000000) :: vd ++ [pd (!e.word.getLsbD 30)])
           ∧ (e.word.getLsbD 30 = false → Completes (.popq p d g qq) s r' (gd (e.word ||| 0x80000000) :: vd)))
  ∧ (∀ (s : State) (p : BitVec 2) (d a : BitVec 5) (h x : BitVec 3), s.Clear → s.predOn p → s.filesGood [.g a, .h h, .x x] →
       let old := s.reads.h h
       let hd (v : BitVec 96) (po : Bool) : List Pending := [s.reads.result 2 (.n 1) (.h h v) po]
       let gd (v : Word) (po : Bool) : List Pending := [s.reads.result 2 (.n 1) (.g d v) po]
       let xd (v : BitVec 64) (po : Bool) : List Pending := [s.reads.result 2 (.n 1) (.x x v) po]
       let w := s.reads.g a
       Completes (.hset p h 0 a) s s.reads (hd (0#64 ++ w) (s.reads.anyPoison [.g a]))
       ∧ Completes (.hset p h 1 a) s s.reads (hd (old.extractLsb' 64 32 ++ w ++ old.extractLsb' 0 32) (s.reads.anyPoison [.g a, .h h]))
       ∧ Completes (.hset p h 2 a) s s.reads (hd (w ++ old.extractLsb' 0 64) (s.reads.anyPoison [.g a, .h h]))
       ∧ (∀ t : BitVec 2, t ≠ 3 → Completes (.hget p d h t) s s.reads (gd (old.extractLsb' (32 * t.toNat) 32) (s.reads.anyPoison [.h h])))
       ∧ Completes (.hadd p h a) s s.reads (hd (old.extractLsb' 80 16 ++ (old.extractLsb' 0 80 + BitVec.ofInt 80 w.toInt)) (s.reads.anyPoison [.g a, .h h]))
       ∧ Completes (.parset p x 0 a) s s.reads (xd (0#32 ++ w) (s.reads.anyPoison [.g a]))
       ∧ Completes (.parset p x 1 a) s s.reads (xd (w ++ (s.reads.ctx.regs.getX x).val.extractLsb' 0 32) (s.reads.anyPoison [.g a, .x x]))
       ∧ Completes (.parget p d x 0) s s.reads (gd ((s.reads.ctx.regs.getX x).val.extractLsb' 0 32) (s.reads.anyPoison [.x x]))
       ∧ Completes (.parget p d x 1) s s.reads (gd ((s.reads.ctx.regs.getX x).val.extractLsb' 32 32) (s.reads.anyPoison [.x x])))

/-- R163 to R170, R412 to R416: a remote operation, a channel send and a handler message take an entry of the network command queue with their
address, attributes and data; a receive takes the oldest message of its end; DRAIN and FENCE issue once what was issued before is
performed at their scope and has not failed, and FENCE discards what the feeds hold.
Rests on the model's own reading or choice where log 47, 48 say so. -/
def Obligations.RemoteOperations : Prop :=
  ∀ (s : State) (p : BitVec 2) (h c : BitVec 3) (a b x : BitVec 5) (o : BitVec 2), s.Clear → s.predOn p →
    let addr : BitVec 80 := (s.reads.h h).setWidth 80 + (s.reads.g a).setWidth 80
    let from' (op : RemoteOp) : RemoteOp := { op with addr := addr, secure := hSec (s.reads.h h), nt := hNt (s.reads.h h), asid := s.asid, ord := o,
                                                      scope := if o = 0 then 0 else max 1 c.toNat }
    (cleanG s a → s.filesGood [.h h] → (s.reads.ctx.regs.getH h).poison = false →
      (Fed s [x] [] → cleanV s x → Sends s 1 → let r := Sources s [x] 2
        (let op := from' { serial := 0, kind := .rst, tag := 0, pc := 0, addr := 0, units := 1, data := (r.vsrc x).1 }
         Addressed s op h 512 64 [0, 1, 8] → Completes (.rst p h a x c o) s (r.enqueue op) [])
        ∧ ∀ w k : BitVec 1,
          let op := from' { serial := 0, kind := .radd, tag := 0, pc := 0, addr := 0, units := 1, data := (r.vsrc x).1, isI32 := w == 1, col := k == 1 }
          Addressed s op h 512 512 [1] → Completes (.radd p h a x w c o k) s (r.enqueue op) [])
      ∧ (cleanG s b →
        (∀ l : BitVec 6, Sends s (l.toNat + 1) →
          let op := from' { serial := 0, kind := .rget, tag := 0, pc := 0, addr := 0, units := l.toNat + 1, tagLow := (s.reads.g b).setWidth 16 }
          Addressed s op h (512 * (l.toNat + 1)) 64 [0, 1, 2, 8] → Completes (.rget p h a b c o l) s (s.reads.enqueue op) [])
        ∧ (∀ f : BitVec 4, (f = 5 → cleanG s (b + 1)) → Sends s 1 →
          let op := from' { serial := 0, kind := .ramo, tag := 0, pc := 0, addr := 0, units := 1, fn := f, b0 := s.reads.g b, b1 := s.reads.g (b + 1) }
          Addressed s op h 4 4 [1, 8] → Completes (.ramo p h a b c o f) s (s.reads.enqueue op) [])
        ∧ ∀ l : BitVec 8, cleanG s (b + 1) → Sends s 1 → s.reads.hmsgCheck (s.reads.h h) addr (s.reads.g b).toNat (64 * l.toNat) = none →
          Completes (.hmsg p h a b l) s (s.reads.enqueue
            { serial := 0, kind := .hmsg, tag := 0, pc := 0, addr := addr, secure := hSec (s.reads.h h), b0 := s.reads.g b, units := l.toNat,
              handler := s.reads.g (b + 1) }) []))
    ∧ (s.ctx.remote.acquire = none → s.tile.performedAt s.tag (max 1 c.toNat) = true → (∀ f ∈ s.ctx.remote.failed, max 1 c.toNat < f.2) →
      Completes (.drain p c) s s.reads []
      ∧ (s.ctx.outletsWritten = true → Completes (.fence p c) s (s.reads.modCtx Context.discardFeeds) []))
    ∧ ∀ (n : BitVec 12) (d : BitVec 4) (q : BitVec 3),
      (∀ e, s.tile.chanEnd s.ctx.life.kernel n.toNat true = some e → e.st = .opened → e.tag = some s.tag → 4 ≤ e.credit →
        Fed s [x] [] → cleanV s x → Sends s 1 →
        Completes (.chsend p n x o c) s (((Sources s [x] 2).modEnd e.kernel e.n true (fun e => { e with credit := e.credit - 4 })).enqueue
          { serial := 0, kind := .chsend, tag := 0, pc := 0, addr := tileAddr e.peerWafer e.peer, secure := s.ctx.life.secure,
            data := ((Sources s [x] 2).vsrc x).1, ord := o, scope := if o = 0 then 0 else max 1 c.toNat, channel := n, dst := e.peer }) [])
      ∧ ∀ e, s.tile.chanEnd s.ctx.life.kernel n.toNat false = some e → e.st = .opened → e.tag = some s.tag → s.ctx.remote.acquire = none →
        (e.held = [] → Completes (.chrecvFlag p n d q) s s.reads [s.reads.result 2 (.n 1) (.p q false) false])
        ∧ ∀ x rest, e.held = x :: rest → s.tile.life.st ≠ .quiesced →
          let r := s.reads.modEnd e.kernel e.n false (fun e => { e with held := rest })
          let r := if x.poison then r.modCtx (fun c => c.recordPoison (poisonRecord 0 2 7 s.ctx.flow.pc)) else r
          let vd := s.reads.result 2 (.n 1) (.v d x.data fullMask true) x.poison
          Completes (.chrecv p n d) s (r.sendItem e (.credit e.kernel e.n)) [vd]
          ∧ Completes (.chrecvFlag p n d q) s (r.sendItem e (.credit e.kernel e.n)) [vd, s.reads.result 2 (.n 1) (.p q true) false]

/-! ### The engine slot (chapters 7 and 8) -/

/-- R196, R197, R205 to R208, R212: MCALL puts a command with the x registers, the dependence register, FPC and SRSTEP that it reads into the matrix
queue, ROWRUN and the copies one with their block into theirs; DSET, DGET, ECANCEL, EXCSET, EXCGET and EQSTAT.
Rests on the model's own reading or choice where log 28, 29, 162 say so. -/
def Obligations.EngineSlot : Prop :=
  ∀ (s : State) (p e : BitVec 2) (d : BitVec 3) (r : BitVec 2) (g : BitVec 5) (i : BitVec 7), s.Clear → s.predOn p →
    (s.filesGood ((List.finRange 8).map (fun k => .x (BitVec.ofNat 3 k.val))) → s.reads.xPoison = false → s.ctx.remote.acquire = none →
      s.tile.mx.queue.length < 16 → (((s.wafer.imageOf s.ctx.life.kernel).bind (fun m => m.entry? i.toNat))).isSome = true →
      let cmd : MatrixCmd :=
        { tag := s.tag, kernel := s.ctx.life.kernel, dep := s.reads.ctx.regs.getD d, xs := s.reads.ctx.regs.x.map (·.val), fpc := s.ctx.sys.fpc,
          srstep := s.ctx.sys.srstep, pr := r, idx := i, pc := s.ctx.flow.pc.extractLsb' 4 14, enq := s.now, order := s.tile.core.nextOrder,
          region := s.ctx.ckpt.opened }
      Completes (.mcall p d r i) s ((s.reads.modTile (fun t => { t with core := { t.core with nextOrder := t.core.nextOrder + 1 } })).modTile
        (fun t => { t with mx := { t.mx with queue := t.mx.queue ++ [cmd] } })) [])
    ∧ (cleanG s g → Reaches s .spad (s.reads.g g).toNat 32 32 false →
      let blk : BitVec 256 := BitVec.ofNat 256 (s.tile.read .spad (s.reads.g g).toNat 32)
      let cmd (f : BlockForm) : BlockCmd :=
        { form := f, tag := s.tag, kernel := s.ctx.life.kernel, dep := s.reads.ctx.regs.getD d, fpc := s.ctx.sys.fpc, srstep := s.ctx.sys.srstep,
          pr := r, block := blk, pc := s.ctx.flow.pc.extractLsb' 4 14, enq := s.now, order := s.tile.core.nextOrder,
          region := s.ctx.ckpt.opened, ordinal := s.ordinal s.tile.at',
          handle := if f = .cpyx then s.wafer.handle (handleNo blk) else none }
      (s.tile.row.queue.length < 8 →
        (s.reads.blockCmdCheck .smax (s.reads.g g).toNat = none → ∃ t, exec (.rowrunSmax p d r g) s = .next t ∧ SameMemory s t
          ∧ t.tile.row.queue = s.tile.row.queue ++ [cmd .smax] ∧ t.ctx.sys.srstep = s.ctx.sys.srstep + 1 ∧ t.ctx.regs = s.reads.ctx.regs)
        ∧ (s.reads.blockCmdCheck .norm (s.reads.g g).toNat = none → ∃ t, exec (.rowrunNorm p d r g) s = .next t ∧ SameMemory s t
          ∧ t.tile.row.queue = s.tile.row.queue ++ [cmd .norm] ∧ t.ctx.sys.srstep = s.ctx.sys.srstep + 1 ∧ t.ctx.regs = s.reads.ctx.regs))
      ∧ (s.tile.cpy.queue.length < 16 → ∀ x ∈ [(BlockForm.cpy, Instr.cpy p d r g), (.cpyx, .cpyx p d r g), (.cpyf, .cpyf p d r g)],
        s.reads.blockCmdCheck x.1 (s.reads.g g).toNat = none → ∃ t, exec x.2 s = .next t ∧ SameMemory s t
          ∧ t.tile.cpy.queue = s.tile.cpy.queue ++ [cmd x.1] ∧ t.ctx.sys.srstep = s.ctx.sys.srstep ∧ t.ctx.regs = s.reads.ctx.regs))
    ∧ (cleanG s g → Completes (.dset p d g) s (s.reads.modCtx (fun c =>
        { c with regs := { c.regs with d := c.regs.d.set d.toNat ((s.reads.g g).extractLsb' 8 24 ++ (0#8)) d.isLt } })) [])
    ∧ Completes (.dget p d g) s s.reads [s.reads.result 3 (.n 1) (.g g (s.ctx.regs.d[d.toNat]'d.isLt)) false]
    ∧ (e ≠ 3 → ∃ t, exec (.ecancel p e) s = .next t ∧ SameMemory s t ∧ t.ctx.regs = s.reads.ctx.regs
        ∧ EndAct.stop (if e = 0 then .matrix else if e = 1 then .row else .copy) s.tag false ∈ t.tile.core.atEnd
        ∧ (e = 0 → (∀ c ∈ t.tile.mx.queue, c.tag ≠ s.tag) ∧ ∀ c ∈ t.tile.mx.saved, c.cmd.tag ≠ s.tag)
        ∧ (e = 1 → ∀ c ∈ t.tile.row.queue, c.tag ≠ s.tag) ∧ (e = 2 → ∀ c ∈ t.tile.cpy.queue, c.tag ≠ s.tag))
    ∧ (∀ k : Fin 3, let ek : BitVec 2 := BitVec.ofNat 2 k.val
        (cleanG s g → Completes (.excset p ek g) s (s.reads.modTile (fun t => { t with mx := { t.mx with
          thresh := t.mx.thresh.set k.val (s.reads.g g) k.isLt, count := t.mx.count.set k.val 0 k.isLt } })) [])
        ∧ Completes (.excget p ek g) s s.reads [s.reads.result 3 (.n 1) (.g g (s.tile.mx.count[k])) false])
    ∧ Completes (.eqstat p e g) s s.reads [s.reads.result 3 (.n 1) (.g g (s.tile.eqstat s.tag e.toNat)) false]

/-! ### The engines (chapters 7 and 8) -/

/-- R183 to R189: what each microinstruction that the routine fetches does. ACCMODE takes its modes; LOOP with count m puts its place and m on the
loop stack, or skips its body where m is 0; ENDLOOP advances its pointers by its increments of 64 bytes mod 2^24, goes back while the
count is above 1 and leaves the loop at 1; SYNC and END wait until all outputs are written and all loads done; SYNC signals and
pushes its mark, END completes the command with its signal and gives up its leave; LOADW starts to load the shadow tile; STREAM
makes a pending shadow active and starts its rows; DRAIN sends the PE accumulators to the accumulator store.
Rests on the model's own reading or choice where log 33, 159 say so. -/
def Obligations.Microinstructions : Prop :=
  ∀ (s : State) (c : TileId) (r : MatrixRun), let u := s.focus c
    Fetching u r →
    let rt : RoutineState := { r.rt with idx := r.rt.idx + 1 }
    let goes (q : MatrixRun) : State := u.running (some { q with fetchAt := u.now + 1 })
    let quiet : Prop := r.outs = [] ∧ r.stream = none ∧ r.load = none ∧ r.loadFree ≤ u.now
    let free : Prop := r.stream = none ∧ r.load = none ∧ r.arrayFree ≤ u.now ∧ r.loadFree ≤ u.now
    let counts (cnt : BitVec 16) (cx : BitVec 1) (m : Nat) : Prop :=
      if cx = 0 then m = cnt.toNat else m = ((r.cmd.xs[(cnt.extractLsb' 0 3).toNat]).extractLsb' 32 16).toNat
    (∀ a e k : BitVec 1, exec (.accmode c a e k) s = .next (goes { r with rt := { rt with add := a == 1, ce := e == 1, col := k == 1 } }))
    ∧ (∀ cnt cx m, r.rt.loops.length < 4 → counts cnt cx m →
        exec (.routineLoop c cnt cx) s
          = .next (goes { r with rt := if m = 0 then { rt with skip := 1 } else { rt with loops := (rt.idx, m) :: rt.loops } }))
    ∧ (∀ (e1 : BitVec 1) (p1 : BitVec 3) (i1 : BitVec 16) (e2 : BitVec 1) (p2 : BitVec 3) (i2 : BitVec 16) start m rest,
        r.rt.loops = (start, m) :: rest → ∃ ptrs : Vector (BitVec 24) 8,
        (∀ k : Fin 8, ptrs[k] = r.rt.ptrs[k] + (if e1 = 1 ∧ p1.toNat = k.val then BitVec.ofInt 24 (64 * i1.toInt) else 0)
          + (if e2 = 1 ∧ p2.toNat = k.val then BitVec.ofInt 24 (64 * i2.toInt) else 0))
        ∧ exec (.endloop c e1 p1 i1 e2 p2 i2) s = .next (goes { r with rt :=
            if m ≤ 1 then { rt with ptrs := ptrs, loops := rest } else { rt with ptrs := ptrs, idx := start, loops := (start, m - 1) :: rest } }))
    ∧ (∀ (sv : BitVec 1) (sem : BitVec 5) (qe : BitVec 1) (mark : BitVec 16), quiet → r.marked = false →
        (qe = 1 → QueueRoom u r.cmd.tag 0) → (∀ p ∈ u.tile.pushes, p.engine ≠ some .matrix) →
        exec (.sync c sv sem qe mark) s = .next ((goes { r with rt := rt }).modTile (fun t =>
          let t := if qe = 1 then t.rqAppend r.cmd.tag 0 (markEntry mark.toNat) else t
          if sv = 1 then t.modCtx r.cmd.tag (fun x => x.semAdd sem 1) else t)))
    ∧ (quiet → ∃ t, exec (.routineEnd c) s = .next t ∧ SameMemory u t ∧ t.tile.mx = { u.tile.mx with run := none, pe := [] }
        ∧ (t.tile.ctx r.cmd.tag) = (if r.cmd.dep.getLsbD 31 then (u.tile.ctx r.cmd.tag).semAdd (r.cmd.dep.extractLsb' 26 5) 1 else u.tile.ctx r.cmd.tag)
        ∧ ∀ x ∈ (t.wafer.cruise.reticles[u.reticleId]).power.held, x.1 ≠ u.tile.at')
    ∧ (∀ (ms : BitVec 1) (pa : BitVec 3) (off : BitVec 16) (wl : BitVec 5) (sp : BitVec 2) (dw : BitVec 1) (nc : BitVec 7), r.load = none →
        let x : LoadSource := { memsel := ms == 1, base := r.rt.ptrs[pa.toNat]'pa.isLt + BitVec.ofNat 24 (64 * off.toNat), wl := wl, sp := sp,
                                dw := dw == 1, nc := nc }
        let n := x.csz * (nc.toNat + 1)
        (dw = 1 → wl.toNat ≤ 2 ∨ wl = 16 ∨ wl = 17) → nc.toNat < (if dw = 1 then 128 else if layBits wl = 16 then 32 else 64) →
        (sp ≠ 0 → dw = 0 ∧ layBits wl ≠ 16) → x.base.toNat % 64 = 0 →
        u.rangeOk r.cmd.kernel (if ms = 1 then .wst else .spad) x.base.toNat n = true →
        (ms = 1 → (∀ m, u.wafer.imageOf r.cmd.kernel = some m → m.writeMode = false)
          ∧ ((∃ k, u.wafer.kernel? r.cmd.kernel = some k ∧ k.secure = true)
            ∨ ∀ b ∈ banksOf .wst x.base.toNat n, u.tile.life.wssec.toNat.testBit b = false)) →
        exec (.loadw c ms pa off wl sp dw nc) s = .next (goes { r with rt := rt, load := some { src := x, idx := r.rt.idx } }))
    ∧ (∀ (df : BitVec 2) (pa po : BitVec 3) (ol : BitVec 5) (cnt : BitVec 16) (cx : BitVec 1) (os : BitVec 8) (xo : BitVec 16) (sb : BitVec 4) (m : Nat),
        free → u.overtaken r = false → counts cnt cx m → (cx = 1 → cnt.toNat < 8) → streamFormat df ol u.tile.mx.nextActive xo sb = true →
        let a := (r.rt.ptrs[pa.toNat]'pa.isLt).toNat
        let o := (r.rt.ptrs[po.toNat]'po.isLt).toNat
        let w := u.tile.mx.nextActive
        let x : StreamRun :=
          { mi := r.mseq, idx := r.rt.idx, df := df, ol := ol, rows := m, at' := u.now + 1, base := a,
            stride := if os = 0 then planeBytes df ol + (if layBq ol ∧ xo = 0 then 64 else 0) else os.toNat * 64,
            xo := xo.toInt, sb := sb.toNat, out := o, add := r.rt.add, ce := r.rt.ce, col := r.rt.col }
        (m ≠ 0 → a % 64 = 0 ∧ o % 64 = 0
          ∧ (∀ i < m, ∀ q ∈ x.reads (if df = 0 then subRows w.sp else 1) i, u.rangeOk r.cmd.kernel .spad q.1 q.2 = true)
          ∧ (df ≠ 2 → o + m * 4 * rowWords df w ≤ 0x40000 ∧ u.rangeOk r.cmd.kernel .acc o (m * 4 * rowWords df w) = true)) →
        let q : MatrixRun := if m = 0 then { r with rt := rt, stream := none } else { r with rt := rt, stream := some x, mseq := r.mseq + 1 }
        exec (.stream c df pa po ol cnt cx os xo sb) s = .next ((goes q).modTile (fun t =>
          if t.mx.pendingShadow then
            { t with mx := { t.mx with active := t.mx.shadow, activeSrc := t.mx.shadowSrc, pendingShadow := false } }
          else t)))
    ∧ ∀ (pd : BitVec 3) (dt : BitVec 1) (scale : BitVec 8), free → (r.oDirty = true → r.planesEnd < u.now) → (dt = 0 → scale = 0) →
        let a := (r.rt.ptrs[pd.toNat]'pd.isLt).toNat
        a % 64 = 0 → a + 0x20000 ≤ 0x40000 → u.rangeOk r.cmd.kernel .acc a 0x20000 = true →
        ∃ t q, exec (.routineDrain c pd dt scale) s = .next t ∧ SameMemory u t ∧ t.tile.mx.run = some q ∧ t.tile.mx.pe = []
          ∧ q.rt = rt ∧ q.oDirty = false ∧ q.arrayFree = u.now + 513
          ∧ q.outs = r.outs ++ drainRows u.tile.mx.pe a (dt == 1) scale.toInt r.rt r.mseq u.now

/-- R198, R201 to R203, R213 to R215, R334, R468: the engines' commands. An idle engine starts the first of its best commands whose waits hold, which
takes them; the matrix engine loads the pointers from the x registers and, for a heavy routine, asks for leave; it saves a
routine that a better command overtakes before a STREAM, and resumes the best saved one; a row or copy command that has made its
last write pushes its mark, if it has one, signals and ends; a command that has faulted, or has run past EWDOG, ends with its
fault entry; leave is granted from the head of the FIFO within the budget, and a request that waits past LEAVETO ends its command
with 0x4E.
Rests on the model's own reading or choice where log 34, 35, 36, 145, 161, 168 say so. -/
def Obligations.EngineCommands : Prop :=
  ∀ (s : State) (c : TileId), let u := s.focus c
    let entry (t : State) (k : Tag) (q : Fin 4) (e : RqEntry) : Prop := QueueRoom u k q → (t.tile.ctx k).rq[q] = (u.tile.ctx k).rq[q] ++ [e]
    (u.tile.mx.run = none → u.tile.mx.replay = false → u.tile.resumesFirst u.now = false → ∀ cmd, u.tile.nextMatrixCmd u.now = some cmd →
      let cls := ((u.routines cmd.kernel).map (fun i => i.classAt cmd.idx.toNat)).getD 0
      (cmd ∈ u.tile.mx.queue ∧ cmd.enq < u.now ∧ ∀ y ∈ u.tile.mx.queue, y.enq < u.now → u.tile.depHolds y.tag y.dep = true →
        agedPrio y.pr (u.now - y.enq) ≤ agedPrio cmd.pr (u.now - cmd.enq))
      ∧ ∃ t q, exec (.matrixCommandStart c) s = .next t ∧ SameMemory u t ∧ t.tile.mx.run = some q ∧ q.cmd = cmd ∧ q.started = u.now
        ∧ q.fetchAt = u.now + 1 ∧ q.rt.idx = ((u.wafer.imageOf cmd.kernel).bind (fun i => i.entry? cmd.idx.toNat)).getD 0
        ∧ (∀ k : Fin 8, q.rt.ptrs[k] = (cmd.xs[k]).extractLsb' 0 24) ∧ q.rt.loops = [] ∧ q.rt.add = true
        ∧ q.fault = u.tile.mx.preBad.map (fun a => (0x46, q.rt.idx, a))
        ∧ q.leave = (if 2 ≤ cls then .requested u.now else .none)
        ∧ (2 ≤ cls → (u.tile.at', classBudget cls, u.now) ∈ (t.wafer.cruise.reticles[u.reticleId]).power.fifo)
        ∧ t.tile.mx.queue = u.tile.mx.queue.filter (fun x => x.order ≠ cmd.order) ∧ t.tile.mx.pendingShadow = false
        ∧ (t.tile.ctx cmd.tag).sems = (u.tile.ctx cmd.tag).sems.takeAll (depWaits cmd.dep))
    ∧ (∀ r x, Fetching u r → (∃ df pa po ol cnt cx os xo sb, x = Micro.stream df pa po ol cnt cx os xo sb) →
      (u.nextWord r).bind decodeMicro = some x → u.overtaken r = true → u.arrayReady r = true → r.rt.skip = 0 →
      exec (.routineSave c) s = .next (u.running (some { r with saving := some none })))
    ∧ (u.tile.mx.run = none → u.tile.mx.replay = false → u.tile.resumesFirst u.now = true → ∀ x, u.tile.nextSaved u.now = some x →
      ∃ t q, exec (.routineResume c) s = .next t ∧ SameMemory u t ∧ t.tile.mx.run = some q ∧ q.cmd = x.cmd ∧ q.rt = x.rt ∧ q.ran = x.ran
        ∧ q.restoring = some (u.now + 16, x.activeSrc.toList.map (·, true) ++ x.shadowSrc.toList.map (·, false)) ∧ q.fetchAt = u.now + 17
        ∧ t.tile.mx.active = (if x.activeSrc.isNone then {} else u.tile.mx.active)
        ∧ t.tile.mx.saved = u.tile.mx.saved.filter (fun y => y.cmd.order ≠ x.cmd.order))
    ∧ (∀ copy cmd, u.tile.nextBlockCmd copy u.now = some cmd →
      let e := u.tile.blockEngine copy
      (cmd ∈ e.queue ∧ cmd.enq < u.now ∧ ∀ y ∈ e.queue, y.enq < u.now → u.tile.depHolds y.tag y.dep = true →
        agedPrio y.pr (u.now - y.enq) ≤ agedPrio cmd.pr (u.now - cmd.enq))
      ∧ exec (if copy = true then .copyCommandStart c else .rowCommandStart c) s = .next (u.modTile (fun t =>
        (t.modCtx cmd.tag (fun x => { x with sems := x.sems.takeAll (depWaits cmd.dep) })).setBlockEngine copy
          { queue := e.queue.filter (fun x => x.order ≠ cmd.order), run := some { cmd := cmd, started := u.now } })))
    ∧ (∀ copy r, (u.tile.blockEngine copy).run = some r → r.fault = none → u.blockDone r = true → r.marked = false →
      (∀ p ∈ u.tile.pushes, p.engine ≠ some (if copy then .copy else .row)) →
      let ctl := blkWord r.cmd.block 7
      let q : Fin 4 := if copy then 2 else 1
      (ctl.getLsbD 31 = true → QueueRoom u r.cmd.tag q) →
      exec (if copy = true then .copyCommandComplete c else .rowCommandComplete c) s = .next (u.modTile (fun t =>
        let t := if ctl.getLsbD 31 then t.rqAppend r.cmd.tag q (markEntry (ctl.extractLsb' 0 16).toNat) else t
        let t := if r.cmd.dep.getLsbD 31 then t.modCtx r.cmd.tag (fun x => x.semAdd (r.cmd.dep.extractLsb' 26 5) 1) else t
        t.setBlockEngine copy { (u.tile.blockEngine copy) with run := none })))
    ∧ (∀ r code idx off, u.tile.mx.run = some r → r.fault = some (code, idx, off) →
      ∃ t, exec (.engineCommandFault c .matrix) s = .next t ∧ SameMemory u t ∧ t.tile.mx.run = none ∧ t.tile.mx.queue = u.tile.mx.queue
        ∧ entry t r.cmd.tag 0 (faultEntry r.cmd.pc code (r.cmd.idx.toNat + idx * 2 ^ 16) off)
        ∧ ∀ x ∈ (t.wafer.cruise.reticles[u.reticleId]).power.held, x.1 ≠ u.tile.at')
    ∧ (∀ copy r code idx off, (u.tile.blockEngine copy).run = some r → r.fault = some (code, idx, off) →
      ∃ t, exec (.engineCommandFault c (if copy then .copy else .row)) s = .next t ∧ SameMemory u t
        ∧ t.tile.blockEngine copy = { (u.tile.blockEngine copy) with run := none }
        ∧ entry t r.cmd.tag (if copy then 2 else 1) (faultEntry r.cmd.pc code idx off))
    ∧ (u.wafer.host.ewdog ≠ 0 →
      (∀ r, u.tile.mx.run = some r → r.fault = none → u.wafer.host.ewdog.toNat < u.now - r.started + r.ran →
        ∃ t, exec (.engineWatchdog c .matrix) s = .next t ∧ SameMemory u t ∧ t.tile.mx.run = none
          ∧ entry t r.cmd.tag 0 (faultEntry r.cmd.pc 0x4F (r.cmd.idx.toNat + r.rt.idx * 2 ^ 16) 0))
      ∧ ∀ copy r, (u.tile.blockEngine copy).run = some r → u.wafer.host.ewdog.toNat < u.now - r.started →
        ∃ t, exec (.engineWatchdog c (if copy then .copy else .row)) s = .next t ∧ SameMemory u t ∧ (t.tile.blockEngine copy).run = none
          ∧ entry t r.cmd.tag (if copy then 2 else 1) (faultEntry r.cmd.pc (if copy then 0x57 else 0x56) (r.reached u.now).1 (r.reached u.now).2))
    ∧ (∀ (r : ReticleId) d k n rest, let p := (s.wafer.cruise.reticles[r]).power
      p.throttle = false → p.noLeave = false → p.fifo = (d, k, n) :: rest → n < s.now → k + (p.held.map (·.2)).sum ≤ p.budget →
      ∃ t, exec (.leaveGrant r) s = .next t ∧ SameMemory s t ∧ (d, k) ∈ (t.wafer.cruise.reticles[r]).power.held
        ∧ (((t.wafer.cruise.reticles[r]).power.held.map (·.2)).sum ≤ p.budget)
        ∧ ∀ x, (s.tileAt d).mx.run = some x → ∃ y, (t.tileAt d).mx.run = some y ∧ y.leave = .granted s.now ∧ s.now < y.fetchAt)
    ∧ (∀ r n, u.tile.mx.run = some r → r.leave = .requested n → n + (u.wafer.cruise.reticles[u.reticleId]).power.leaveto.toNat < u.now →
      ∃ t, exec (.leaveTimeout c) s = .next t ∧ SameMemory u t
        ∧ t.tile.mx.run = some { r with leave := .none, fault := some (0x4E, r.rt.idx, 0) }
        ∧ ∀ x ∈ (t.wafer.cruise.reticles[u.reticleId]).power.fifo, x.1 ≠ u.tile.at')

/-- R157, R231, R286, R337: a feed with room reads the next beat of the next vector of its walk, and with the last beat the vector can be popped
from the next cycle on; an outlet writes the next beat of its oldest vector at its walk's next address, and with the last one of
the walk signals, if its block says so, and goes IDLE; an entry that has waited 65,536 cycles for a full result queue gives its
context deferred trap 0x64, once.
Rests on the model's own reading or choice where log 37, 38, 142, 155 and 157 say so. -/
def Obligations.PortsAtWork : Prop :=
  ∀ (s : State) (c : TileId) (k : Tag), let u := (s.focus c).focusTag k
    (∀ f : Fin 8, let p := u.ctx.feeds[f]
      let r := p.beatRange p.beats
      let beats := p.part ++ [u.tile.read .spad r.1 r.2]
      let bad := p.partBad || u.tile.readBad .spad r.1 r.2
      p.readAt ≤ u.now → u.ctx.life.st.latched = false → p.active = true → p.held.length < 2 → p.read < p.total →
      u.portServed u.ctx.life.kernel r.1 r.2 false = true →
      (p.rebuild = false → r = ((walkAddr p.block p.i0 p.i1 p.i2 p.i3).toNat + 64 * p.beats, 64))
      ∧ ∃ t, exec (.feedRead c k f) s = .next t ∧ SameMemory u t ∧ t.ctx.regs = u.ctx.regs
        ∧ (∀ g : Fin 8, g ≠ f → t.ctx.feeds[g] = u.ctx.feeds[g])
        ∧ (p.beats + 1 ≠ p.beatCount → t.ctx.feeds[f] = { p with beats := p.beats + 1, part := beats, partBad := bad, readAt := u.now + 1 })
        ∧ (p.beats + 1 = p.beatCount → ∃ v, (t.ctx.feeds[f]).held = p.held ++ [v] ∧ v.due = u.now + 1 ∧ v.poison = bad
          ∧ (t.ctx.feeds[f]).read = p.read + 1 ∧ (t.ctx.feeds[f]).beats = 0 ∧ u.now < (t.ctx.feeds[f]).readAt
          ∧ v.val = (if p.rebuild then (p.rebuilt beats).1 else BitVec.ofNat 4096 (leJoin 64 beats))))
    ∧ (∀ (o : Fin 4) v rest, let p := u.ctx.outlets[o]
      let a := (walkAddr p.block p.i0 p.i1 p.i2 p.i3).toNat + 64 * p.beats
      p.buf = v :: rest → p.writeAt ≤ u.now → u.portServed u.ctx.life.kernel a 64 true = true → u.tile.mem.wf = true →
      ∃ t, exec (.outletWrite c k o) s = .next t ∧ SameMemoryBut u t u.tile.at' .spad a 64
        ∧ (∀ j < 64, t.byte u.tile.at' .spad (a + j) = v.extractLsb' (512 * p.beats + 8 * j) 8)
        ∧ t.ctx.regs = u.ctx.regs
        ∧ (p.beats < 7 → t.ctx.outlets[o] = { p with beats := p.beats + 1 } ∧ t.ctx.sems = u.ctx.sems)
        ∧ (7 ≤ p.beats → (t.ctx.outlets[o]).buf = rest ∧ (t.ctx.outlets[o]).written = p.written + 1 ∧ (t.ctx.outlets[o]).beats = 0
          ∧ u.now < (t.ctx.outlets[o]).writeAt
          ∧ (t.ctx.outlets[o]).active = (p.active && decide (p.written + 1 < walkTotal p.block))
          ∧ t.ctx.sems = (if walkTotal p.block ≤ p.written + 1 ∧ (blkWord p.block 7).getLsbD 31 = true
              then (u.ctx.semAdd ((blkWord p.block 7).extractLsb' 24 5) 1).sems else u.ctx.sems)))
    ∧ ∀ p, p ∈ (s.focus c).tile.pushes → p.tag = k → p.told = false → p.since + 65536 ≤ s.now → u.ctx.life.st ≠ .empty → u.ctx.life.st ≠ .killing →
      u.ctx.life.deferred = none → ∃ t, exec (.rqOverflow c k) s = .next t ∧ SameMemory u t ∧ (t.tile.ctx k).life.deferred = some 0x64
        ∧ ∀ q ∈ t.tile.pushes, q.tag = k → q.since + 65536 ≤ s.now → q.told = true

/-! ### What happens to contexts between bundles (chapters 10 and 11) -/

/-- R255 to R258, R271: an empty seat takes the best-ranked READY context that has none; a READY context displaces the lower-ranked of the two seated
ones that are below its PRIO; a BLOCKED context becomes READY when its conditions hold or a trap waits for it, and when its
YIELD's cycle has come; R260: the oldest handler start that is due goes to the lowest-numbered DORMANT, ARMED context of its kernel, with its
descriptor in g1 to g4; R275, R278, R290: a deferred trap and a containment recovery are taken before the next bundle. -/
def Obligations.SeatsAndStarts : Prop :=
  ∀ (s : State) (c : TileId), let u := s.focus c
    (∀ (seat : Fin 2) k, u.tile.core.seats[seat] = none → seat ∉ u.tile.core.log.vacated → u.tile.bestOf u.tile.waiting = some k →
      ((u.tile.ctx k).life.st = .ready ∧ ∀ j : Tag, (u.tile.ctx j).life.st = .ready → u.tile.core.seatOf j = none →
        (u.tile.ctx k).rank ≤ (u.tile.ctx j).rank)
      ∧ exec (.seatTake c seat) s = .next (u.modTile (fun t =>
        { (t.modCtx k (fun x => { x with life := { x.life with st := .issuing } })) with
          core := { t.core with seats := t.core.seats.set seat.val (some { tag := k, since := u.now }) seat.isLt } })))
    ∧ (∀ a b k, u.tile.core.seats[0] = some a → u.tile.core.seats[1] = some b → u.tile.bestOf u.tile.waiting = some k →
      ∀ x ∈ [(a.tag, b.tag), (b.tag, a.tag)], x.1 ≠ x.2 → (u.tile.ctx x.1).life.st = .issuing →
      (u.tile.ctx x.1).sys.prio < (u.tile.ctx k).sys.prio →
      ((u.tile.ctx x.2).rank < (u.tile.ctx x.1).rank ∨ (u.tile.ctx k).sys.prio ≤ (u.tile.ctx x.2).sys.prio) →
      ∃ t, exec (.displacement c) s = .next t ∧ SameMemory u t ∧ (t.tile.ctx x.1) = { (u.tile.ctx x.1) with life := { (u.tile.ctx x.1).life with st := .ready } }
        ∧ t.tile.core.seatOf x.1 = none ∧ t.tile.core.seatOf x.2 = u.tile.core.seatOf x.2
        ∧ ∀ j : Tag, j ≠ x.1 → t.tile.ctx j = u.tile.ctx j)
    ∧ (∀ k : Tag, let v := u.focusTag k
      v.ctx.life.st = .blocked →
      let ready : State := v.modCtx (fun x => { x with life := { x.life with st := .ready, yieldUntil := none } })
      ((v.ctx.life.yieldUntil = none ∧ ∀ w ∈ v.ctx.life.waits, v.clears w = true) ∨ v.ctx.called = true → exec (.contextReady c k) s = .next ready)
      ∧ ∀ d, v.ctx.life.yieldUntil = some d → d ≤ v.cycle → exec (.yieldDeadline c k) s = .next ready)
    ∧ (∀ h rest k, u.tile.stores.handlers = h :: rest → h.ready = true → h.since < u.now → u.tile.handlerFor h.kernel = some k →
      (∀ x ∈ rest, x.serial ≠ h.serial) →
      ((u.tile.ctx k).life.st = .dormant ∧ (u.tile.ctx k).sys.armed = true ∧ (u.tile.ctx k).life.kernel = h.kernel)
      ∧ ∃ t, exec (.handlerStart c) s = .next t ∧ SameMemory u t ∧ (t.tile.ctx k).life.st = .ready ∧ (t.tile.ctx k).flow.pc = h.pc
        ∧ (t.tile.ctx k).flow.npc = h.pc + 16 ∧ (t.tile.ctx k).regs.getG 1 = { val := h.g1 } ∧ (t.tile.ctx k).regs.getG 2 = { val := h.g2 }
        ∧ (t.tile.ctx k).regs.getG 3 = { val := h.g3 } ∧ (t.tile.ctx k).regs.getG 4 = { val := h.g4 }
        ∧ (∀ r : BitVec 5, 4 < r.toNat → (t.tile.ctx k).regs.getG r = (u.tile.ctx k).regs.getG r) ∧ (t.tile.ctx k).regs.v = (u.tile.ctx k).regs.v
        ∧ t.tile.stores.handlers = rest ∧ ∀ j : Tag, j ≠ k → t.tile.ctx j = u.tile.ctx j)
    ∧ ∀ k : Tag, let v := u.focusTag k
      v.ctx.life.st = .issuing → v.ctx.sys.inHandler = false →
      (∀ code, v.ctx.life.deferred = some code → ∀ n, (v.program.bind (·.vector)) = some n → ∃ t, exec (.deferredTrap c k) s = .next t
        ∧ SameMemory u t ∧ (t.ctx.life.deferred = none ∨ t.ctx.life.deferred = some 0xBE) ∧ t.ctx.sys.inHandler = true ∧ t.ctx.sys.cause = code
        ∧ t.ctx.sys.epc = v.ctx.flow.npc.extractLsb' 4 14 ++ v.ctx.flow.pc.extractLsb' 4 14 ++ (0#4) ∧ t.ctx.sys.epcDelay = v.ctx.flow.indelay
        ∧ t.ctx.flow.pc = BitVec.ofNat 32 (16 * n) ∧ t.ctx.flow.npc = BitVec.ofNat 32 (16 * n) + 16 ∧ t.ctx.flow.indelay = false
        ∧ t.ctx.flow.loops = v.ctx.flow.loops ∧ t.ctx.regs = v.ctx.landedAll.regs ∧ t.ctx.pending = [])
      ∧ (v.ctx.life.recovery = true → ∃ t, exec (.containmentRecovery c k) s = .next t ∧ SameMemory u t ∧ t.ctx.sys.inHandler = false
        ∧ t.ctx.sys.cause = 0xA1 ∧ t.ctx.regs = { v.ctx.regs with g := v.ctx.ckpt.g, p := v.ctx.ckpt.p } ∧ t.ctx.ckpt.opened = false
        ∧ t.ctx.flow.pc = v.ctx.ckpt.handler ∧ t.ctx.flow.npc = v.ctx.ckpt.handler + 16 ∧ t.ctx.life.resumeAt = v.now + 4
        ∧ (∀ x ∈ t.tile.mx.queue, x.tag = k → x.region = false) ∧ (∀ x ∈ t.tile.row.queue ++ t.tile.cpy.queue, x.tag = k → x.region = false)
        ∧ ∀ x ∈ t.ctx.pending, ∀ (i : BitVec 5) (j : BitVec 3) a b, x.write ≠ .g i a ∧ x.write ≠ .p j b)

/-- R261 to R268, R286: a swap. A request stages its incoming context; the decision, once staging has read its slot and in a cycle in which the
outgoing context does not issue, leaves that one SPILLING with nothing to issue; eight cycles later the incoming one is resident under its number; the outgoing one is SAVED when its slot holds it,
with the fields of Tables 10-4 and 10-5 at their places; an uncorrectable word in the slot leaves the incoming one FAULTED with 0xA4.
Rests on the model's own reading or choice where log 69, 70, 75, 178, 182 say so. -/
def Obligations.Swaps : Prop :=
  ∀ (s : State) (c : TileId), let u := s.focus c
    (∀ (o : Fin 4) (k : Tag) (n : Fin 2), u.tile.core.swapWaiting = [] → u.tile.core.swap = none → u.tile.core.spillTag = none →
      (u.tile.ctx k).life.st = .saved → (u.tile.ctx k).life.saveSlot = some n →
      ∃ t w, exec (.swapRequest c o (.saved k)) s = .next t ∧ SameMemory u t ∧ t.tile.core.swap = some w ∧ w.out = o ∧ w.inTag = some k ∧ w.slot = n
        ∧ w.decided = none ∧ u.now < w.stageEnd ∧ w.left = 512 ∧ t.tile.core.swapWaiting = []
        ∧ (t.tile.ctx k) = { (u.tile.ctx k) with life := { (u.tile.ctx k).life with st := .staged } })
    ∧ (∀ (o : Fin 4) (i : SwapIn), u.tile.core.swap ≠ none → (∀ x ∈ u.tile.core.swapWaiting, x ≠ (o, i)) →
      exec (.swapRequest c o i) s = .next (u.modCore (fun x => { x with swapWaiting := x.swapWaiting ++ [(o, i)] })))
    ∧ (∀ w k j, u.tile.core.swap = some w → w.inTag = some k → w.incoming = .saved j → w.stageEnd ≤ u.now → w.left = 0 → w.decided = none →
      if u.tile.readBad .spad (0x1F0000 + 0x8000 * w.slot.val) 0x7180 = true then
        ∃ t, exec (.stagingEnd c) s = .next t ∧ SameMemory u t ∧ (t.tile.ctx k).life.st = .faulted ∧ t.tile.core.swap = none
          ∧ t.tile.life.causes = u.tile.life.causes ++ [0xA4]
      else exec (.stagingEnd c) s = .next s)
    ∧ (∀ w i k, u.tile.core.swap = some w → w.decided = none → w.left = 0 → w.stageEnd ≤ u.now → w.inTag = some i → (u.tile.ctx i).life.st = .staged →
      u.tile.numbered w.out = some k → (u.tile.ctx k).swapsOut = true → i ≠ k → (∀ e ∈ u.tile.core.log.issued, e.tag ≠ k) →
      ∃ t, exec (.swapDecision c) s = .next t ∧ SameMemory u t ∧ (t.tile.ctx k).life.st = .spilling ∧ (t.tile.ctx k).life.saveSlot = some w.slot
        ∧ (t.tile.ctx k).regs = (u.tile.ctx k).regs ∧ (∀ f : Fin 8, ((t.tile.ctx k).feeds[f]).held = [])
        ∧ (t.tile.ctx k).life.resume = (match (u.tile.ctx k).life.st with | .blocked => .blocked | .halted => .halted | _ => .ready)
        ∧ t.tile.core.swap = some { w with decided := some u.now, outTag := some k, seat := u.tile.core.seatOf k }
        ∧ (u.now + 8, Auto.swapIn c) ∈ t.timers)
    ∧ (∀ w d k, u.tile.core.swap = some w → w.decided = some d → d + 8 ≤ u.now → w.inTag = some k → (∀ o, w.outTag = some o → o ≠ k) →
      (∀ i : Fin 32, ((u.tile.ctx k).sems.s[i]).toNat + ((u.tile.ctx k).sems.latch[i]).toNat ≤ 65535) → (u.tile.ctx k).sems.latchOver = false →
      ∃ t, exec (.swapIn c) s = .next t ∧ SameMemory u t ∧ (t.tile.ctx k).life.num = some w.out ∧ (t.tile.ctx k).life.saveSlot = none
        ∧ t.tile.core.swap = none ∧ (t.tile.ctx k).regs = (u.tile.ctx k).regs ∧ (t.tile.ctx k).flow = (u.tile.ctx k).flow
        ∧ (∀ i : Fin 32, ((t.tile.ctx k).sems.s[i]).toNat = ((u.tile.ctx k).sems.s[i]).toNat + ((u.tile.ctx k).sems.latch[i]).toNat)
        ∧ ((u.tile.ctx k).life.resume = .halted → (t.tile.ctx k).life.st = .halted)
        ∧ (w.outTag = none → (u.tile.ctx k).life.resume = .ready → (t.tile.ctx k).life.st = .ready)
        ∧ ∀ o, w.outTag = some o → (u.tile.ctx o).life.st = .spilling →
          (t.tile.ctx o).life.num = none ∧ t.tile.core.spillTag = some o ∧ t.tile.core.seatOf o = none ∧ u.now < t.tile.core.spillEnd
            ∧ t.tile.core.spillLeft = 512)
    ∧ ∀ k n, u.tile.core.spillTag = some k → u.tile.core.spillEnd ≤ u.now → u.tile.core.spillLeft = 0 → (u.tile.ctx k).outletsWritten = true →
      (u.tile.ctx k).life.saveSlot = some n → u.tile.mem.wf = true →
      let x := u.tile.ctx k
      let base := 0x1F0000 + 0x8000 * n.val
      ∃ t, exec (.spillDone c) s = .next t ∧ SameMemoryBut u t u.tile.at' .spad base 0x8000 ∧ (t.tile.ctx k).life.st = .saved
        ∧ t.tile.core.spillTag = none
        ∧ (∀ i : Fin 16, t.tile.read .spad (base + 0x200 * i.val) 512 = (x.regs.v[i]).val.toNat)
        ∧ (∀ i : Fin 32, i ≠ 0 → t.tile.read .spad (base + 0x2000 + 4 * i.val) 4 = (x.regs.g[i]).val.toNat)
        ∧ (∀ i : Fin 32, t.tile.read .spad (base + 0x21C0 + 2 * i.val) 2 = (x.sems.s[i]).toNat)
        ∧ t.tile.read .spad (base + 0x2240) 4 = x.flow.pc.toNat ∧ t.tile.read .spad (base + 0x2244) 4 = x.flow.npc.toNat
        ∧ t.tile.read .spad (base + 0x224C) 4 = x.sys.fpc.toNat ∧ t.tile.read .spad (base + 0x2254) 4 = x.sys.epc.toNat
        ∧ t.tile.read .spad (base + 0x2550) 4 = 2 ^ 31 + k.val

/-- R294 to R296, Table 11-7: the kill of a context goes through its steps, one after the other, each in a cycle of its own: it leaves its seat
and its pending writes are dropped; its commands are cancelled and its ports stop; what it has not injected is dropped, and the rest
is waited for, or purged from a port that holds it whole past its replay timeout; its units are given up with the last context of its kernel; its ends close and its queues empty; then the tag is free,
a context that asked for the kill gains 1 in s31, and the host is told of a kill that it began.
Rests on the model's own reading or choice where log 68, 166, 186 say so. -/
def Obligations.Kills : Prop :=
  ∀ (s : State) (c : TileId) (k : Tag), let u := s.focus c
    let x := u.tile.ctx k
    let moves (f : Nat → Prop) : Prop := ∃ t, exec (.kill c k) s = .next t ∧ SameMemory u t ∧ (t.tile.ctx k).life.st = .killing ∧ f (t.tile.ctx k).kill.step
      ∧ t.tile.core.seatOf k = none ∧ (t.tile.ctx k).pending = []
    (x.life.st ≠ .empty → x.life.st ≠ .killing → moves (fun n => n = 2))
    ∧ (x.life.st = .killing → x.kill.began ≤ u.now → u.tile.core.seatOf k = none → x.pending = [] →
      (x.kill.step = 2 → ∃ t, exec (.kill c k) s = .next t ∧ SameMemory u t ∧ (t.tile.ctx k).portsIdle = true
        ∧ (∀ q ∈ t.tile.mx.queue, q.tag ≠ k) ∧ (∀ q ∈ t.tile.row.queue ++ t.tile.cpy.queue, q.tag ≠ k)
        ∧ EndAct.stop .matrix k false ∈ t.tile.core.atEnd ∧ EndAct.stop .row k false ∈ t.tile.core.atEnd
        ∧ EndAct.stop .copy k false ∈ t.tile.core.atEnd
        ∧ (t.tile.ctx k).kill.step = if u.tile.enginesQuiet (· == k) = true then 3 else 2)
      ∧ (x.kill.step = 3 → ∃ t, exec (.kill c k) s = .next t ∧ SameMemory u t
        ∧ (∀ q ∈ u.tile.netq, q.tag = k → q.injected = false → q ∉ t.tile.netq)
        ∧ ((∀ p, ∀ b ∈ (u.port p).outbound, b.src ≠ u.tile.at') → ∀ q ∈ u.tile.netq, (q ∈ t.tile.netq ↔ q.tag ≠ k ∨ q.injected = true))
        ∧ (∀ q ∈ u.tile.netq, q.tag = k → q.injected = true → ∀ p, ∀ b ∈ (u.port p).outbound, b.src = u.tile.at' → b.serial = q.serial →
            (u.port p).holds q.serial = q.flitCount → x.kill.netAt + (u.port p).regs.rplto.toNat ≤ u.now → ∀ y ∈ t.tile.netq, y.serial ≠ q.serial)
        ∧ ((∀ q ∈ u.tile.netq, q.tag = k → q.injected = false ∨ (gaSpace q.addr = 8 ∧ q.kind ≠ .rget)) → (t.tile.ctx k).kill.step = 4))
      ∧ (x.kill.step = 4 → (∀ q ∈ u.tile.netq, q.tag ≠ k) → (∀ r ∈ u.tile.cut, r.cmd.tag ≠ k) → moves (fun n => n = 5))
      ∧ (x.kill.step = 5 → moves (fun n => n = 6))
      ∧ (x.kill.step = 6 → ∃ t, exec (.kill c k) s = .next t ∧ SameMemory u t ∧ (t.tile.ctx k).kill.step = 7
        ∧ (∀ q : Fin 4, (t.tile.ctx k).rq[q] = []) ∧ (∀ p ∈ t.tile.pushes, p.tag ≠ k) ∧ (∀ n : Fin 2, t.tile.core.slotBusy[n] ≠ some k)))
    ∧ (x.life.st = .killing → x.kill.step = 7 → ∃ t, exec (.killDone c k) s = .next t ∧ SameMemory u t
      ∧ EndAct.fold k ∈ t.tile.core.atEnd ∧ (x.kill.byHost = true → (c, k) ∈ t.wafer.host.killed)
      ∧ (x.kill.byTag = none → t.tile.ctx k = {})
      ∧ ∀ j, x.kill.byTag = some j → j ≠ k → t.tile.ctx k = {} ∧ t.tile.ctx j = (u.tile.ctx j).semAdd 31 1)
    ∧ ∀ b : Fin 32, exec (.weightStoreRefresh c b) s = .next s

/-! ### The network (chapters 6, 9 and 19) -/

/-- R163 to R167, R333: an injected operation is the one of highest effective priority, the oldest among equals; it travels to the tile its
address names. A beat of an RST is stored, one of an RADD added word by word, an RAMO's word replaced and its old value returned, an
RGET's unit returned with its eighth beat; the last beat performs the operation, which then leaves its queue if it has no result;
an operation that its target does not admit fails with a reason. Results enter q3. A release goes when what it covers is performed, or
fails with reason 7; an acquire's wait ends and the feeds discard what they hold. A held message goes again when the coordinate has resumed
(R440). A host write lands in external memory (R247).
Rests on the model's own reading or choice where log 40, 45, 49, 50, 51, 183 say so. -/
def Obligations.NetworkOperations : Prop :=
  ∀ (s : State),
    (∀ c o l r, let u := s.focus c
      u.tile.life.st = .live → u.tile.netq = l ++ o :: r → u.goes o = true → u.ownWafer o.addr = true →
      (∀ x ∈ u.tile.netq, x.kind = .hmsg → x.units ≤ x.bytes.length) → ((l ++ o :: r).map (·.serial)).Nodup →
      (∀ x ∈ l, u.goes x = true → agedPrio x.pr (u.now - x.enq) < agedPrio o.pr (u.now - o.enq)) →
      (∀ x ∈ r, u.goes x = true → agedPrio x.pr (u.now - x.enq) ≤ agedPrio o.pr (u.now - o.enq)) →
      let o' : RemoteOp := { o with injected := true }
      ∃ t, exec (.networkInjection c) s = .next t ∧ Quiet u t ∧ t.tile.netq = l ++ o' :: r
        ∧ (o.kind = .chsend → t.carries u.wafer.net c o.dst (.chanMsg o')) ∧ (o.kind = .hmsg → t.carries u.wafer.net c (gaTile o.addr) (.hmsg o'))
        ∧ (o.kind ≠ .chsend → o.kind ≠ .hmsg → t.carries u.wafer.net c (if gaSpace o.addr = 8 then c else gaTile o.addr) (.op o')))
    ∧ (∀ n m o, s.msg? n = some m → m.body = .op o → gaSpace o.addr ≠ 8 → s.wafer.refuses m.dst = false →
      let u := s.focus m.dst
      let a := gaOff o.addr + 64 * o.part
      let x := (o.data.toNat >>> (512 * o.part)) % 2 ^ 512
      let goesOn (t : State) (q : RemoteOp) : Prop := ∃ d, t.now < d
        ∧ t.wafer.net = u.wafer.net.map (fun y => if y.serial = n then { y with body := .op q, due := d } else y)
      let gone (t : State) : Prop := t.wafer.net = u.netBut n ∧ (o.foreign = none → (t.tileAt m.src).netq = (u.tileAt m.src).netq.filter (fun y => y.serial ≠ o.serial))
      u.tile.mem.wf = true → Admits u o →
      (o.kind = .rst → gaSpace o.addr ≤ 2 → o.part < 8 →
        let sp : Space := if gaSpace o.addr = 0 then .spad else if gaSpace o.addr = 1 then .acc else .wst
        (u.netServed sp a = true → ∃ t, exec (.remoteOperationArrival n) s = .next t ∧ SameMemoryBut u t m.dst sp a 64 ∧ SameContexts u t
          ∧ (t.tileAt m.dst).read sp a 64 = x ∧ (m.poison = true → (t.tileAt m.dst).readBad sp a 64 = true)
          ∧ (o.part < 7 → goesOn t { o with part := o.part + 1 }) ∧ (o.part = 7 → gone t))
        ∧ (u.netServed sp a = false → ∃ t, exec (.remoteOperationArrival n) s = .next t ∧ Quiet u t ∧ goesOn t o))
      ∧ (o.kind = .radd → gaSpace o.addr = 1 → o.part < 8 → u.tile.colourAt a = o.col →
        ∃ t, exec (.remoteOperationArrival n) s = .next t ∧ SameMemoryBut u t m.dst .acc a 64 ∧ SameContexts u t
          ∧ (∀ k < 16, (t.tileAt m.dst).read .acc (a + 4 * k) 4 =
              if o.isI32 = true then (u.tile.read .acc (a + 4 * k) 4 + x / 2 ^ (32 * k)) % 2 ^ 32
              else addF32 (u.tile.read .acc (a + 4 * k) 4) (x / 2 ^ (32 * k) % 2 ^ 32))
          ∧ (o.part < 7 → goesOn t { o with part := o.part + 1 }) ∧ (o.part = 7 → gone t))
      ∧ (o.kind = .radd → gaSpace o.addr = 1 → o.part < 8 → u.tile.colourAt a ≠ o.col →
        ∃ t, exec (.remoteOperationArrival n) s = .next t ∧ Quiet u t
          ∧ (o.part < 7 → goesOn t { o with part := o.part + 1, dropped := true }) ∧ (o.part = 7 → gone t)
          ∧ (t.tileAt m.dst).mem.colDrop
            = if o.dropped = true ∨ u.tile.mem.colDrop = 0xFFFFFFFF then u.tile.mem.colDrop else u.tile.mem.colDrop + 1)
      ∧ (o.kind = .rget → gaSpace o.addr ≤ 2 → o.part % 8 = 7 → o.part + 1 < 8 * o.units → n < s.wafer.nextMsg →
        let sp : Space := if gaSpace o.addr = 0 then .spad else if gaSpace o.addr = 1 then .acc else .wst
        u.netServed sp a = true →
        let v : Vec := o.data ||| BitVec.ofNat 4096 (u.tile.read sp a 64 <<< 3584)
        let e : RqEntry :=
          { word := rqWord false true 0 (o.part / 8 * 65536 + o.tagLow.toNat), data := some v, poison := o.poison || u.tile.readBad sp a 64 }
        ∃ t, exec (.remoteOperationArrival n) s = .next t ∧ Quiet u t
          ∧ (o.foreign = none → ∃ y ∈ t.wafer.net, y.src = m.dst ∧ y.dst = m.src ∧ y.body = .unit o.tag o.serial e false
              ∧ t.now + max 1 (t.wafer.wayCycles m.dst m.src y.body) ≤ y.due))
      ∧ (o.kind = .ramo → gaSpace o.addr = 1 → o.part = 0 → n < s.wafer.nextMsg →
        let w := u.tile.read .acc (gaOff o.addr) 4
        let e : RqEntry := { word := rqWord false true 1 o.pc.toNat, data := some (lanesOf [w]), poison := u.tile.readBad .acc (gaOff o.addr) 4 }
        ∃ t, exec (.remoteOperationArrival n) s = .next t ∧ SameMemoryBut u t m.dst .acc (gaOff o.addr) 4 ∧ SameContexts u t
          ∧ (t.tileAt m.dst).read .acc (gaOff o.addr) 4 = amoNew o.fn w o.b0.toNat o.b1.toNat % 2 ^ 32
          ∧ (o.foreign = none →
            (t.tileAt m.src).netq = (u.tileAt m.src).netq.map (fun y => if y.serial = o.serial then { y with performed := true } else y)
            ∧ ∃ y ∈ t.wafer.net, y.src = m.dst ∧ y.dst = m.src ∧ y.body = .unit o.tag o.serial e true)))
    ∧ (∀ n m o r, s.msg? n = some m → m.body = .op o → gaSpace o.addr ≠ 8 → s.wafer.refuses m.dst = false → o.foreign = none → o.part % 8 = 0 →
      (s.focus m.dst).opReason o = some r →
      ∃ t, exec (.remoteOperationArrival n) s = .next t ∧ Quiet (s.focus m.dst) t
        ∧ t.carries (s.netBut n) m.dst m.src (.done o.tag o.serial (some (o.faultRecord r)))
        ∧ ∀ x ∈ (t.tileAt m.src).netq, (x.serial = o.serial → x.failing = true) ∧ (o.serial ∈ x.covers → x.doomed = true))
    ∧ (∀ n m k serial o, s.msg? n = some m → s.wafer.refuses m.dst = false → (s.tileAt m.dst).net? serial = some o →
      s.wafer.net.all (fun x => !(decide (x.serial < m.serial) && x.dst == m.dst
        && (match x.body with | .unit _ y _ _ => y == serial | .done _ y _ => y == serial | _ => false))) = true →
      (∀ e last, m.body = .unit k serial e last →
        ∃ t, exec (.remoteResultArrival n) s = .next t ∧ Quiet s t ∧ t.wafer.net = s.netBut n
          ∧ ((t.tileAt m.dst).ctx k).rq[(3 : Fin 4)] = ((s.tileAt m.dst).ctx k).rq[(3 : Fin 4)] ++ [e]
          ∧ (t.tileAt m.dst).netq = if o.kind = .rget ∧ o.unitDone + 1 < o.units
              then (s.tileAt m.dst).netq.map (fun x => if x.serial = serial then { x with unitDone := o.unitDone + 1 } else x)
              else (s.tileAt m.dst).netq.filter (fun x => x.serial ≠ serial))
      ∧ (∀ e, m.body = .done k serial (some e) →
        ∃ t, exec (.remoteResultArrival n) s = .next t ∧ Quiet s t ∧ t.wafer.net = s.netBut n
          ∧ ((t.tileAt m.dst).ctx k).rq[(3 : Fin 4)] = ((s.tileAt m.dst).ctx k).rq[(3 : Fin 4)] ++ [e]
          ∧ ((t.tileAt m.dst).ctx k).remote.failed = ((s.tileAt m.dst).ctx k).remote.failed ++ [(serial, o.lies)]
          ∧ (t.tileAt m.dst).netq = (s.tileAt m.dst).netq.filter (fun x => x.serial ≠ serial))
      ∧ (m.body = .done k serial none → o.kind = .barrier → ((s.tileAt m.dst).ctx k).asked.barReq = some serial →
        ∃ t, exec (.remoteResultArrival n) s = .next t ∧ Quiet s t ∧ t.wafer.net = s.netBut n
          ∧ ((t.tileAt m.dst).ctx k).rq = ((s.tileAt m.dst).ctx k).rq ∧ ((t.tileAt m.dst).ctx k).asked.barReq = none
          ∧ ((t.tileAt m.dst).ctx k).remote.failed = ((s.tileAt m.dst).ctx k).remote.failed ++ [(serial, o.lies)]
          ∧ (t.tileAt m.dst).netq = (s.tileAt m.dst).netq.filter (fun x => x.serial ≠ serial)))
    ∧ (∀ c k n, let u := s.focus c
      (u.tile.ctx k).remote.acquire = some n → (∀ o ∈ u.tile.netq, o.serial = n → o.performed = true ∨ o.failing = true) →
      exec (.acquirePerformed c k) s = .next (u.modTile (fun t => t.modCtx k (fun x =>
        { x with feeds := x.feeds.map Feed.discard, remote := { x.remote with acquire := none } }))))
    ∧ (∀ c o, let u := s.focus c
      u.tile.net? o.serial = some o → o.ready = false → o.failing = false → o.ord = 1 → o.waitOutlets = [] →
      (∀ n ∈ o.covers, ∀ x ∈ u.tile.netq, x.serial = n → x.performed = true) →
      (o.doomed = false → exec (.releaseSend c o.serial) s = .next (u.modTile (fun t =>
        { t with netq := t.netq.map (fun x => if x.serial = o.serial then { x with ready := true } else x) })))
      ∧ (o.doomed = true → ∃ t, exec (.releaseSend c o.serial) s = .next t ∧ Quiet u t
        ∧ t.carries u.wafer.net c c (.done o.tag o.serial (some (o.faultRecord 7)))))
    ∧ (∀ link addr len (data : BitVec 512), len ≤ 64 → s.wafer.ext.cells.wf = true →
      (addr + len ≤ extLimit → ∃ t, exec (.hostMemoryWrite link addr len data) s = .next t ∧ t = { s with wafer := { s.wafer with ext := t.wafer.ext } }
        ∧ (∀ i < len, t.extByte (addr + i) = data.extractLsb' (8 * i) 8) ∧ ∀ b, (b < addr ∨ addr + len ≤ b) → t.extByte b = s.extByte b)
      ∧ (extLimit < addr + len → exec (.hostMemoryWrite link addr len data) s = .fault (.noSuchAddress addr)))
    ∧ (∀ n m c serial, s.msg? n = some m → m.body = .hold c serial →
      ∃ t, exec (.holdNotice n) s = .next t ∧ Quiet s t ∧ t.wafer.net = s.netBut n
        ∧ ∀ o ∈ (t.tileAt m.dst).netq, ∀ x ∈ s.netBut n, x.serial = serial → x.held = true → x.dst = c →
            ∀ y, (x.body = .op y ∨ x.body = .chanMsg y ∨ x.body = .hmsg y) → y.serial = o.serial → o.held = true)
    ∧ (∀ n m c, s.msg? n = some m → m.body = .resume c → (s.wafer.net.map (·.serial)).Nodup →
      ∃ t, exec (.resumeNotice n) s = .next t ∧ Quiet s t ∧ (∀ o ∈ (t.tileAt m.dst).netq, o.held = false)
        ∧ ∃ d, s.now < d ∧ t.wafer.net = (s.netBut n).map (fun x => if x.held = true ∧ x.src = m.dst ∧ x.dst = c then
              { x with held := false, due := d + s.wafer.wayCycles x.src x.dst x.body } else x))

/-- R403 to R407, R412, R413, R416, R417: what a channel's items do where they arrive. A grant adds its window and reopens a REVOKED send end, a
credit adds four flits in any state, open and close notices move a receive end between OPEN and PEER_CLOSED, a revoke takes the
credit of an OPEN or CLOSED send end; a message is held at a receive end that is OPEN or PEER_CLOSED, and fails with reason 10 at a
CLOSED one, which counts it; what another wafer does with an item is free: it leaves, goes again after 4,096 cycles, or its end
is lost; an end whose peer is gone is LOST. An accepted handler message writes its beats and, with the last, may start its handler; one
that is not accepted fails with its reason.
Rests on the model's own reading or choice where log 53, 54, 55, 164 say so. -/
def Obligations.ChannelItems : Prop :=
  ∀ (s : State) (n : Nat) (m : Msg), let u := s.focus m.dst
    (ItemDue s n m → u.farSource m = none →
      (∀ k c w, m.body = .grant k c w → ∃ t, exec (.channelGrantArrival n) s = .next t ∧ EndBecomes u t n k c true (fun e =>
        if e.st = .lost then e else if e.st = .revoked then { e with credit := e.credit + w, st := .opened } else { e with credit := e.credit + w }))
      ∧ (∀ k c, m.body = .credit k c → ∃ t, exec (.creditReturnArrival n) s = .next t
          ∧ EndBecomes u t n k c true (fun e => { e with credit := e.credit + 4 }))
      ∧ (∀ k c, m.body = .openNotice k c → ∃ t, exec (.channelOpenNotice n) s = .next t
          ∧ EndBecomes u t n k c false (fun e => if e.st = .peerClosed then { e with st := .opened } else e))
      ∧ (∀ k c, m.body = .closeNotice k c → ∃ t, exec (.channelCloseNotice n) s = .next t
          ∧ EndBecomes u t n k c false (fun e => if e.st = .opened then { e with st := .peerClosed } else e))
      ∧ (∀ k c, m.body = .revoke k c → ∃ t, exec (.channelRevoke n) s = .next t ∧ EndBecomes u t n k c true (fun e =>
          if e.st = .opened then { e with st := .revoked, credit := 0 } else if e.st = .closed then { e with credit := 0 } else e))
      ∧ (∀ o e, m.body = .chanMsg o → o.foreign = none → u.tile.life.st = .live → (u.tile.life.secure = true → o.secure = true) →
          u.tile.chanEnd o.kernel o.channel.toNat false = some e →
          (e.st = .opened ∨ e.st = .peerClosed →
            ∃ t, exec (.channelMessageArrival n) s = .next t ∧ Quiet u t ∧ t.wafer.net = u.netBut n
              ∧ t.tile.chanEnd o.kernel o.channel.toNat false = some { e with held := e.held ++ [{ data := o.data, poison := m.poison }] }
              ∧ (t.tileAt m.src).netq = (u.tileAt m.src).netq.filter (fun x => x.serial ≠ o.serial))
          ∧ (e.st = .closed →
            ∃ t, exec (.channelMessageArrival n) s = .next t ∧ Quiet u t
              ∧ t.tile.chanEnd o.kernel o.channel.toNat false = some { e with drops := if e.drops = 0xFFFF then e.drops else e.drops + 1 }
              ∧ t.carries (u.netBut n) m.dst m.src (.done o.tag o.serial (some (o.faultRecord 10))))))
    ∧ (ItemDue s n m → ∀ e, u.farSource m = some e → u.farBehind m = false → m.returned ≠ 0 → n < s.wafer.nextMsg →
        ∃ t, exec (.channelItemResend n) s = .next t ∧ Quiet u t
          ∧ ((∀ x ∈ t.wafer.net, x.serial ≠ n) ∨ (m.returned < 255 ∧ (s.now + 4096, Auto.channelItemResend n) ∈ t.timers
              ∧ t.wafer.net = s.wafer.net.map (fun x => if x.serial = n then { x with returned := x.returned + 1, due := s.now + 4096 } else x)))
          ∧ (s.wafer.portTo e.peerWafer = none → ∀ x ∈ t.tile.stores.chans, x.kernel = e.kernel → x.n = e.n → x.send = e.send →
              (∀ y ∈ u.tile.stores.chans, y.kernel = e.kernel → y.n = e.n → y.send = e.send → y = e) → x.st = .lost))
    ∧ (∀ c k ch e, let u := s.focus c
        e ∈ u.tile.stores.chans → e.kernel = k → e.n = ch → e.st ≠ .lost →
        (if u.farEnd e = true then u.wafer.portTo e.peerWafer = none else ∀ y ∈ u.wafer.map, y.1 ≠ e.peer) →
        ∃ t, exec (.peerLost c k ch) s = .next t ∧ Quiet u t
          ∧ (∀ x ∈ t.tile.stores.chans, x.kernel = k → x.n = ch → x.send = e.send → x.st = .lost)
          ∧ (∀ j, e.tag = some j → (u.tile.ctx j).life.st ≠ .empty → (u.tile.ctx j).life.st ≠ .killing → (t.tile.ctx j).life.deferred ≠ none)
          ∧ (∀ x ∈ t.wafer.net, x.src = c → x.far = false → x.body.chanItem ≠ some (k, ch, !e.send))
          ∧ ∀ o ∈ u.tile.netq, o.kind = .chsend → o.performed = false → e.send = true → u.farEnd e = true → o.kernel = k → o.channel.toNat = ch →
              ∃ y ∈ t.tile.netq, y.serial = o.serial ∧ y.failing = true)
    ∧ (∀ o, s.msg? n = some m → m.body = .hmsg o → s.wafer.refuses m.dst = false → u.tile.mem.wf = true → o.part < o.units →
        let a := gaOff o.addr + 64 * o.part
        (o.part ≠ 0 ∨ u.hmsgReason o = none → u.netServed .spad a = true →
          ∃ t, exec (.hmsgArrival n) s = .next t ∧ SameMemoryBut u t m.dst .spad a 64 ∧ SameContexts u t
            ∧ t.tile.read .spad a 64 = (o.bytes.getD o.part 0).toNat
            ∧ (o.part + 1 < o.units → ∃ d, s.now < d ∧ t.wafer.net = u.wafer.net.map (fun x =>
                if x.serial = n then { x with body := .hmsg { o with part := o.part + 1 }, due := d } else x))
            ∧ (o.part + 1 = o.units → t.wafer.net = u.netBut n ∧ (s.now + 1, Auto.handlerStart m.dst) ∈ t.timers
                ∧ ∀ x ∈ t.tile.stores.handlers, x.serial = n → x.ready = true)
            ∧ (o.part = 0 → t.tile.stores.handlers.length = u.tile.stores.handlers.length + 1 ∧ ∃ x ∈ t.tile.stores.handlers, x.kernel = o.kernel
                ∧ x.pc.toNat = 16 * (o.handler.extractLsb' 0 16).toNat ∧ x.g2.toNat = gaOff o.addr ∧ x.g3.toNat = 64 * o.units % 2 ^ 32 ∧ x.g4 = o.handler))
        ∧ ∀ r code, o.part = 0 → o.foreign = none → u.hmsgReason o = some (r, code) → ∃ t, exec (.hmsgArrival n) s = .next t ∧ Quiet u t
            ∧ t.carries (u.netBut n) m.dst m.src (.done o.tag o.serial (some (o.faultRecord r))))

/-- R389 to R396, Table 16-2: a barrier request whose release wait has ended goes to its home, the tile of smallest Y, then smallest X, of its
instance; the home applies one request in a cycle: an init opens the barrier with its count, the last expected arrival or drop
advances the phase and, when all that arrived dropped, closes it; a request that its state does not admit gets its cause; a change
of phase or state sends a notice to every placed tile of the instance. An accepted verdict of an arrival or a drop moves the tag's
view to the next phase; a mirror takes a notice later than its last.
Rests on the model's own reading or choice where log 77, 78, 79 say so. -/
def Obligations.BarrierTraffic : Prop :=
  ∀ (s : State),
    (∀ c k o h, let u := s.focus c
      u.tile.life.st = .live → u.tile.netq.find? (fun o => o.kind == .barrier && o.tag == k && !o.injected && u.tile.covered o) = some o →
      h ∈ u.instanceTiles o.kernel c o.scope →
      (∀ x ∈ u.instanceTiles o.kernel c o.scope, h.y < x.y ∨ (h.y = x.y ∧ h.x ≤ x.x)) →
      let r : BarRequest := { kernel := o.kernel, n := o.b0.toNat, fn := o.fn.setWidth 2, level := o.scope, count := o.b1.toNat,
                              view := o.tagLow, src := c, tag := k, serial := o.serial, at' := s.now }
      ∃ t, exec (.barrierRequestSend c k) s = .next t ∧ Quiet u t
        ∧ (h ≠ c → t.carries u.wafer.net c h (.barRequest r))
        ∧ (h = c → ∃ x, t.wafer.net = u.wafer.net ++ [x] ∧ x.body = .barRequest r ∧ x.dst = c ∧ x.due = s.now + 2)
        ∧ t.tile.netq = u.tile.netq.map (fun x => if x.serial = o.serial then { x with injected := true } else x))
    ∧ (∀ c r l rest, let u := s.focus c
      let b := u.tile.stores.bars
      (∀ m ∈ u.wafer.net, m.dst = c → m.held = false → m.due ≤ s.now → ∀ q, m.body ≠ .barRequest q) →
      b.requests = l ++ r :: rest → (∀ x ∈ l, x.src ≠ c) → (r.src = c ∨ (l = [] ∧ ∀ x ∈ rest, x.src ≠ c)) → b.applied ≠ some s.now →
      (u.tile.life.st = .retired → ∃ t, exec (.barrierRequestApply c) s = .next t ∧ Quiet u t ∧ t.tile.stores.bars.requests = l ++ rest
        ∧ t.carries u.wafer.net c r.src (.done r.tag r.serial none))
      ∧ (u.tile.life.st ≠ .retired → r.kernel ∈ b.kernels →
      let h := u.tile.homeEntry r.kernel r.n r.level
      let applies (h' : HomeEntry) (v : Verdict) (tell : Bool) : Prop := ∃ t, exec (.barrierRequestApply c) s = .next t ∧ Quiet u t
        ∧ t.tile.homeEntry r.kernel r.n r.level = h' ∧ t.tile.stores.bars.requests = l ++ rest ∧ t.tile.stores.bars.applied = some s.now
        ∧ (∃ x ∈ t.wafer.net, x.src = c ∧ x.dst = r.src ∧ x.body = .verdict r.tag r.serial v ∧ s.now < x.due)
        ∧ (tell = true → ∀ q ∈ u.instanceTiles r.kernel c r.level, ∃ x ∈ t.wafer.net, x.src = c ∧ x.dst = q
            ∧ x.body = .barNotice r.kernel r.n r.level h'.st h'.phase h'.notices)
        ∧ (tell = false → t.wafer.net.length = u.wafer.net.length + 1)
      let yes (ph : BitVec 16) : Verdict := { fn := r.fn, n := BitVec.ofNat 6 r.n, accepted := true, phase := ph }
      let no (code : BitVec 8) : Verdict := { fn := r.fn, n := BitVec.ofNat 6 r.n, accepted := false, cause := code }
      let lag := (r.view - h.phase).toNat
      (r.fn = 0 → (h.st = .opened → h.arrived = 0 ∧ h.drops = 0) →
        let ph : BitVec 16 := if h.st = .uninit then 0 else h.phase
        applies { h with st := .opened, level := r.level, phase := ph, expected := r.count, arrived := 0, drops := 0, notices := h.notices + 1 }
          (yes ph) true)
      ∧ (r.fn = 0 → h.st = .opened → (h.arrived ≠ 0 ∨ h.drops ≠ 0) → applies h (no 0x6C) false)
      ∧ (r.fn ≠ 0 → h.st = .uninit → applies h (no 0x69) false)
      ∧ (r.fn ≠ 0 → (h.st = .closed ∨ (h.st = .opened ∧ 32768 ≤ lag)) → applies h (no 0x68) false)
      ∧ (r.fn ≠ 0 → h.st = .opened → 0 < lag → lag < 32768 → applies h (no 0x6A) false)
      ∧ (r.fn ≠ 0 → h.st = .opened → lag = 0 →
          let d := h.drops + (if r.fn = 2 then 1 else 0)
          (h.arrived + 1 < h.expected → applies { h with arrived := h.arrived + 1, drops := d } (yes h.phase) false)
          ∧ (h.expected ≤ h.arrived + 1 →
            applies { h with st := if h.expected ≤ d then .closed else .opened, phase := h.phase + 1, expected := h.expected - d, arrived := 0,
                             drops := 0, notices := h.notices + 1 } (yes h.phase) true))))
    ∧ (∀ n m k serial v o, let u := s.focus m.dst
      s.msg? n = some m → m.body = .verdict k serial v → s.wafer.refuses m.dst = false → u.tile.net? serial = some o → o.doomed = false →
      ∃ t, exec (.barrierVerdictArrival n) s = .next t ∧ Quiet u t ∧ t.wafer.net = u.netBut n
        ∧ t.tile.netq = u.tile.netq.filter (fun x => x.serial ≠ serial)
        ∧ t.tile.stores.bars.views = (if v.accepted = true ∧ v.fn ≠ 0 then u.tile.stores.bars.views.map (fun x =>
            if x.kernel = o.kernel ∧ x.tag = k ∧ x.n = v.n.toNat then { x with v := v.phase + 1, dropped := x.dropped || v.fn == 2, owed := true } else x)
            else u.tile.stores.bars.views)
        ∧ (t.tile.ctx k).asked.verdict = if (u.tile.ctx k).asked.barReq = some serial then some v else (u.tile.ctx k).asked.verdict)
    ∧ ∀ n m k b level st phase count, let u := s.focus m.dst
      s.msg? n = some m → m.body = .barNotice k b level st phase count → s.wafer.refuses m.dst = false →
      ∃ t, exec (.barrierNoticeArrival n) s = .next t ∧ Quiet u t ∧ t.wafer.net = u.netBut n
        ∧ t.tile.stores.bars = { u.tile.stores.bars with mirrors := u.tile.stores.bars.mirrors.map (fun y =>
            if y.kernel = k ∧ y.n = b ∧ (y.st = .uninit ∨ y.level = level) ∧ 0 < (count - y.notices).toNat ∧ (count - y.notices).toNat < 32768
            then { y with st := st, level := level, phase := phase, notices := count } else y) }

/-- R319, R323 to R325, R329 to R331: the host's commands to a launch queue. LQCTL opens, stops and flushes it; a flush completes what is queued
CANCELLED and aborts what runs; LQTAIL appends the ring's records in ring order with the next sequence numbers; a write to LSV adds
and saturates; HSTAT is read and cleared; completion entries leave in dispatch order, one in a cycle, each with its increment made; a
non-secure host function is refused on a secure queue, and a write of any register with an uncorrectable error is discarded. R323, R327: an abort ends
a running kernel, what its grace leaves is killed, and a kernel that has left its last tile is COMPLETE.
Rests on the model's own reading or choice where log 61, 62, 192 say so. -/
def Obligations.HostQueues : Prop :=
  (∀ (s : State) (n : Nat) (k : Kernel), s.wafer.kernel? n = some k →
    (k.st = .running → s.WriteGood 0x508 → ∀ hi, (hi ++ s.wafer.host.abortLo : BitVec 64).toNat = n → ∃ t, exec (.abort hi) s = .next t ∧ SameMemory s t
      ∧ ∀ x ∈ t.wafer.kernels, x.seq = n → x.st = .ending ∧ x.status = 5)
    ∧ (k.st = .ending → k.status = 5 →
        exec (.abortGraceExpiry n) s = .next (s.modWafer (fun w => w.modKernel n (fun x => { x with killAt := some s.now }))))
    ∧ (k.st = .ending → (∀ t ∈ s.tiles, ∀ x ∈ t.kernels, x.kernel ≠ n) → ∃ t, exec (.kernelComplete n) s = .next t ∧ SameMemory s t
      ∧ (∀ x ∈ t.wafer.kernels, x.seq = n → x.st = .complete) ∧ (t.queue (Fin.ofNat 16 k.queue)).lastDone = n))
  ∧ ∀ (s : State) (q : QueueId), let x := s.queue q
    (∀ v sec, (∀ i ∈ [Instr.lqOpen q v sec, .lqStop q v sec, .lqFlush q v sec], WriteLost s (0x40 * q.val) i)
        ∧ WriteLost s (0x40 * q.val + 8) (.lqtailWrite q (v.setWidth 8) sec) ∧ ∀ off, WriteLost s off.toNat (.registerWrite off v sec))
    ∧ (∀ (v : BitVec 32) (n : Fin 64) (f : List (BitVec 8)) (m : BitVec 8) (sec : Bool),
        WriteLost s (0x400 + 4 * n.val) (.lsvWrite n (v.setWidth 16)) ∧ WriteLost s 0x508 (.abort v)
        ∧ WriteLost s 0x60C (.imageLoad f sec) ∧ WriteLost s 0x60C (.imageUnload (v.setWidth 16)) ∧ WriteLost s 0x708 (.tlbShootdown v)
        ∧ WriteLost s 0x810 .migcmdMigrate ∧ WriteLost s 0x810 .migcmdRetire ∧ WriteLost s 0x808 (.tworldWrite (v.setWidth 1))
        ∧ WriteLost s 0x80C (.wssecWrite v) ∧ WriteLost s 0x938 .wcmdFullCruise ∧ WriteLost s 0x938 .wcmdRecruise
        ∧ WriteLost s 0x91C (.rcrackWrite v) ∧ WriteLost s 0xA00 (.lkwaferWrite v)
        ∧ (∀ i ∈ [Instr.linkTrain n sec, .linkDarken n sec], WriteLost s (0x70000 + 0x100 * n.val) i)
        ∧ (∀ i ∈ [Instr.lkwcmdWake n m sec, .lkwcmdPark n m sec], WriteLost s (0x70018 + 0x100 * n.val) i)
        ∧ (∀ trap, ∀ i ∈ [Instr.dctlHalt trap sec, .dctlResume sec, .dctlStep trap sec], WriteLost s 0xB04 i)
        ∧ (∀ i ∈ [Instr.achcmdSnapshot sec, .achcmdClear sec], WriteLost s 0xBD0 i) ∧ WriteLost s 0xBC0 (.tctlWrite v sec)
        ∧ WriteLost s 0xC00 (.pairctlWrite v sec))
    ∧ (s.WriteGood (0x40 * q.val) → s.WriteGood (0x40 * q.val + 8) →
    (∀ v sec, x.sec = true → sec = false → ∀ i ∈ [Instr.lqOpen q v sec, .lqStop q v sec, .lqFlush q v sec, .lqtailWrite q (v.setWidth 8) sec],
      exec i s = .next (s.logged 0x96))
    ∧ (∀ v sec, (x.sec = false ∨ sec = true) →
      exec (.lqOpen q v sec) s = .next (s.modQueue q (fun x =>
        { x.fields v with st := if x.st = .disabled ∨ x.st = .stopped then .opened else x.st }))
      ∧ exec (.lqStop q v sec) s = .next (s.modQueue q (fun x => { x.fields v with st := if x.st = .opened then .stopped else x.st }))
      ∧ (x.st = .disabled ∨ x.st = .flushing → exec (.lqFlush q v sec) s = .next (s.modQueue q (fun x => x.fields v)))
      ∧ (x.st = .opened ∨ x.st = .stopped → x.cond = none → ∃ t, exec (.lqFlush q v sec) s = .next t ∧ SameMemory s t ∧ (t.queue q).recs = []
          ∧ (∀ c k, (∀ n, ¬ Withdrawable (s.tileAt c) k n) → SameContext ((s.tileAt c).ctx k) ((t.tileAt c).ctx k))
          ∧ (t.queue q).st = (if s.wafer.kernels.any (fun k => k.queue == q.val && k.st != .complete) = true then .flushing else .disabled)
          ∧ (t.queue q).due.map (·.seq) = x.due.map (·.seq) ++ x.recs.map (·.seq)
          ∧ (∀ r ∈ x.recs, Finished s t q r 2) ∧ (x.recs ≠ [] → t.wafer.host.hstatLast = 0x95)
          ∧ ∀ k ∈ t.wafer.kernels, k.queue = q.val → k.st = .complete ∨ k.st = .ending)
      ∧ (x.st = .disabled ∨ x.st = .flushing → exec (.lqtailWrite q (v.setWidth 8) sec) s = .next (s.logged 0x95))
      ∧ (x.st = .opened ∨ x.st = .stopped → let n := (v.setWidth 8 - x.tail).toNat
          (255 < (x.tail - x.head).toNat + n → exec (.lqtailWrite q (v.setWidth 8) sec) s = .next (s.logged 0x93))
          ∧ ((x.tail - x.head).toNat + n ≤ 255 → ∃ t, exec (.lqtailWrite q (v.setWidth 8) sec) s = .next t ∧ Quiet s t
              ∧ (t.queue q).tail = v.setWidth 8 ∧ t.wafer.nextSeq = s.wafer.nextSeq + n ∧ (t.queue q).recs.take x.recs.length = x.recs
              ∧ (t.queue q).recs.length = x.recs.length + n
              ∧ ∀ k < n, let slot := x.tail + BitVec.ofNat 8 k
                  let r : Queued := { seq := s.wafer.nextSeq + k, record := (assocGet x.ring slot.toNat).getD 0, idx := slot }
                  (t.queue q).recs[x.recs.length + k]? = some { r with hostBad := x.ringBad.contains slot.toNat }))))
    ∧ (∀ (n : Fin 64) (v : BitVec 16), s.WriteGood (0x400 + 4 * n.val) → ∃ t, exec (.lsvWrite n v) s = .next t ∧ Quiet s t
        ∧ (t.wafer.ls[n]).toNat = min ((s.wafer.ls[n]).toNat + v.toNat) 65535
        ∧ (t.wafer.host.hstatLsovf = true ↔ s.wafer.host.hstatLsovf = true ∨ 65535 < (s.wafer.ls[n]).toNat + v.toNat)
        ∧ ∀ m : Fin 64, m ≠ n → t.wafer.ls[m] = s.wafer.ls[m])
    ∧ (∃ t, exec .hstatRead s = .next t ∧ Quiet s t ∧ t.wafer.host.hstatCount = 0 ∧ t.wafer.host.hstatLast = 0 ∧ t.wafer.host.hstatLsovf = false
        ∧ t.wafer.host.readOut.extractLsb' 0 8 = s.wafer.host.hstatLast ∧ t.wafer.host.readOut.getLsbD 15 = s.wafer.host.hstatLsovf
        ∧ t.wafer.host.readOut.extractLsb' 16 48 = BitVec.ofNat 48 s.wafer.host.hstatCount)
    ∧ (∀ l, exec (.hostLinkDown l) s = .next (s.logged 0x91)) ∧ exec .hostTimeout s = .next (s.logged 0x93)
    ∧ let ready (d : Completion) : Bool := d.entry.isSome && decide (d.readyAt ≤ s.now)
      ∃ t, exec (.completionEntryWrite q) s = .next t ∧ Quiet s t
        ∧ (∀ k : Fin 64, t.wafer.lsInc[k] = s.wafer.lsInc[k] + (x.due.filter (fun d => ready d && d.sig == some (BitVec.ofFin k))).length)
        ∧ (∀ d r, x.due = d :: r → ready d = true → some (t.queue q).cring = d.entry.map (fun e => assocPut x.cring x.ctail.toNat e)
            ∧ (t.queue q).ctail = x.ctail + 1 ∧ (t.queue q).due.map (·.seq) = r.map (·.seq))
        ∧ ((∀ d r, x.due = d :: r → ready d = false) → (t.queue q).cring = x.cring ∧ (t.queue q).ctail = x.ctail
            ∧ (t.queue q).due.map (·.seq) = x.due.map (·.seq))

/-- R318, R320 to R322, R324: dispatch. The head of an OPEN queue leaves it when fewer than two kernels of the queue run, its waits are met, its
completion entry has room and no placed tile holds the banks of two kernels: a record that is refused completes with its status, one
with a condition has its word read, another starts its kernel on the placed tiles. The word that a condition read finds decides:
the kernel starts, or the record completes NOT_TAKEN; a read that fails completes it COND_FAIL, a flush CANCELLED. A head that
must wait, or whose queue has been stopped, stays.
Rests on the model's own reading or choice where log 63, 64, 65 say so. -/
def Obligations.Dispatching : Prop :=
  ∀ (s : State) (q : QueueId) (r : Queued) (rest : List Queued), let x := s.queue q
    x.recs = r :: rest →
    let done (i : Instr) (st : Nat) : Prop := ∃ t, exec i s = .next t ∧ Quiet s t ∧ HeadTaken s t q r ∧ Finished s t q r st
        ∧ (s.now + 1, Auto.completionEntryWrite q) ∈ t.timers
    let starts (ins : Instr) (i : Image) : Prop := ∃ t, exec ins s = .next t ∧ Started s t q r i
    let conditional : Prop := (r.record.extractLsb' 128 32).getLsbD 3 = true
    (x.st = .opened → x.cond = none → x.dispatchedAt ≠ some s.now →
      (∀ st, s.wafer.refusal r = some st → s.canDispatch q r false = true → done (.dispatch q) st)
      ∧ (s.wafer.refusal r = none → ¬ MayDispatch s q r → exec (.dispatch q) s = .next s)
      ∧ (s.wafer.refusal r = none → MayDispatch s q r → ¬ conditional → ∀ i, s.wafer.image? (recImage r.record) = some i → i.placed ≠ [] →
          i.placed.Nodup → starts (.dispatch q) i)
      ∧ (s.wafer.refusal r = none → MayDispatch s q r → conditional → s.condRange (recCond r.record) = false →
          ∃ t c, exec (.dispatch q) s = .next t ∧ Quiet s t ∧ (t.queue q).recs = r :: rest ∧ (t.queue q).cond = some c ∧ s.now < c.due ∧ c.failed = false
            ∧ (gaSpace (recCond r.record) = 8 ∧ s.ownWafer (recCond r.record) = true →
                ∃ n, c.walk = some n ∧ (c.due, Auto.pageWalk n) ∈ t.timers ∧ ∃ w ∈ t.wafer.walks, w.serial = n ∧ w.who = .cond q ∧ w.va = recCond r.record)
            ∧ (¬ (gaSpace (recCond r.record) = 8 ∧ s.ownWafer (recCond r.record) = true) →
                c.walk = none ∧ (c.due, Auto.conditionReadPerformed q) ∈ t.timers)))
    ∧ (x.st ≠ .opened ∨ x.cond ≠ none ∨ x.dispatchedAt = some s.now → exec (.dispatch q) s = .next s)
    ∧ ∀ c, x.cond = some c → c.walk = none → c.due ≤ s.now →
      let a := recCond r.record
      let here : Prop := gaSpace a ≤ 1 ∧ s.ownWafer a = true ∧ s.wafer.refuses (gaTile a) = false
      (x.st = .flushing → here →
        ∃ t, exec (.conditionReadPerformed q) s = .next t ∧ Quiet s t ∧ (t.queue q).recs = rest ∧ (t.queue q).cond = none ∧ Finished s t q r 2)
      ∧ (x.st ≠ .flushing → here → (x.st ≠ .opened ∨ ¬ MayDispatch s q r) →
          exec (.conditionReadPerformed q) s = .next (s.modQueue q (fun x => { x with cond := none })))
      ∧ (x.st = .opened → MayDispatch s q r → c.failed = true → done (.conditionReadPerformed q) 4)
      ∧ (x.st = .opened → MayDispatch s q r → c.failed = false → here →
          let t := s.tileAt (gaTile a)
          let sp : Space := if gaSpace a = 0 then .spad else .acc
          t.life.st = .live → (x.sec = true ∨ t.life.secure = false) → (gaSpace a = 0 → gaOff a + 4 ≤ 0x1F0000) → t.readBad sp (gaOff a) 4 = false →
          let w : Word := BitVec.ofNat 32 (t.read sp (gaOff a) 4) &&& r.record.extractLsb' 192 32
          let v : Word := r.record.extractLsb' 160 32
          let cmp := (r.record.extractLsb' 128 3).toNat
          let holds : Prop := if cmp = 0 then w = v else if cmp = 1 then w ≠ v else if cmp = 2 then w.toNat < v.toNat
            else if cmp = 3 then v.toNat ≤ w.toNat else if cmp = 4 then w.toInt < v.toInt else v.toInt ≤ w.toInt
          (¬ holds → done (.conditionReadPerformed q) 1)
          ∧ (holds → ∀ i, s.wafer.image? (recImage r.record) = some i → i.placed ≠ [] → i.placed.Nodup → starts (.conditionReadPerformed q) i))

/-- R322, R323, R327, R356, R361, R375 to R378: the life of a kernel on its tiles. A placed tile starts its contexts in the lowest EMPTY numbers with g1 to
g5 from the record, or tries again in the next cycle; with the last context EMPTY the kernel is COMPLETE, its entry holds its
status and its increment is made; an abort ends it, and what is left after the grace is killed; a zeroed unit becomes HELD. A gang's
slice starts once CYCLE has reached GANG, and is abandoned after an abandon notice, or when its deadline cycle ends without its start
or a start notice.
Rests on the model's own reading or choice where log 25, 63, 67, 74 say so. -/
def Obligations.KernelLife : Prop :=
  ∀ (s : State) (n : Nat) (k : Kernel), s.wafer.kernel? n = some k →
    (∀ c x, let u := s.focus c
      u.tile.kernels.find? (fun x => x.kernel == n) = some x → x.started = false → k.st = .running → k.group = .bound →
      let later : Prop := exec (.contextLaunchStart c n) s = .next (s.timer (s.now + 1) (.contextLaunchStart c n))
      let may : Prop := u.tile.life.st = .live ∧ (∀ y ∈ u.tile.kernels, y.order < x.order → y.writeMode = x.writeMode)
        ∧ ∀ i, u.tile.stores.bars.kernels.idxOf? n = some i → i < 8
      (¬ may → later)
      ∧ (may → u.tile.emptyNumbers.length + (u.tile.swappable (recPrio k.record)).length < recContexts k.record → later)
      ∧ (may → recContexts k.record ≤ u.tile.emptyNumbers.length →
          recContexts k.record ≤ ((List.finRange 8).filter (fun g => (u.tile.ctx g).life.st == .empty)).length →
          ∃ t, exec (.contextLaunchStart c n) s = .next t ∧ SameMemory u t
            ∧ (∀ i < recContexts k.record, ∃ g : Tag, (u.tile.ctx g).life.st = .empty ∧ (t.tile.ctx g).life.num = u.tile.emptyNumbers[i]?
                ∧ (t.tile.ctx g).life.st = .ready ∧ (t.tile.ctx g).life.kernel = k.seq ∧ (t.tile.ctx g).flow.pc = 0 ∧ (t.tile.ctx g).flow.npc = 16
                ∧ (t.tile.ctx g).sys.prio = k.record.extractLsb' 14 2
                ∧ (∀ j < 4, (t.tile.ctx g).regs.getG (BitVec.ofNat 5 (j + 1)) = { val := k.record.extractLsb' (256 + 32 * j) 32 })
                ∧ (t.tile.ctx g).regs.getG 5 = { val := BitVec.ofNat 32 i } ∧ (∀ j : BitVec 5, 5 < j.toNat → (t.tile.ctx g).regs.getG j = { val := 0 }))
            ∧ (∀ g : Tag, (u.tile.ctx g).life.st ≠ .empty → t.tile.ctx g = u.tile.ctx g) ∧ ∀ y ∈ t.tile.kernels, y.kernel = n → y.started = true)
      ∧ (may → recContexts k.record ≤ u.tile.emptyNumbers.length + (u.tile.swappable (recPrio k.record)).length →
          u.tile.emptyNumbers.length ≤ ((List.finRange 8).filter (fun g => (u.tile.ctx g).life.st == .empty)).length →
          ∃ t, exec (.contextLaunchStart c n) s = .next t ∧ SameMemory u t ∧ t.tile.core.swapWaiting.length
            = u.tile.core.swapWaiting.length + (recContexts k.record - u.tile.emptyNumbers.length)))
    ∧ (k.st ≠ .complete → (∀ t ∈ s.tiles, ∀ x ∈ t.kernels, x.kernel ≠ n) → let q : QueueId := Fin.ofNat 16 k.queue
      ∃ t, exec (.kernelComplete n) s = .next t ∧ Quiet s t
        ∧ (∀ x ∈ t.wafer.kernels, x.seq = n → x.st = .complete ∧ x.group = .ended ∧ x.killAt = none) ∧ (t.queue q).lastDone = n
        ∧ (∀ x ∈ t.tiles, (∀ e ∈ x.stores.chans, e.kernel ≠ n) ∧ (∀ e ∈ x.stores.bars.homes, e.kernel ≠ n) ∧ n ∉ x.stores.bars.kernels)
        ∧ ∀ d rest, (s.queue q).due = d :: rest → d.seq = n → (∀ x ∈ rest, x.seq ≠ n) →
            (t.queue q).cring = assocPut (s.queue q).cring (s.queue q).ctail.toNat k.entry ∧ (t.queue q).ctail = (s.queue q).ctail + 1
            ∧ k.entry.extractLsb' 0 64 = BitVec.ofNat 64 k.seq ∧ k.entry.extractLsb' 92 4 = k.status ∧ k.entry.extractLsb' 192 64 = k.endCycle
            ∧ k.entry.extractLsb' 64 16 = BitVec.ofNat 16 k.faults)
    ∧ (∀ hi, (hi ++ s.wafer.host.abortLo : BitVec 64).toNat = n → s.WriteGood 0x508 →
        (k.st = .running → ∃ t, exec (.abort hi) s = .next t
          ∧ Aborting s t n 0x90 (if k.group = .gangWait ∨ k.group = .gangStarting then .abandoned else k.group) false)
        ∧ (k.st ≠ .running → exec (.abort hi) s = .next s))
    ∧ exec (.abortGraceExpiry n) s = .next (if k.st = .ending ∧ k.status = 5
        then s.modWafer (fun w => w.modKernel n (fun x => { x with killAt := some s.now })) else s)
    ∧ (∀ c unit, ∃ t, exec (.unitZeroingDone c unit) s = .next t ∧ Quiet s t
        ∧ (t.tileAt c).kernels.map (·.kernel) = (s.tileAt c).kernels.map (·.kernel)
        ∧ ∀ x ∈ (t.tileAt c).kernels, ∀ e, assocGet x.units unit = some (.zeroing e) → s.now < e)
    ∧ (let gang := recGang k.record
      let limit := gang.toNat + k.gangGrace.toNat
      (k.group = .gangWait → k.st = .running →
        (s.wafer.cycle.toNat < gang.toNat → exec (.gangStart n) s = .next s)
        ∧ (gang.toNat ≤ s.wafer.cycle.toNat → ∃ t, exec (.gangStart n) s = .next t ∧ Quiet s t
            ∧ (∀ x ∈ t.wafer.kernels, x.seq = n → x.group = .gangStarting)
            ∧ ∀ x ∈ s.tiles, x.kernels.any (fun y => y.kernel == n) = true → ∃ m, s.now ≤ m ∧ (m, Auto.contextLaunchStart x.at' n) ∈ t.timers))
      ∧ (∀ wafer, ∃ t, exec (.startNoticeArrival gang wafer) s = .next t ∧ Quiet s t ∧ t.wafer.kernels = s.wafer.kernels
          ∧ ((0, gang, wafer, s.wafer.links.wafer, 0) : BitVec 8 × BitVec 64 × BitVec 16 × BitVec 16 × BitVec 80) ∈ t.wafer.links.notices)
      ∧ (k.slice gang = true → (∀ wafer, ∃ t, exec (.abandonNoticeArrival gang wafer) s = .next t ∧ Quiet s t
          ∧ (∀ x ∈ t.wafer.kernels, x.seq = n → x.late = true) ∧ (s.now, Auto.gangDeadline n) ∈ t.timers))
      ∧ (k.slice gang = true →
        let missing : Prop := k.group ≠ .gangRunning ∨ ∃ d ∈ s.wafer.otherWafers,
          ∀ x ∈ s.wafer.links.notices, x.1 = 0 → x.2.1 = gang → x.2.2.1.toNat ≠ d
        let checks : Prop := k.late = false ∧ k.gangChecked = false ∧ limit ≤ s.wafer.cycle.toNat
        (k.late = true ∨ (checks ∧ missing) → ∃ t, exec (.gangDeadline n) s = .next t ∧ Aborting s t n 0x78 .abandoned true)
        ∧ (checks → ¬ missing →
            exec (.gangDeadline n) s = .next (s.modWafer (fun w => w.modKernel n (fun x => { x with gangChecked := true }))))
        ∧ (k.late = false → ¬ checks → exec (.gangDeadline n) s = .next s)))

/-- R343 to R347, R352: a load of LDSIZE bytes places the image under the lowest free handle, or leaves the images as they are and says in LDSTAT
which check of Table 14-5 failed first: the signature (which HSTAT records), the format, the plan. An image that no record names and no
kernel runs is unloaded. LDSTAT is BUSY for a time, and a command that it finds BUSY is ignored. R423, R424, R426, R429: a walk that finds a usable page gives its physical address to the operation, the page instruction or
the condition read that waits for it, and one that finds none the reason; the walk of a page instruction waits while its tile refuses arrivals. TLBINV drops the matching entries of every
tile, and BUSY falls when no access translated with one of them remains: a tile's operation, another wafer's, a condition read.
Rests on the model's own reading or choice where log 41, 42, 43, 71, 72, 73, 185, 188 say so. -/
def Obligations.ImagesAndPages : Prop :=
  ∀ (s : State),
    let old := (s.wafer.host.ldstat.extractLsb' 0 16).toNat
    let tells (t : State) (st h : Nat) : Prop := t.wafer.host.ldstat = BitVec.ofNat 32 (2 ^ 31 + st * 2 ^ 16 + h % 2 ^ 16)
      ∧ ∃ d, t.wafer.host.loadUntil = some d ∧ s.now < d
    (s.WriteGood 0x60C → s.wafer.host.ldstat.getLsbD 31 = true → (∀ f sec, exec (.imageLoad f sec) s = .next s)
      ∧ ∀ h, exec (.imageUnload h) s = .next s)
    ∧ (s.WriteGood 0x60C → s.wafer.host.ldstat.getLsbD 31 = false → ∀ file sec, let f := file.take s.wafer.host.ldsize.toNat
      let bad (st : Nat) : Prop := ∃ t, exec (.imageLoad file sec) s = .next t ∧ Quiet s t ∧ t.wafer.images = s.wafer.images
        ∧ tells t st old ∧ (st = 1 → t.wafer.host.hstatLast = 0x94)
      let keys := if s.wafer.cruise.keyBad = true then [] else s.wafer.cruise.flash.keys.getD []
      let signed := signatureOk f keys && (sec || !(fileNat f 8 4).testBit 12)
      (signed = false → bad 1) ∧ (signed = true → readImage f = none → bad 2)
      ∧ (∀ i, signed = true → readImage f = some i → i.gridW ≤ 180 → s.wafer.gridH < i.gridH → bad 3)
      ∧ (∀ st, s.loadCheck f sec = .error st → bad st)
      ∧ ∀ i, s.loadCheck f sec = .ok i → ∃ t h, exec (.imageLoad file sec) s = .next t ∧ Quiet s t ∧ t.wafer.images = s.wafer.images ++ [{ i with handle := h }]
          ∧ 0 < h ∧ (∀ x ∈ s.wafer.images, x.handle ≠ h) ∧ (∀ j, 0 < j → j < h → ∃ x ∈ s.wafer.images, x.handle = j) ∧ tells t 0 h)
    ∧ (s.WriteGood 0x60C → s.wafer.host.ldstat.getLsbD 31 = false → ∀ h : BitVec 16, let used : Prop := (∃ q : QueueId, ∃ r ∈ (s.queue q).recs, recImage r.record = h.toNat)
          ∨ ∃ k ∈ s.wafer.kernels, k.image = h.toNat ∧ k.st ≠ .complete
        ∃ t, exec (.imageUnload h) s = .next t ∧ Quiet s t
          ∧ (s.wafer.image? h.toNat = none → t.wafer.images = s.wafer.images ∧ tells t 13 old)
          ∧ (s.wafer.image? h.toNat ≠ none → used → t.wafer.images = s.wafer.images ∧ tells t 12 old)
          ∧ (s.wafer.image? h.toNat ≠ none → ¬ used → t.wafer.images = s.wafer.images.filter (fun i => i.handle ≠ h.toNat)
              ∧ tells t 0 old))
    ∧ (∀ n w, s.wafer.walks.find? (fun w => w.serial == n && decide (w.due ≤ s.now)) = some w →
      let va := gaVa w.va
      let left (t : State) : Prop := ∀ x ∈ t.wafer.walks, x.serial ≠ n
      (∀ src serial o sh ea pa ty wr sec, w.who = .op src serial → (s.tileAt src).net? serial = some o → o.foreign = none →
        let g := va / 65536
        let at' := if g = gaVa o.addr / 65536 then gaVa o.addr else g * 65536
        s.wafer.walk o.asid o.secure at' = .leaf sh ea pa ty wr sec →
        let found (hits : List (Nat × Nat × Bool)) (faults : List (Nat × Nat)) : Prop := ∃ t, exec (.pageWalk n) s = .next t ∧ Quiet s t ∧ left t
          ∧ t.carries s.wafer.net src src
              (.op { o with hits := o.hits ++ hits, spans := o.spans ++ hits.map (fun x => (x.1, sh)), faults := o.faults ++ faults })
        (sec = true → o.secure = false → found [] [(g, 2)])
        ∧ ((sec = false ∨ o.secure = true) → (ty = 4 → found [] [(g, 1)]) ∧ (ty = 5 → found [] [(g, 6)])
            ∧ (ty ≠ 4 → ty ≠ 5 → wr = false → o.kind ≠ .rget → found [] [(g, 1)])
            ∧ (ty ≠ 4 → ty ≠ 5 → (wr = true ∨ o.kind = .rget) → found [(g, pa + g * 65536 % 2 ^ sh, wr)] [])))
      ∧ (∀ src tag touch wr, w.who = .probe src tag touch wr → s.wafer.refuses w.src = true →
          exec (.pageWalk n) s = .next { s with timers := s.timers ++ [(s.now + 1, .pageWalk n)] })
      ∧ (∀ src tag wr sh ea pa ty ww sec, w.who = .probe src tag false wr → s.wafer.refuses w.src = false → s.ownWafer w.va = true →
          ((s.tileAt src).ctx tag).asked.pageReq = some n → s.wafer.walk w.asid w.secWorld va = .leaf sh ea pa ty ww sec →
          (sec = false ∨ w.secWorld = true) → (ty = 2 ∨ ty = 3 ∨ ty = 5) →
          ∃ t a, exec (.pageWalk n) s = .next t ∧ Quiet s t ∧ left t ∧ t.wafer.net = s.wafer.net
            ∧ ((t.tileAt src).ctx tag).asked.pageAns = some a ∧ ((t.tileAt src).ctx tag).asked.pageReq = none
            ∧ a.va = w.va ∧ a.sec = w.secWorld ∧ a.touch = false ∧ a.cause = 0 ∧ a.word.extractLsb' 29 3 = BitVec.ofNat 3 (ty - 1)
            ∧ a.word.extractLsb' 27 2 = BitVec.ofNat 2 (if sh = 16 then 0 else if sh = 21 then 1 else if sh = 30 then 2 else 3)
            ∧ a.word.getLsbD 26 = ww ∧ a.word.getLsbD 25 = sec ∧ a.word.extractLsb' 0 24 = 0
            ∧ (a.word.getLsbD 24 = true ↔ (s.tileAt src).tlbFind w.asid w.secWorld va ≠ none))
      ∧ ∀ q c sh ea pa ty ww sec, w.who = .cond q → (s.queue q).cond = some c → c.walk = some n →
          s.wafer.walk w.asid w.secWorld va = .leaf sh ea pa ty ww sec → (sec = false ∨ w.secWorld = true) → ty ≠ 4 → ty ≠ 5 →
          ∃ t d, exec (.pageWalk n) s = .next t ∧ Quiet s t ∧ left t ∧ (t.queue q).cond = some d ∧ d.walk = none ∧ d.pa = some (pa + va % 2 ^ sh) ∧ d.va = va ∧ d.shift = sh
            ∧ s.now < d.due ∧ (d.due, Auto.conditionReadPerformed q) ∈ t.timers)
    ∧ (s.WriteGood 0x708 → ∀ v : BitVec 32, let va := s.wafer.host.tlbVa.toNat % 2 ^ 57
        let uses (o : RemoteOp) : Prop := o.performed = false ∧ o.asid = (v.extractLsb' 16 12).toNat ∧ o.secure = v.getLsbD 15
          ∧ ∃ p ∈ o.spans, v.getLsbD 14 = true ∨ p.1 * 65536 % 2 ^ 57 / 2 ^ p.2 = va / 2 ^ p.2
        let hits (e : TlbEntry) : Bool := e.asid == (v.extractLsb' 16 12).toNat && e.secWorld == v.getLsbD 15
          && (v.getLsbD 14 || e.vpn == va / 2 ^ e.shift)
        ∃ t, exec (.tlbShootdown v) s = .next t ∧ Quiet s t ∧ t.wafer.host.tlbBusyOn = true ∧ (∃ d, s.now < d ∧ (d, Auto.shootdownComplete) ∈ t.timers)
          ∧ (∀ x ∈ s.tiles, ∀ o ∈ x.netq, uses o → o.serial ∈ t.wafer.host.tlbBusy)
          ∧ (∀ m ∈ s.wafer.net, ∀ o, m.body = .op o → o.foreign ≠ none → uses o → m.serial ∈ t.wafer.host.tlbNet)
          ∧ (∀ q c, (s.queue q).cond = some c → c.pa ≠ none → (s.queue q).asid = (v.extractLsb' 16 12).toNat → (s.queue q).sec = v.getLsbD 15 →
              (v.getLsbD 14 = true ∨ c.va % 2 ^ 57 / 2 ^ c.shift = va / 2 ^ c.shift) → (q.val, c.due) ∈ t.wafer.host.tlbCond)
          ∧ t.tile.stores.tlb = s.tile.stores.tlb.filter (fun e => !hits e)
          ∧ t.others.map (·.stores.tlb) = s.others.map (fun x => x.stores.tlb.filter (fun e => !hits e)))
    ∧ (s.wafer.host.tlbBusyOn = true →
        let busy : Prop := (∃ n ∈ s.wafer.host.tlbBusy, ∃ x ∈ s.tiles, ∃ o ∈ x.netq, o.serial = n ∧ o.performed = false)
          ∨ (∃ n ∈ s.wafer.host.tlbNet, ∃ m ∈ s.wafer.net, m.serial = n)
          ∨ ∃ e ∈ s.wafer.host.tlbCond, ∃ c, (s.queue (Fin.ofNat 16 e.1)).cond = some c ∧ c.due = e.2
        ∃ t, exec .shootdownComplete s = .next t ∧ Quiet s t ∧ (t.wafer.host.tlbBusyOn = true ↔ busy)
          ∧ (busy → (s.now + 1, Auto.shootdownComplete) ∈ t.timers))

/-- R431 to R442: a migration. A request, a tile whose corrected errors reach CETHRESH in a grain, a missed refresh begins one. Once the tile has
settled, in the cycle after its entry at the earliest, its copy goes to the spare; equal CRCs lead to the rewrite, a first mismatch to another copy, a second one to the next spare; the rewrite
quiesces the region of the old and the new paths, all of them of at most three links, and when no flit lies in it writes the new paths, or
those round a retired tile; at the resume the map names the spare, which is LIVE with an empty TLB, and the old tile is RETIRED. A drain
past QTIMEOUT records 0xAE once.
Rests on the model's own reading or choice where log 105, 106, 107, 108, 110, 113 and 170 say so. -/
def Obligations.Migrations : Prop :=
  ∀ (s : State),
    (s.WriteGood 0x810 → Requested .migcmdMigrate s s s.hostTile false ∧ Requested .migcmdRetire s s s.hostTile true)
    ∧ (∀ c, let th := s.wafer.host.ceThresh.toNat
      let free : Prop := (∀ g, s.wafer.migration = some g → g.c ≠ c) ∧ ∀ e ∈ s.wafer.migWaiting, e.1 ≠ c
      let told := s.modTileAt c (fun t => { t with life := { t.life with ceTold := true } })
      (th = 0 ∨ (s.tileAt c).life.ceGrain < th ∨ (s.tileAt c).life.ceTold = true → exec (.ceThresholdMigration c) s = .next s)
      ∧ (th ≠ 0 → th ≤ (s.tileAt c).life.ceGrain → (s.tileAt c).life.ceTold = false →
          (free → Requested (.ceThresholdMigration c) s told c false) ∧ (¬ free → exec (.ceThresholdMigration c) s = .next told))
      ∧ ((s.tileAt c).life.st = .retired ∨ (s.tileAt c).life.st = .spare → exec (.wsRefreshMiss c) s = .next s)
      ∧ ((s.tileAt c).life.st ≠ .retired → (s.tileAt c).life.st ≠ .spare → ∃ t, exec (.wsRefreshMiss c) s = .next t ∧ SameMemory s t ∧ 0xAA ∈ (t.tileAt c).life.causes
          ∧ (¬ free → t.wafer.migration = s.wafer.migration ∧ t.wafer.migWaiting = s.wafer.migWaiting)
          ∧ (free → s.wafer.migration = none → (s.tileAt c).life.st = .live → ∀ p, Chosen s.wafer c [] p →
              (t.tileAt c).life.st = .migrating ∧ ∃ g, t.wafer.migration = some g ∧ g.c = c ∧ g.phase = .settle)))
    ∧ ∀ g, s.wafer.migration = some g →
      let place := (s.wafer.placeOf g.c).getD (0, 0)
      let copies (t : State) (h : Migration) : Prop := t.wafer.migration = some h ∧ h.c = g.c ∧ h.px = g.px ∧ h.py = g.py ∧ h.phase = .copy
        ∧ h.since = s.now ∧ h.due = s.now + 152192 + 2 * placeGap place (g.px, g.py) ∧ h.copied = true
      (g.phase = .settle → g.retireOnly = false →
        (g.since < s.now → (s.tileAt g.c).hasSettled = true → ∃ t h, exec .migrationCopy s = .next t ∧ Quiet s t ∧ copies t h
            ∧ (g.copied = false → (t.tileAt g.c).life.causes = (s.tileAt g.c).life.causes ++ List.replicate (s.tileAt g.c).badWords 0xAC))
        ∧ (s.now ≤ g.since ∨ (s.tileAt g.c).hasSettled = false → exec .migrationCopy s = .next s))
      ∧ (g.phase = .copy → g.due ≤ s.now → exec (.migrationCheck true) s = .next (s.modMove (fun g =>
          { g with phase := .check, since := s.now, due := s.now + 1 })))
      ∧ (g.phase = .copy → g.due ≤ s.now + 1 →
          (g.retried = false → ∃ t h, exec (.migrationCheck false) s = .next t ∧ Quiet s t ∧ copies t h ∧ h.retried = true)
          ∧ (g.retried = true → SpareFails (.migrationCheck false) s g))
      ∧ (g.retireOnly = false → SpareFails .spareFailure s g)
      ∧ (g.phase = .check → g.due ≤ s.now →
          let long : Prop := g.retireOnly = false ∧ ∃ n ∈ s.wafer.pathLinks g.c (g.px, g.py), 3 < n
          (¬ long → ∃ t, exec .migrationRewrite s = .next t ∧ Quiet s t ∧ (∃ h, t.wafer.migration = some h ∧ h.phase = .rewrite ∧ h.since = s.now
              ∧ h.region = s.wafer.regionOf g.c (g.px, g.py))
            ∧ (∀ c ∈ s.wafer.regionOf g.c (g.px, g.py), (t.tileAt c).life.st ≠ .live)
            ∧ ∀ e ∈ s.wafer.map, e.1.x = g.c.x ∨ e.1.y = g.c.y → e.1 ∈ s.wafer.regionOf g.c (g.px, g.py))
          ∧ (long → ∃ t, exec .migrationRewrite s = .next t ∧ SameMemory s t ∧ (s.wafer.migWaiting = [] → SameContexts s t) ∧ 0xAD ∈ (t.tileAt g.c).life.causes
              ∧ (g.px, g.py) ∈ t.wafer.retired ∧ (g.px, g.py) ∉ t.wafer.spares))
      ∧ (g.phase = .rewrite → g.since < s.now →
          let on (u : State) : State := u.modMove (fun g => { g with phase := .resume, since := s.now, due := s.now + 1 })
          (s.wafer.drained g.region = false → exec .migrationRewrite s = .next s)
          ∧ (s.wafer.drained g.region = true →
            (g.retireOnly = false → exec .migrationRewrite s = .next (on (s.modWafer (fun w => w.rewritePaths g.c (g.px, g.py))))
              ∧ ∀ n ∈ s.wafer.neighbours g.c, ∀ q, s.wafer.newPath g.c n (g.px, g.py) = some q →
                q ∈ (s.wafer.rewritePaths g.c (g.px, g.py)).paths ∧ q.back ∈ (s.wafer.rewritePaths g.c (g.px, g.py)).paths)
            ∧ (g.retireOnly = true → exec .migrationRewrite s = .next (on (s.bypass g.c)))))
      ∧ (g.phase = .resume → g.due ≤ s.now → s.wafer.migWaiting = [] → ∃ t, exec .migrationResume s = .next t ∧ Quiet s t ∧ t.wafer.migration = none
          ∧ (∀ c ∈ g.region, (t.tileAt c).life.st ≠ .quiesced)
          ∧ (g.retireOnly = false → (t.tileAt g.c).life.st = .live ∧ (t.tileAt g.c).life.px = g.px ∧ (t.tileAt g.c).life.py = g.py
              ∧ (t.tileAt g.c).life.ceGrain = 0 ∧ (t.tileAt g.c).mx.replay = true ∧ (t.tileAt g.c).stores.tlb = [] ∧ t.wafer.map = s.wafer.map.map (fun e => if e.1 = g.c then (g.c, g.px, g.py) else e)
              ∧ t.wafer.spares = s.wafer.spares.filter (fun x => x ≠ (g.px, g.py)) ∧ t.wafer.retired = s.wafer.retired ++ [place]
              ∧ ∀ m ∈ s.wafer.net, m.held = true → m.dst = g.c → ∃ x ∈ t.wafer.net, x.src = g.c ∧ x.dst = m.src ∧ x.body = .resume g.c))
      ∧ exec .quiesceTimeout s = .next (if g.phase = .rewrite ∧ g.timedOut = false ∧ s.wafer.host.qTimeout.toNat < s.now - g.since
          then (s.tileCause g.c 0xAE).modMove (fun g => { g with timedOut := true }) else s)

/-- R443 to R447: the scrubber and the worlds. A beat that is offered and whose bank the core leaves free is read, one of the stores of bundles and
microinstructions too: its corrected errors are counted and written back, an uncorrectable word is recorded as 0xA6 and left, and the next beat is due, with the last one the next pass; a pass
behind is late, one past its deadline records 0xA9. A change of world is made when no kernel is placed, with zeros in every memory of the
tile, or in the bank whose world changed; one that must wait records 0xAF. CECOUNT is read and cleared.
Rests on the model's own reading or choice where log 114, 115, 116, 189, 191 say so. -/
def Obligations.ScrubbingAndWorlds : Prop :=
  ∀ (s : State),
    (∀ c sram, let u := s.focus c
      let l := u.tile.life
      let p := l.scrub sram
      let beats := if sram then 41216 else 262144
      let limit := (if sram then 80000000 else 1250000000) / (if u.wafer.cruise.reduced then 2 else 1)
      let behind (q : ScrubPass) : Prop := q.beat + 1024 < (u.now - q.began) * beats / limit
      (l.st ≠ .retired → l.st ≠ .migrating → p.overdue = false → u.scrubOffered l sram = true → u.scrubFree sram p.beat = true →
        ∃ t, exec (.scrubBeat c sram) s = .next t ∧ Quiet u t
          ∧ (p.beat + 1 < beats → ((t.tile.life.scrub sram).beat = p.beat + 1 ∧ (t.tile.life.scrub sram).began = p.began
              ∧ ((t.tile.life.scrub sram).late = true ↔ p.late = true ∧ behind { p with beat := p.beat + 1 })))
          ∧ (beats ≤ p.beat + 1 → u.now ≤ p.began + limit → t.tile.life.scrub sram = { began := p.began + limit })
          ∧ (beats ≤ p.beat + 1 → p.began + limit < u.now → (t.tile.life.scrub sram).overdue = true)
          ∧ t.tile.life.scrub (!sram) = l.scrub (!sram)
          ∧ (∀ sp a, scrubPlace sram p.beat = some (sp, a) →
              t.tile.life.ceCount.toNat = min (l.ceCount.toNat + (u.tile.store sp).weakIn sp.word a 64) 0xFFFFFFFF
              ∧ (t.tile.store sp).weakIn sp.word a 64 = 0 ∧ (t.tile.store sp).bad = (u.tile.store sp).bad
              ∧ (u.tile.readBad sp a 64 = true → 0xA6 ∈ t.tile.life.causes ∧ t.tile.life.uncorrected = min (l.uncorrected + 1) 65535)
              ∧ (u.tile.readBad sp a 64 = false → t.tile.life.causes = l.causes ∧ t.tile.life.uncorrected = l.uncorrected))
          ∧ (sram = true → 36864 ≤ p.beat →
              let mine (e : Nat × Nat) : Bool := if p.beat < 40960 then e.2 / 4 == p.beat - 36864 else e.2 / 8 == p.beat - 40960
              let weak (m : TileMem) : List (Nat × Nat) := if p.beat < 40960 then m.istoreWeak else m.rstoreWeak
              let bad (m : TileMem) : List (Nat × Nat) := if p.beat < 40960 then m.istoreBad else m.rstoreBad
              weak t.tile.mem = (weak u.tile.mem).filter (fun e => !mine e) ∧ bad t.tile.mem = bad u.tile.mem
              ∧ t.tile.life.ceCount.toNat = min (l.ceCount.toNat + ((weak u.tile.mem).filter mine).length) 0xFFFFFFFF
              ∧ ((bad u.tile.mem).any mine = true → 0xA6 ∈ t.tile.life.causes ∧ t.tile.life.uncorrected = min (l.uncorrected + 1) 65535)
              ∧ ((bad u.tile.mem).any mine = false → t.tile.life.causes = l.causes ∧ t.tile.life.uncorrected = l.uncorrected)))
      ∧ (l.st = .retired ∨ l.st = .migrating ∨ p.overdue = true ∨ u.scrubOffered l sram = false ∨ u.scrubFree sram p.beat = false →
          exec (.scrubBeat c sram) s = .next s)
      ∧ (p.overdue = true → ∃ t, exec (.scrubLate c sram) s = .next t ∧ Quiet u t ∧ 0xA9 ∈ t.tile.life.causes ∧ t.tile.life.scrub sram = { began := u.now })
      ∧ (p.overdue = false → p.late = false → behind p → exec (.scrubLate c sram) s
          = .next (u.modTile (fun t => { t with life := t.life.setScrub sram { p with late := true } })))
      ∧ (p.overdue = false → (p.late = true ∨ ¬ behind p) → exec (.scrubLate c sram) s = .next s))
    ∧ (let c := s.hostTile
      let placed : Prop := (s.tileAt c).kernels ≠ []
      (∀ v : BitVec 1, s.WriteGood 0x808 → ∃ t, exec (.tworldWrite v) s = .next t ∧ Quiet s t
        ∧ (t.tileAt c).life.wantSecure = (if (s.tileAt c).life.secure = (v == 1) then none else some (v == 1)) ∧ (t.tileAt c).life.secure = (s.tileAt c).life.secure
        ∧ ((t.tileAt c).life.causes = (s.tileAt c).life.causes ++ (if (s.tileAt c).life.secure ≠ (v == 1) ∧ ¬ (s.tileAt c).kernels = [] then [0xAF] else [])))
      ∧ (∀ v : BitVec 32, s.WriteGood 0x80C → ∃ t, exec (.wssecWrite v) s = .next t ∧ Quiet s t
        ∧ (t.tileAt c).life.wantWssec = (if (s.tileAt c).life.wssec = v then none else some v) ∧ (t.tileAt c).life.wssec = (s.tileAt c).life.wssec
        ∧ (placed → (s.tileAt c).life.wssec ≠ v → 0xAF ∈ (t.tileAt c).life.causes))
      ∧ ∃ t, exec .cecountRead s = .next t ∧ Quiet s t ∧ (t.tileAt c).life.ceCount = 0
          ∧ t.wafer.host.readOut = (s.tileAt c).life.ceCount.setWidth 64)
    ∧ ∀ c, let l := (s.tileAt c).life
      let sec := l.wantSecure.getD l.secure
      let banks : BitVec 32 := if sec = true then l.wantWssec.getD l.wssec else 0
      ((s.tileAt c).kernels ≠ [] ∨ (l.wantSecure = none ∧ l.wantWssec = none) → exec (.worldChange c) s = .next s)
      ∧ ((s.tileAt c).kernels = [] → (l.wantSecure ≠ none ∨ l.wantWssec ≠ none) → ∃ t, exec (.worldChange c) s = .next t ∧ SameContexts s t
        ∧ (t.tileAt c).life.secure = sec ∧ (t.tileAt c).life.wssec = banks ∧ (t.tileAt c).life.wantSecure = none ∧ (t.tileAt c).life.wantWssec = none
        ∧ (sec ≠ l.secure → ∀ sp a, t.byte c sp a = 0)
        ∧ (sec = l.secure → (∀ a, t.byte c .spad a = s.byte c .spad a) ∧ (∀ a, t.byte c .acc a = s.byte c .acc a)
            ∧ ((s.tileAt c).mem.wf = true → ∀ a < 0x1000000, t.byte c .wst a = if banks.toNat.testBit (a / 0x80000) = l.wssec.toNat.testBit (a / 0x80000) then s.byte c .wst a else 0))
        ∧ (∀ d sp a, d ≠ c → t.byte d sp a = s.byte d sp a) ∧ ∀ a, t.extByte a = s.extByte a)

/-- R450 to R457, R461, Tables 20-1 to 20-4: the cruise. The common release begins self-test everywhere; after it a reticle is FAILED or probes its
sides with its key of health score and PUFID; after 100 µs its sides are UP, DEAD or EDGE and round 1 begins. An ELECT of a higher
round is joined with the higher key, one of this round with a higher key is taken, a lower one is ignored; after 200 µs the reticle
whose best key is its own leads, every other one follows and reports. A heartbeat is heard; 50 µs without one begin the next round.
A leader posts its claim; the primary one maps, another is ISOLATED. MAP and EXCLUDE act on the reticle they name, in the states that Table 20-1 gives; START names the
boot time of CYCLE 0. A bad message is discarded, and three in a row make its side DEAD.
Rests on the model's own reading or choice where log 24, 117, 118, 119, 120, 122, 123, 176 say so. -/
def Obligations.Cruises : Prop :=
  ∀ (s : State) (r : ReticleId), let x := s.ret r
    let now := s.wafer.time
    ((∀ q, (s.ret q).st ≠ .reset) → exec .resetRelease s = .next s)
    ∧ ((∃ q, (s.ret q).st = .reset) → ∃ t, exec .resetRelease s = .next t ∧ Quiet s t ∧ t.wafer.cruise.busy = true ∧ t.wafer.cruise.newdef = 0
      ∧ (t.wafer.cruise.keyBad = true ↔ s.wafer.cruise.flash.keys = none)
      ∧ ∀ q, t.ret q = if (s.ret q).st = .reset then { (s.ret q) with st := .selfTest, entered := now } else s.ret q)
    ∧ (∀ failed, x.st = .selfTest → let fin' := max now (x.entered + 2000 * usec)
      (∃ t, exec (.selfTestEnd r false failed) s = .next t ∧ OnlyReticle s t r ∧ (t.ret r).st = .failed ∧ t.wafer.time = fin')
      ∧ ∃ t, exec (.selfTestEnd r true failed) s = .next t ∧ OnlyReticle s t r ∧ (t.ret r).st = .probe ∧ t.wafer.time = fin'
        ∧ (∀ e ∈ failed, e.1 < 16 → e.2 < 21 → e ∈ (t.ret r).dead)
        ∧ (t.ret r).health = BitVec.ofNat 8 (255 * (336 - (t.ret r).dead.length) / 336) ∧ (t.ret r).key.extractLsb' 56 8 = (t.ret r).health
        ∧ (fin' + 100 * usec, Auto.probeEnd r) ∈ t.wafer.cruise.timers
        ∧ ∀ k, beside r k ≠ none → Crosses t r k 0 (fun m => msgKey m = (t.ret r).key ∧ msgField m 16 16 = BitVec.ofNat 16 k.val))
    ∧ (x.st = .probe → (now < x.entered + 100 * usec → exec (.probeEnd r) s = .next s)
      ∧ (x.entered + 100 * usec ≤ now → ∃ t, exec (.probeEnd r) s = .next t ∧ OnlyReticle s t r ∧ EntersRound s t r 1 x.key
        ∧ ∀ k : Fin 4, let v := x.side[k]
            ((t.ret r).side[k]).res = if beside r k = none then .edge
              else if v.acked = true ∧ v.seen = true ∧ v.discards < 3 then .up else .dead))
    ∧ (∀ side m, let v := x.side[side]
      (x.st ≠ .reset → x.st ≠ .selfTest → x.st ≠ .failed → v.discards < 3 → (x.st = .probe ∨ v.res = .up) → msgBad m = true →
        ∀ i ∈ [Instr.probeMessage r side m, .probeAck r side m, .electMessage r side m, .leaderMessage r side m, .reportMessage r side m, .mapMessage r side m,
               .clockMessage r side m, .startMessage r side m, .excludeMessage r side m],
          ∃ t, exec i s = .next t ∧ OnlyReticle s t r
            ∧ (t.ret r).side[side] = { v with discards := v.discards + 1, res := if v.discards = 2 then .dead else v.res })
      ∧ (Taken s r side m 0 → x.st = .probe → ∃ t, exec (.probeMessage r side m) s = .next t ∧ OnlyReticle s t r
          ∧ ((t.ret r).side[side]).seen = true ∧ ((t.ret r).side[side]).linkBits = v.linkBits &&& msgField m 20 32
          ∧ (beside r side ≠ none → Crosses t r side 1 (fun a => msgKey a = x.key)))
      ∧ (Taken s r side m 1 → x.st = .probe → ∃ t, exec (.probeAck r side m) s = .next t ∧ OnlyReticle s t r
          ∧ ((t.ret r).side[side]).acked = true ∧ ((t.ret r).side[side]).latency = BitVec.ofNat 16 ((now - v.sentAt) / 200))
      ∧ (Taken s r side m 2 → (msgType m, (msgKey m).toNat, (msgSeq m).toNat) ∉ x.seen → x.barred = false → x.st ≠ .ready →
          let key := msgField m 16 64
          ∃ t, exec (.electMessage r side m) s = .next t ∧ OnlyReticle s t r
            ∧ Floods s t r (some side) 2 (fun a => msgField a 16 64 = key ∧ msgKey a = msgKey m ∧ msgRound a = msgRound m)
            ∧ ((msgRound m).toNat < x.round.toNat → (t.ret r).best = x.best ∧ (t.ret r).round = x.round ∧ (t.ret r).st = x.st)
            ∧ (x.st = .elect → msgRound m = x.round → (t.ret r).round = x.round ∧ (t.ret r).st = .elect
                ∧ (t.ret r).best = (if x.best.toNat < key.toNat then key else x.best) ∧ (t.ret r).up = (if x.best.toNat < key.toNat then some side else x.up))
            ∧ ((x.st = .elect ∨ x.st = .follower ∨ x.st = .leader ∨ x.st = .map ∨ x.st = .clock) → x.round.toNat < (msgRound m).toNat →
                EntersRound s t r (msgRound m) (if x.key.toNat < key.toNat then key else x.key)))
      ∧ (Taken s r side m 3 → (msgType m, (msgKey m).toNat, (msgSeq m).toNat) ∉ x.seen → ∃ t, exec (.leaderMessage r side m) s = .next t
          ∧ OnlyReticle s t r ∧ (t.ret r).heard = (if (msgRound m).toNat < x.round.toNat then x.heard else now) ∧ (t.ret r).st = x.st
          ∧ Floods s t r (some side) 3 (fun a => msgKey a = msgKey m))
      ∧ (Taken s r side m 4 → msgRound m = x.round → x.st = .elect → x.best = x.key → ∃ t, exec (.reportMessage r side m) s = .next t ∧ OnlyReticle s t r
          ∧ (t.ret r).reports = x.reports ++ [readReport m side] ∧ (t.ret r).st = .elect)
      ∧ (Taken s r side m 4 → msgRound m = x.round → x.best ≠ x.key → ∀ k, x.up = some k → beside r k ≠ none →
          ∃ t, exec (.reportMessage r side m) s = .next t ∧ OnlyReticle s t r ∧ (t.ret r).reports = x.reports ∧ Crosses t r k 4 (fun a => a = m))
      ∧ (Taken s r side m 5 → msgField m 16 64 = x.key → msgRound m = x.round → x.st = .follower →
          ¬ (x.clock.hasPll = true ∧ x.clock.pll = .locked ∧ x.clock.parent = (msgField m 27 8).extractLsb' 5 3) →
          ∃ t, exec (.mapMessage r side m) s = .next t ∧ OnlyReticle s t r ∧ (t.ret r).st = .clock ∧ (t.ret r).entered = now
            ∧ (t.ret r).place = some ((msgField m 24 8).toNat, (msgField m 25 8).toNat) ∧ (t.ret r).rowsGone = msgField m 28 168
            ∧ (t.ret r).clock.parent = (msgField m 27 8).extractLsb' 5 3 ∧ (t.ret r).clock.depth.toNat = (msgField m 27 8).toNat % 32
            ∧ (t.ret r).clock.hasPll = false ∧ (now + 200 * usec, Auto.pllLockTimeout r) ∈ t.wafer.cruise.timers)
      ∧ (Taken s r side m 8 → msgField m 16 64 = x.key → let reason := (msgField m 24 8).toNat
          let named : Prop := (reason = 2 ∧ x.st = .follower)
            ∨ (reason < 2 ∧ msgRound m = x.round ∧ (x.st = .follower ∨ x.st = .map ∨ x.st = .clock))
          ∃ t, exec (.excludeMessage r side m) s = .next t ∧ OnlyReticle s t r
            ∧ (named → (t.ret r).st = .isolated ∧ (t.ret r).place = none ∧ (t.ret r).cause = 0xB8
                ∧ ((t.ret r).barred = true ↔ x.barred = true ∨ reason = 2))
            ∧ (¬ named → (t.ret r).st = x.st ∧ (t.ret r).place = x.place ∧ (t.ret r).barred = x.barred))
      ∧ (Taken s r side m 7 → (msgType m, (msgKey m).toNat, (msgSeq m).toNat) ∉ x.seen → msgRound m = x.round → x.st = .follower →
          ∃ t, exec (.startMessage r side m) s = .next t ∧ OnlyReticle s t r ∧ (t.ret r).clock.startAt = some ((msgField m 16 64).toNat * 100)
            ∧ Floods s t r (some side) 7 (fun a => msgField a 16 64 = msgField m 16 64)))
    ∧ (x.st = .elect → (now < x.roundAt + 200 * usec → exec (.roundTimer r) s = .next s)
      ∧ (x.roundAt + 200 * usec ≤ now → x.best = x.key → (∀ p ∈ x.reports, p.key.extractLsb' 0 56 ≠ x.key.extractLsb' 0 56) →
          ∃ t, exec (.roundTimer r) s = .next t ∧ OnlyReticle s t r ∧ (t.ret r).st = .leader ∧ (t.ret r).entered = now
            ∧ Floods s t r none 3 (fun m => msgKey m = x.key ∧ msgRound m = x.round)
            ∧ (now + 10 * usec, Auto.leaderHeartbeat r) ∈ t.wafer.cruise.timers ∧ (now + 200 * usec, Auto.claimPost r) ∈ t.wafer.cruise.timers)
      ∧ (x.roundAt + 200 * usec ≤ now → x.best ≠ x.key → ∃ t, exec (.roundTimer r) s = .next t ∧ OnlyReticle s t r ∧ (t.ret r).st = .follower
          ∧ (t.ret r).heard = now ∧ (now + 50 * usec + 1, Auto.heartbeatTimeout r) ∈ t.wafer.cruise.timers
          ∧ ∀ k, x.up = some k → beside r k ≠ none → Crosses t r k 4 (fun m => msgKey m = x.key ∧ msgRound m = x.round
              ∧ readReport m k = { x.report 0 with via := k })))
    ∧ (x.st = .leader → (∃ t, exec (.leaderHeartbeat r) s = .next t ∧ OnlyReticle s t r ∧ (now + 10 * usec, Auto.leaderHeartbeat r) ∈ t.wafer.cruise.timers
          ∧ Floods s t r none 3 (fun m => msgKey m = x.key))
      ∧ (now < x.entered + 200 * usec → exec (.claimPost r) s = .next s)
      ∧ (x.entered + 200 * usec ≤ now → ∃ t c, exec (.claimPost r) s = .next t ∧ OnlyReticle s t r ∧ t.ret r = x
          ∧ t.wafer.cruise.claims = s.wafer.cruise.claims ++ [c] ∧ c.key = x.key ∧ c.round = x.round
          ∧ (now + 100 * usec, Auto.claimWindowEnd r) ∈ t.wafer.cruise.timers)
      ∧ (now < x.entered + 300 * usec → exec (.claimWindowEnd r) s = .next s)
      ∧ (x.entered + 300 * usec ≤ now → (∃ c ∈ s.wafer.cruise.claims, x.round.toNat < c.round.toNat ∨ (c.round = x.round ∧ (∀ d ∈ s.wafer.cruise.claims,
            d.key = x.key → d.round = x.round → d.live < c.live))) →
          ∃ t, exec (.claimWindowEnd r) s = .next t ∧ OnlyReticle s t r ∧ (t.ret r).st = .isolated ∧ (t.ret r).cause = 0xB8 ∧ (t.ret r).place = none)
      ∧ (x.entered + 300 * usec ≤ now → x.clock.hasPll = false → (∃ c ∈ s.wafer.cruise.claims, c.key = x.key ∧ c.round = x.round ∧ ∀ d ∈ s.wafer.cruise.claims,
            d.round.toNat < x.round.toNat ∨ (d.round = x.round ∧ (d.live < c.live ∨ (d.live = c.live ∧ d.key.toNat ≤ x.key.toNat)))) →
          ∃ t, exec (.claimWindowEnd r) s = .next t ∧ Quiet s t ∧ t.wafer.cruise.leader = some r
            ∧ (((t.ret r).st = .clock ∧ (t.ret r).place ≠ none ∧ (t.ret r).clock.startAt ≠ none) ∨ (t.ret r).st = .isolated)))
    ∧ ((x.st = .follower ∨ x.st = .map ∨ x.st = .clock) → s.wafer.cruise.leader ≠ some r →
      (now ≤ x.heard + 50 * usec → ∃ t, exec (.heartbeatTimeout r) s = .next t ∧ OnlyReticle s t r ∧ t.ret r = x
          ∧ (x.heard + 50 * usec + 1, Auto.heartbeatTimeout r) ∈ t.wafer.cruise.timers)
      ∧ (x.heard + 50 * usec < now → ∃ t, exec (.heartbeatTimeout r) s = .next t ∧ OnlyReticle s t r ∧ EntersRound s t r (x.round + 1) x.key
          ∧ (t.ret r).cause = 0xBA))

/-- R450, R459 to R465: the clock tree and service. A PLL that locks in CLOCK is announced, and with START the reticle is READY: its tiles are LIVE
under their coordinates or SPARE; one that does not lock in 200 µs makes its reticle FAILED and the leader map again. A PLL whose
reference fails, or whose parent holds, holds; it slews to the candidate of least depth, then highest key; more than 5 ms of HOLD fail
the reticle. A CYCLE that departs is corrected by one, at most once in 1,024 cycles whatever corrects it, and what counts from it moves
with it. A READY reticle that hears no heartbeat elects. When every domain is calibrated the switch is named 1,024 cycles ahead; 2,048
cycles after it reduced service ends. A re-cruise ends every kernel; a full cruise resets every reticle that is not FAILED and clears no uncorrectable error (R512).
Rests on the model's own reading or choice where log 121, 124, 125, 126, 127, 128, 129, 171, 172, 173 say so. -/
def Obligations.ClocksAndService : Prop :=
  ∀ (s : State) (r : ReticleId), let x := s.ret r
    let now := s.wafer.time
    (x.st = .clock → x.clock.hasPll = false →
      (x.clock.startAt = none → ∃ t, exec (.pllLock r) s = .next t ∧ OnlyReticle s t r ∧ (t.ret r).st = .clock ∧ (t.ret r).clock.hasPll = true
        ∧ (t.ret r).clock.pll = .locked ∧ Floods s t r none 6 (fun m => msgField m 16 8 = 0 ∧ msgField m 17 8 = x.clock.depth))
      ∧ (∀ p, x.clock.startAt ≠ none → x.place = some p → ∃ t, exec (.pllLock r) s = .next t ∧ (t.ret r).st = .ready ∧ t.wafer.cruise.reduced = true
        ∧ t.wafer.map = s.wafer.map ++ x.liveTiles p ∧ t.wafer.spares = s.wafer.spares ++ x.spareTiles p ∧ t.wafer.gridH = gridRows x.rowsGone
        ∧ ((∀ q, (s.ret q).st ≠ .ready) → t.wafer.cycle = 0) ∧ ∀ q, q ≠ r → (t.ret q).st = (s.ret q).st)
      ∧ (now < x.entered + 200 * usec → exec (.pllLockTimeout r) s = .next s)
      ∧ (x.entered + 200 * usec ≤ now → ∃ t, exec (.pllLockTimeout r) s = .next t ∧ ReCruised s t (some r)))
    ∧ (x.st = .ready →
      (x.clock.pll = .hold → x.clock.parent ≠ 4 → exec (.referenceFailure r) s = .next s)
      ∧ (x.clock.pll ≠ .hold → ∃ t, exec (.referenceFailure r) s = .next t ∧ OnlyReticle s t r ∧ EntersHold s t r)
      ∧ (∀ side m, Taken s r side m 6 → msgField m 16 8 = 1 → x.clock.parent.toNat = side.val → x.clock.pll ≠ .hold →
          ∃ t, exec (.clockMessage r side m) s = .next t ∧ OnlyReticle s t r ∧ EntersHold s t r ∧ ((t.ret r).side[side]).nbPll = .hold)
      ∧ (∀ side m, Taken s r side m 6 → (msgField m 16 8).toNat < 3 → x.clock.pll ≠ .hold → (msgField m 16 8 ≠ 1 ∨ x.clock.parent.toNat ≠ side.val) →
          ∃ t, exec (.clockMessage r side m) s = .next t ∧ OnlyReticle s t r ∧ (t.ret r).clock = x.clock
            ∧ ((t.ret r).side[side]).nbPll = (if msgField m 16 8 = 0 then .locked else if msgField m 16 8 = 1 then .hold else .slew)
            ∧ ((t.ret r).side[side]).nbDepth = msgField m 17 8 ∧ ((t.ret r).side[side]).nbKey = msgKey m
            ∧ (((t.ret r).side[side]).nbChild = true ↔ msgField m 18 8 = 1))
      ∧ (∀ k : Fin 4, x.clock.pll = .hold → k ∈ s.candidates r → (∀ j ∈ s.candidates r, (x.side[k]).nbDepth.toNat < (x.side[j]).nbDepth.toNat
            ∨ ((x.side[k]).nbDepth = (x.side[j]).nbDepth ∧ ((x.side[j]).nbKey.toNat < (x.side[k]).nbKey.toNat ∨ j = k))) →
          ((x.side[k]).res = .up ∧ (x.side[k]).nbPll = .locked ∧ (x.side[k]).nbChild = false)
          ∧ ∃ t, exec (.parentSelection r) s = .next t ∧ Slews s t r (BitVec.ofNat 3 k.val) ((x.side[k]).nbDepth + 1))
      ∧ (x.clock.pll = .hold → s.candidates r = [] → x.clock.parent.toNat < 4 → exec (.parentSelection r) s = .next s)
      ∧ (x.clock.pll = .hold → s.candidates r = [] → 4 ≤ x.clock.parent.toNat → s.nextRoot = none → ∀ l, s.wafer.cruise.leader = some l →
          ∃ t, exec (.parentSelection r) s = .next t ∧ Slews s t l 5 0 ∧ (t.ret l).cause = 0xB7)
      ∧ (x.clock.pll = .slew → ∃ t, exec (.slewLocked r) s = .next t ∧ OnlyReticle s t r ∧ (t.ret r).clock.pll = .locked
          ∧ Floods s t r none 6 (fun m => msgField m 16 8 = 0))
      ∧ (x.clock.pll = .hold → now ≤ x.clock.since + 5000 * usec → exec (.holdLimit r) s = .next s)
      ∧ (x.clock.pll = .hold → x.clock.since + 5000 * usec < now → ∃ t, exec (.holdLimit r) s = .next t ∧ ReCruised s t (some r))
      ∧ (let d := s.parentSkew r - x.clock.skew;
          let e : Int := if 0 < d then 1 else -1
          (x.clock.pll = .locked → d ≠ 0 → x.clock.lastCorr + 1024 ≤ s.now → s.wafer.links.lastCorr + 1024 ≤ s.now →
            ∃ t, exec (.cycleCorrection r) s = .next t ∧ OnlyReticle s t r
              ∧ t.ret r = { x with clock := { x.clock with skew := x.clock.skew + e, lastCorr := s.now, liveAt := x.clock.liveAt + BitVec.ofInt 64 e } }
              ∧ t.tiles = s.tiles.map (fun y => if reticleOf y.life.px y.life.py = r
                  then { y with acct := { y.acct with t0 := y.acct.t0 + BitVec.ofInt 64 e } } else y))
          ∧ (x.clock.pll ≠ .locked ∨ d = 0 ∨ s.now < x.clock.lastCorr + 1024 ∨ s.now < s.wafer.links.lastCorr + 1024 →
              exec (.cycleCorrection r) s = .next s))
      ∧ (∀ ok, s.wafer.cruise.reduced = true → x.power.calibrated = false → ∃ t, exec (.avsCalibrationDone r ok) s = .next t ∧ OnlyReticle s t r
          ∧ (t.ret r).power.calibrated = true ∧ (t.ret r).power.fixed = !ok ∧ (ok = false → (t.ret r).power.mv = 800 ∧ (t.ret r).cause = 0xB5)
          ∧ ((∀ q, q ≠ r → (s.ret q).st = .ready → (s.ret q).power.calibrated = true) →
              (∀ q, (s.ret q).st ≠ .map ∧ (s.ret q).st ≠ .clock ∧ (s.ret q).st ≠ .elect ∧ (s.ret q).st ≠ .leader) →
              t.wafer.cruise.switchAt = some (s.wafer.cycle + 1024))
          ∧ ((∃ q, q ≠ r ∧ (s.ret q).st = .ready ∧ (s.ret q).power.calibrated = false) → t.wafer.cruise.switchAt = s.wafer.cruise.switchAt))
      ∧ (s.wafer.cruise.leader ≠ some r → x.heard + 50 * usec < now → ∃ t, exec (.heartbeatTimeout r) s = .next t
          ∧ (t.ret r).st = .elect ∧ (t.ret r).round = x.round + 1 ∧ (t.ret r).cause = 0xBA
          ∧ ((s.wafer.kernels.map (·.seq)).Nodup → ∀ k ∈ t.wafer.kernels, k.st = .complete) ∧ ∀ a, t.extByte a = s.extByte a)
      ∧ ∀ died, ∃ t, exec (.recruise died) s = .next t ∧ ReCruised s t died)
    ∧ (∀ v, s.wafer.cruise.switchAt = some v →
        (s.wafer.cycle.toNat < v.toNat → exec .frequencySwitch s = .next s)
        ∧ (v.toNat ≤ s.wafer.cycle.toNat → ∃ t, exec .frequencySwitch s = .next t ∧ Quiet s t ∧ t.wafer.cruise.holdUntil = s.now + 2048
            ∧ t.wafer.cruise.switchAt = none ∧ (s.now + 2048, Auto.reducedServiceEnd) ∈ t.timers))
    ∧ (s.wafer.cruise.holdUntil ≠ 0 →
        (s.now < s.wafer.cruise.holdUntil → exec .reducedServiceEnd s = .next s)
        ∧ (s.wafer.cruise.holdUntil ≤ s.now → ∃ t, exec .reducedServiceEnd s = .next t ∧ Quiet s t ∧ t.wafer.cruise.reduced = false
            ∧ t.wafer.cruise.holdUntil = 0))
    ∧ ((∀ q, (s.ret q).st ≠ .ready) → ∀ i ∈ [Instr.recruise (some r), .recruise none], exec i s = .next s)
    ∧ (s.WriteGood 0x938 → (∀ q, (s.ret q).st ≠ .ready) → exec .wcmdRecruise s = .next s)
    ∧ (s.WriteGood 0x938 → (∃ q, (s.ret q).st = .ready) → ∃ t, exec .wcmdRecruise s = .next t ∧ ReCruised s t none)
    ∧ (s.WriteGood 0x938 → (∃ q, (s.ret q).st = .ready ∨ (s.ret q).st = .isolated) → ∃ t, exec .wcmdFullCruise s = .next t ∧ t.wafer.kernels = [] ∧ t.wafer.nextSeq = 1
        ∧ (∀ q : QueueId, (t.queue q).st = .disabled ∧ (t.queue q).recs = []) ∧ (∀ k : Fin 64, t.wafer.ls[k] = 0) ∧ t.wafer.map = []
        ∧ (∀ q, (t.ret q).st = if (s.ret q).st = .failed then .failed else .reset)
        ∧ (∀ y ∈ s.tiles, y.life.st = .live → y.at'.x < 1000 → ∃ z ∈ t.others, z.life.px = y.life.px ∧ z.life.py = y.life.py
            ∧ z.mem.spad.bad = y.mem.spad.bad ∧ z.mem.acc.bad = y.mem.acc.bad ∧ z.mem.wst.bad = y.mem.wst.bad
            ∧ z.mem.istoreBad = y.mem.istoreBad ∧ z.mem.rstoreBad = y.mem.rstoreBad)
        ∧ ∀ a, t.extByte a = s.extByte a)
    ∧ (s.WriteGood 0x938 → (∀ q, (s.ret q).st ≠ .ready ∧ (s.ret q).st ≠ .isolated) → exec .wcmdFullCruise s = .next s)

/-- R466, R467, R469, R470: the power domain of a reticle in service. A grain's mean current above ITHROT, or a carrier sensor too hot, throttles the
next grain and grants no leave; ten grains above 640 A or one above 1,000 A revoke every leave and stop the commands that run, as a
droop below 0.68 V does; the heavy budget loses what the mean exceeds ITHROT by; the voltage steps by 5 mV between 0.70 V and 0.80 V; a
sense group whose share departs for five grains in a row sets its bit; the registers read, and clear, what the spec says.
Rests on the model's own reading or choice where log 130, 131, 132, 133, 134 say so. -/
def Obligations.PowerDomains : Prop :=
  ∀ (s : State) (r : ReticleId), let x := s.ret r
    let stopped (t : State) : Prop := (t.ret r).power.held = [] ∧ (t.ret r).power.noLeave = true
      ∧ ∀ y ∈ t.tiles, y.life.st ≠ .retired → reticleOf y.life.px y.life.py = r → (∀ m, y.mx.run = some m → m.fault = some (0x5D, m.rt.idx, 0))
        ∧ (∀ m, y.row.run = some m → m.fault = some (0x5E, m.reached s.now)) ∧ ∀ m, y.cpy.run = some m → m.fault = some (0x5F, m.reached s.now)
    (x.st = .ready → ∀ (mean : BitVec 16) groups pass hot, let m := mean.toNat
      let above := decide (x.power.ithrot.toNat < m) || hot
      let run := if 6400 < m then x.power.over640 + 1 else 0
      ∃ t, exec (.powerGrain r mean groups pass hot) s = .next t ∧ OnlyReticle s t r ∧ (t.ret r).power.mean = mean
        ∧ (t.ret r).power.peak.toNat = max x.power.peak.toNat m ∧ (t.ret r).power.throttle = above ∧ (t.ret r).power.over640 = run
        ∧ (t.ret r).power.budget = x.power.leavebud.toNat - (m - x.power.ithrot.toNat)
        ∧ (t.ret r).power.mv.toNat = (if x.power.fixed = true then x.power.mv.toNat
            else if pass = true then max 700 (x.power.mv.toNat - 5) else min 800 (x.power.mv.toNat + 5) % 65536)
        ∧ ((10 ≤ run ∨ 10000 < m) → stopped t)
        ∧ (run < 10 → m ≤ 10000 → (t.ret r).power.held = x.power.held ∧ (t.ret r).power.noLeave = above)
        ∧ (∀ g : Fin 16, let n := if departs groups x.power.crkth.toNat g.val = true then x.power.crackRuns[g] + 1 else 0
            (t.ret r).power.crackRuns[g] = n ∧ (t.ret r).power.crack.getLsbD g.val = (x.power.crack.getLsbD g.val || decide (5 ≤ n)))
        ∧ ∀ y ∈ t.tiles, y.life.st ≠ .retired → reticleOf y.life.px y.life.py = r → y.life.ceGrain = 0)
    ∧ (∀ mv : BitVec 16, (x.st ≠ .ready ∨ 680 ≤ mv.toNat → exec (.pwrDroop r mv) s = .next s)
      ∧ (x.st = .ready → mv.toNat < 680 → ∃ t, exec (.pwrDroop r mv) s = .next t ∧ OnlyReticle s t r ∧ stopped t ∧ (t.ret r).cause = 0xB3
          ∧ (t.ret r).causes.toNat = min (x.causes.toNat + 2) 65535))
    ∧ (r = s.wafer.selReticle →
      (s.WriteGood 0x91C → ∀ v, exec (.rcrackWrite v) s = .next (s.modPower r (fun p => { p with crack := p.crack &&& ~~~(v.extractLsb' 0 16) })))
      ∧ (∃ t, exec .rpeakRead s = .next t ∧ OnlyReticle s t r ∧ (t.ret r).power.peak = 0 ∧ t.wafer.host.readOut = x.power.peak.setWidth 64)
      ∧ ∃ t, exec .rcauseRead s = .next t ∧ OnlyReticle s t r ∧ (t.ret r).cause = 0 ∧ (t.ret r).causes = 0
          ∧ t.wafer.host.readOut.extractLsb' 0 8 = x.cause ∧ t.wafer.host.readOut.extractLsb' 16 16 = x.causes)

/-- R481 to R483, R486, R489 to R494: what the host asks of a port and what time does to it. A port secured against the host function that
writes is left alone; TRAINING begins from DARK or FAILED and ends when every wavelength is lit and both exchanges are made, or after
100 µs; wavelengths wake and are parked, and fail when not lit in 20 µs or faulty; a port left with fewer than MINW wavelengths fails, as one
does that hears nothing for 10 µs or cannot deliver a flit. Nothing else of the machine differs.
Rests on the model's own reading or choice where log 84, 86, 89, 90, 93, 95, 98, 103 say so. -/
def Obligations.LinkPorts : Prop :=
  ∀ (s : State) (p : PortId), let x := s.port p
    let now := s.wafer.time;
    (s.WriteGood (0x70000 + 0x100 * p.val) → s.WriteGood (0x70018 + 0x100 * p.val) → ∀ fn m, x.regs.sec = true → fn = false → ∀ i ∈ [Instr.linkTrain p fn, .linkDarken p fn, .lkwcmdWake p m fn, .lkwcmdPark p m fn],
        exec i s = .next (s.logged 0x96))
    ∧ (s.WriteGood (0x70000 + 0x100 * p.val) → s.WriteGood (0x70018 + 0x100 * p.val) → ∀ fn m, (x.regs.sec = true → fn = true) →
        (x.st = .dark ∨ x.st = .failed → ∃ t, exec (.linkTrain p fn) s = .next t ∧ OnlyPort s t p ∧ (t.port p).st = .training ∧ (t.port p).since = now
          ∧ (t.port p).txNum = 0 ∧ (t.port p).txSeq = 0 ∧ (t.port p).rxSeq = 0
          ∧ ∀ w : Fin 8, (t.port p).waves[w] = if (x.waves[w]).st = .dark then { x.waves[w] with st := .waking, since := now } else x.waves[w])
        ∧ (x.st ≠ .dark → x.st ≠ .failed → exec (.linkTrain p fn) s = .next s)
        ∧ (x.carries = true ∨ x.st = .failed → ∃ t, exec (.linkDarken p fn) s = .next t ∧ Downed s t p .dark 5)
        ∧ (x.carries = false → x.st ≠ .failed → exec (.linkDarken p fn) s = .next s)
        ∧ (x.carries = false → ∀ i ∈ [Instr.lkwcmdWake p m fn, .lkwcmdPark p m fn], exec i s = .next s)
        ∧ (x.carries = true → m ≠ 0 → ∃ t, exec (.lkwcmdWake p m fn) s = .next t ∧ OnlyPort s t p ∧ (t.port p).hasFlit (flitOf 5 m.toNat)
          ∧ ∀ w : Fin 8, (m.getLsbD w.val = false → (t.port p).waves[w] = x.waves[w]) ∧ (m.getLsbD w.val = true → (x.waves[w]).st = .parked ∨ (x.waves[w]).st = .failed →
              ((t.port p).waves[w]).st = .waking ∧ ((t.port p).waves[w]).since = now))
        ∧ (x.carries = true → m ≠ 0 → ∃ t, exec (.lkwcmdPark p m fn) s = .next t ∧ OnlyPort s t p ∧ (t.port p).hasFlit (flitOf 4 m.toNat)
          ∧ (x.maskOf [.active] ≠ 0 → (t.port p).maskOf [.active] ≠ 0)
          ∧ ∀ w : Fin 8, ((t.port p).waves[w]).st = (x.waves[w]).st ∨ (m.getLsbD w.val = true ∧ (x.waves[w]).st = .active ∧ ((t.port p).waves[w]).st = .litIdle)))
    ∧ (s.WriteGood 0xA00 → ∀ v : BitVec 32, ((∃ q, (s.port q).st ≠ .dark) ∨ v.setWidth 16 = 0xFFFF#16 → exec (.lkwaferWrite v) s = .next s)
      ∧ ((∀ q, (s.port q).st = .dark) → v.setWidth 16 ≠ 0xFFFF#16 → ∃ t, exec (.lkwaferWrite v) s = .next t ∧ Quiet s t ∧ t.wafer.links.ports = s.wafer.links.ports
          ∧ t.wafer.links.wafer = v.setWidth 16))
    ∧ (∀ fn, (∃ t, exec (.lkwhyRead p fn) s = .next t ∧ OnlyPort s t p ∧ (t.port p).regs.why = 0 ∧ (t.port p).regs.purged = false
          ∧ t.wafer.host.readOut.extractLsb' 0 8 = x.regs.why ∧ t.wafer.host.readOut.extractLsb' 8 8 = if x.regs.purged = true then 0x8E else 0)
      ∧ ∃ t, exec (.lkrplRead p fn) s = .next t ∧ OnlyPort s t p ∧ (t.port p).regs.rpl = 0 ∧ t.wafer.host.readOut = x.regs.rpl.setWidth 64)
    ∧ (∀ w : Fin 8, let v := x.waves[w];
      (v.st ≠ .waking ∨ v.since + 20 * usec < now → exec (.wavelengthLit p w) s = .next s)
      ∧ (v.st = .waking → now ≤ v.since + 20 * usec → x.carries = true → ∃ t, exec (.wavelengthLit p w) s = .next t ∧ OnlyPort s t p
          ∧ (((t.port p).waves[w]).st = .litIdle ∨ ((t.port p).waves[w]).st = .active) ∧ (t.port p).goal = x.goal ||| oneWave w
          ∧ (t.port p).hasFlit (flitOf 3 (x.goal ||| oneWave w).toNat))
      ∧ (v.st = .waking → now ≤ v.since + 20 * usec → x.st = .training → x.identOk = false → now < x.since + 100 * usec →
          ∃ t, exec (.wavelengthLit p w) s = .next t ∧ OnlyPort s t p ∧ ((t.port p).waves[w]).st = .litIdle ∧ (t.port p).st = .training
            ∧ (x.maskOf [.litIdle] = 0 → (t.port p).hasFlit (flitOf 8 (s.wafer.links.wafer.toNat + p.val * 2 ^ 16 + (if x.regs.sec = true then 2 ^ 24 else 0)))))
      ∧ (v.st ≠ .waking ∨ now < v.since + 20 * usec → exec (.wavelengthWakeTimeout p w) s = .next s)
      ∧ (v.st = .waking → v.since + 20 * usec ≤ now → ∃ t, exec (.wavelengthWakeTimeout p w) s = .next t ∧ OnlyPort s t p ∧ ((t.port p).waves[w]).st = .failed)
      ∧ (x.faulty w = false → exec (.wavelengthFault p w false) s = .next s)
      ∧ (∀ lost, x.faulty w = true ∨ lost = true → v.st = .active ∨ v.st = .litIdle ∨ v.st = .waking →
          let left := ((List.finRange 8).filter (fun k => k ≠ w ∧ (x.waves[k]).st ≠ .failed)).length
          ∃ t, exec (.wavelengthFault p w lost) s = .next t ∧ OnlyPort s t p ∧ ((t.port p).waves[w]).st = .failed
            ∧ (x.carries = true → left < x.regs.minw.toNat → Downed s t p .failed 1)
            ∧ (x.carries = true → x.regs.minw.toNat ≤ left → (t.port p).st = .degraded ∧ (x.goal ≠ oneWave w → (t.port p).goal.getLsbD w.val = false)))
      ∧ (∀ bias power ce ue up down, decide (x.regs.fecth.toNat < ue.toNat) = false → decide (x.regs.bmax.toNat < bias.toNat) = false →
          (x.regs.pmin.setWidth 16).toInt ≤ power.toInt → ∃ t, exec (.wavelengthGrain p w bias power ce ue up down) s = .next t ∧ OnlyPort s t p
            ∧ (t.port p).st = x.st ∧ let u := (t.port p).waves[w];
              u.st = v.st ∧ u.bias = bias ∧ u.power = power ∧ u.corrected = ce ∧ u.uncorrected = ue
              ∧ u.onTime = v.onTime + (if v.st = .active ∨ v.st = .litIdle ∨ v.st = .waking then 1 else 0) ∧ u.hrs.toNat = u.onTime / 225000 % 2 ^ 32
              ∧ ∀ k : Fin 5, u.taps[k] = v.taps[k] + (if up.getLsbD k.val = true then 1 else 0) - (if down.getLsbD k.val = true then 1 else 0)))
    ∧ (∀ r rest, x.replay = r :: rest → now < max r.last x.ackAt + 2 * usec → exec (.replayTimeout p) s = .next s)
    ∧ (∀ r rest, x.replay = r :: rest → max r.last x.ackAt + 2 * usec ≤ now → x.carries = true → x.paused = false → x.lit = true →
        ∃ t, exec (.replayTimeout p) s = .next t ∧ ((16 ≤ r.sent → Downed s t p .failed 3) ∧ ((∀ q ∈ x.replay, q.sent < 16 ∧ s.now ≤ q.since + x.regs.rplto.toNat) →
          OnlyPort s t p ∧ (t.port p).st = x.st ∧ (t.port p).replay.map (·.flit) = x.replay.map (·.flit) ∧ ∀ q ∈ (t.port p).replay.head?, q.sent = r.sent + 1 ∧ q.last = now)))
    ∧ (∀ a, x.nakAt = some a → (now < a + 2 * usec → exec (.nakRepeat p) s = .next s) ∧ (a + 2 * usec ≤ now →
        exec (.nakRepeat p) s = .next (s.modPort p (fun x => { x with nakAt := none }))))
    ∧ (x.carries = true → x.paused = false → (∀ q ∈ x.replay, q.sent < 17) →
        ((∃ q ∈ x.replay, q.since + x.regs.rplto.toNat < s.now) → ∃ t, exec (.lkrpltoExpiry p) s = .next t ∧ Downed s t p .failed 3)
        ∧ ((∀ q ∈ x.replay, s.now ≤ q.since + x.regs.rplto.toNat) → exec (.lkrpltoExpiry p) s = .next s))
    ∧ (x.carries = false ∨ x.paused = true → exec (.lkrpltoExpiry p) s = .next s)
    ∧ (x.carries = true → (now < x.rxAt + 10 * usec → exec (.linkSilent p) s = .next s)
        ∧ (x.rxAt + 10 * usec ≤ now → ∃ t, exec (.linkSilent p) s = .next t ∧ Downed s t p .failed 4))
    ∧ (let lit := x.maskOf [.litIdle]
        let done := x.identOk && x.stampDone
        let late := decide (x.since + 100 * usec ≤ now);
        (x.st ≠ .training ∨ (late = false ∧ (lit ≠ 0xFF ∨ done = false)) → exec (.trainingEnd p) s = .next s)
        ∧ (x.st = .training → late = true → maskCount lit < x.regs.minw.toNat → ∃ t, exec (.trainingEnd p) s = .next t ∧ Downed s t p .failed 1)
        ∧ (x.st = .training → late = true → x.regs.minw.toNat ≤ maskCount lit → done = false → ∃ t, exec (.trainingEnd p) s = .next t ∧ Downed s t p .failed 2)
        ∧ (x.st = .training → done = true → (late = true ∨ lit = 0xFF) → x.regs.minw.toNat ≤ maskCount lit → ∃ t, exec (.trainingEnd p) s = .next t ∧ OnlyPort s t p
            ∧ (t.port p).st = (if lit = 0xFF then .active else .degraded) ∧ (t.port p).rxMask = lit
            ∧ ∀ w : Fin 8, ((t.port p).waves[w]).st = if lit.getLsbD w.val = true then .active else .failed))
    ∧ (x.carries = false → exec (.stampSend p) s = .next s)
    ∧ (x.carries = true → ∃ t, exec (.stampSend p) s = .next t ∧ OnlyPort s t p ∧ (t.port p).carried = false
        ∧ (t.port p).idleGrains = (if x.carried = true then 0 else x.idleGrains + 1)
        ∧ (x.lit = true → ∃ f : Sent, (t.port p).fibre = x.fibre ++ [f] ∧ flitKind f.flit = 6 ∧ flitPayload f.flit % 2 ^ 64 = s.wafer.cycle.toNat))
    ∧ (let grains := (x.regs.pol.extractLsb' 16 16).toNat;
        (x.carries = false ∨ grains = 0 ∨ x.idleGrains < grains → exec (.linkPolicyPark p) s = .next s)
        ∧ (x.carries = true → grains ≠ 0 → grains ≤ x.idleGrains → ∃ t, exec (.linkPolicyPark p) s = .next t ∧ OnlyPort s t p ∧ (t.port p).idleGrains = 0
            ∧ (x.regs.pol.extractLsb' 8 8 ≠ 0 → (t.port p).hasFlit (flitOf 4 (x.regs.pol.extractLsb' 8 8).toNat))))
    ∧ (let q := (x.regs.pol.extractLsb' 0 8).toNat
        let m := x.regs.pol.extractLsb' 8 8;
        let sleeps : Prop := ∃ w : Fin 8, m.getLsbD w.val = true ∧ ((x.waves[w]).st = .parked ∨ (x.waves[w]).st = .litIdle);
        (x.carries = false ∨ q = 0 ∨ x.sendq.length ≤ 16 * q ∨ ¬ sleeps → exec (.linkPolicyWake p) s = .next s)
        ∧ (x.carries = true → q ≠ 0 → 16 * q < x.sendq.length → sleeps →
            ∃ t, exec (.linkPolicyWake p) s = .next t ∧ OnlyPort s t p ∧ (t.port p).hasFlit (flitOf 5 m.toNat)
              ∧ ∀ w : Fin 8, m.getLsbD w.val = true → (x.waves[w]).st = .parked → ((t.port p).waves[w]).st = .waking))
    ∧ (s.wafer.timeOffset = none ∨ s.wafer.links.stepDone = true ∨ (s.port (Fin.ofNat 64 (s.wafer.links.time.toNat % 64))).stampDone = false →
        exec .timeStep s = .next s)
    ∧ (∀ d, s.wafer.timeOffset = some d → s.wafer.links.stepDone = false → (s.port (Fin.ofNat 64 (s.wafer.links.time.toNat % 64))).stampDone = true →
        (s.waferIdle = false → exec .timeStep s = .next (s.modWafer (fun w => { w with links := { w.links with stepWaits := true } })))
        ∧ (s.waferIdle = true → s.wafer.links.stepWaits = false ∨ 1024 < d.natAbs → ∃ t, exec .timeStep s = .next t ∧ Quiet s t
            ∧ t.wafer.cycle = s.wafer.cycle + BitVec.ofInt 64 d ∧ t.wafer.links.stepDone = true
            ∧ t.tiles = s.tiles.map (fun y => { y with acct := { y.acct with t0 := y.acct.t0 + BitVec.ofInt 64 d } }))
        ∧ (s.waferIdle = true → s.wafer.links.stepWaits = true → d.natAbs ≤ 1024 → ∃ t, exec .timeStep s = .next t ∧ Quiet s t
            ∧ t.wafer.cycle = s.wafer.cycle ∧ t.wafer.links.stepDone = true))

/-- R473, R474, R476, R478, R480, R482, R487 to R489: a flit reaches a port. One that is lost, damaged or out of order is not taken and the
expected one is asked for; the ACK of one that is whole frees what it names; a replayed flit in order is taken once and acknowledged, and does
what its kind says. Nothing arrives at a port that is DARK or FAILED.
Rests on the model's own reading or choice where log 80, 81, 82, 83, 85, 87, 88, 91, 92 say so. -/
def Obligations.LinkFlits : Prop :=
  ∀ (s : State) (p : PortId) (f : BitVec 1024), let x := s.port p
    let now := s.wafer.time
    let d := flitPayload f
    let all (lost : Bool) : List (Nat × Instr) := [(0, .flitIdle p f lost), (1, .flitData p f lost), (2, .flitNak p f lost), (3, .flitRestripe p f lost),
      (4, .flitPark p f lost), (5, .flitWake p f lost), (6, .flitStamp p f lost), (7, .flitNotice p f lost), (8, .flitIdent p f lost),
      (9, .flitPause p f lost), (10, .flitUnpause p f lost)]
    let whole (k : Nat) : Prop := x.st ≠ .dark ∧ x.st ≠ .failed ∧ flitKind f = k ∧ f.extractLsb' 992 32 = flitCrc f
    let inOrder (k : Nat) : Prop := whole k ∧ flitRseq f = x.rxSeq
    let Took (t : State) : Prop := (t.port p).rxSeq = x.rxSeq + 1 ∧ (t.port p).rxAck = flitRseq f ∧ (t.port p).rxAt = now
    let Asked (t : State) : Prop := OnlyPort s t p ∧ (t.port p).rxSeq = x.rxSeq ∧ (t.port p).rxAck = x.rxAck ∧ (t.port p).rxMask = x.rxMask
      ∧ (t.port p).nakAt = (if x.nakAt.isSome then x.nakAt else some now)
    (x.st = .dark ∨ x.st = .failed → ∀ lost, ∀ e ∈ all lost, exec e.2 s = .next s)
    ∧ (x.st ≠ .dark → x.st ≠ .failed → ∀ lost, ∀ e ∈ all lost, lost = true ∨ flitKind f ≠ e.1 ∨ f.extractLsb' 992 32 ≠ flitCrc f →
        ∃ t, exec e.2 s = .next t ∧ Asked t ∧ (t.port p).replay = x.replay
          ∧ (x.nakAt = none → x.lit = true → ∃ g : Sent, (t.port p).fibre = x.fibre ++ [g] ∧ g.flit = flitSeal (flitOf 2 x.rxSeq.toNat) 0 x.rxAck))
    ∧ (∀ e ∈ all false, replayedKind e.1 = true → whole e.1 → flitRseq f ≠ x.rxSeq → ∃ t, exec e.2 s = .next t ∧ Asked t)
    ∧ (whole 0 → ∃ t, exec (.flitIdle p f false) s = .next t ∧ OnlyPort s t p ∧ (t.port p).rxAt = now
        ∧ ((t.port p).ackAt = now ∨ (t.port p).ackAt = x.ackAt) ∧ (x.sendq = [] → (t.port p).replay = x.replay.filter (fun r => decide (32768 ≤ (flitAck f - r.rseq).toNat))))
    ∧ (whole 9 → ∃ t, exec (.flitPause p f false) s = .next t ∧ OnlyPort s t p ∧ (t.port p).paused = true ∧ (x.paused = false → (t.port p).pausedAt = s.now))
    ∧ (whole 10 → ∃ t, exec (.flitUnpause p f false) s = .next t ∧ OnlyPort s t p ∧ (t.port p).paused = false
        ∧ (x.paused = true → (t.port p).ackAt = now ∧ (x.sendq = [] → (t.port p).replay
            = (x.replay.filter (fun r => decide (32768 ≤ (flitAck f - r.rseq).toNat))).map (fun r => { r with since := r.since + (s.now - x.pausedAt) }))))
    ∧ (whole 2 → x.sendq = [] → x.paused = false → x.carries = true → x.lit = true → x.regs.rpl.toNat < 2 ^ 31 → x.replay.length ≤ 512 → (∀ r ∈ x.replay, r.sent < 16 ∧ s.now ≤ r.since + x.regs.rplto.toNat) →
        ∃ t, exec (.flitNak p f false) s = .next t ∧ OnlyPort s t p ∧ (t.port p).st = x.st
          ∧ let kept := x.replay.filter (fun r => decide (32768 ≤ (flitAck f - r.rseq).toNat))
            let again := kept.filter (fun r => decide ((r.rseq - BitVec.ofNat 16 d).toNat < 32768));
            (t.port p).replay.map (·.rseq) = kept.map (·.rseq) ∧ (t.port p).fibre.length = x.fibre.length + again.length
            ∧ (t.port p).regs.rpl.toNat = x.regs.rpl.toNat + again.length)
    ∧ (inOrder 4 → ∃ t, exec (.flitPark p f false) s = .next t ∧ OnlyPort s t p ∧ Took t ∧ (x.maskOf [.active] ≠ 0 → (t.port p).maskOf [.active] ≠ 0)
        ∧ ∀ w : Fin 8, ((t.port p).waves[w]).st = (x.waves[w]).st ∨ (d.testBit w.val = true ∧ (x.waves[w]).st = .active ∧ ((t.port p).waves[w]).st = .litIdle))
    ∧ (inOrder 5 → ∃ t, exec (.flitWake p f false) s = .next t ∧ OnlyPort s t p ∧ Took t
        ∧ ∀ w : Fin 8, (d.testBit w.val = true → (x.waves[w]).st = .parked → ((t.port p).waves[w]).st = .waking ∧ ((t.port p).waves[w]).since = now)
          ∧ (d.testBit w.val = false → ((t.port p).waves[w]).st = (x.waves[w]).st))
    ∧ (inOrder 3 → (∀ w : Fin 8, (x.waves[w]).st = .active → d.testBit w.val = true) → ∃ t, exec (.flitRestripe p f false) s = .next t ∧ OnlyPort s t p ∧ Took t
        ∧ (t.port p).rxMask = BitVec.ofNat 8 d ∧ ((t.port p).st = x.st ∨ (x.st = .degraded ∧ (t.port p).st = .active))
        ∧ ∀ w : Fin 8, (d.testBit w.val = false → x.rxMask.getLsbD w.val = true → (x.waves[w]).st = .litIdle → (x.waves[w]).addSent = false → ((t.port p).waves[w]).st = .parked)
          ∧ (d.testBit w.val = true → x.rxMask.getLsbD w.val = false → (x.waves[w]).st = .litIdle → ((t.port p).waves[w]).st = .active
              ∨ ((t.port p).waves[w]).addSeen = true)
          ∧ ((x.waves[w]).st = .active → ((t.port p).waves[w]).st = .active))
    ∧ (inOrder 1 → let o := WireOp.read (x.rxData + d * 2 ^ (928 * x.rxCount));
        (x.rxCount + 1 < (32 + 64 * o.beats + 115) / 116 → ∃ t, exec (.flitData p f false) s = .next t ∧ OnlyPort s t p ∧ Took t ∧ (t.port p).carried = true
          ∧ (t.port p).rxCount = x.rxCount + 1 ∧ (t.port p).rxData = x.rxData + d * 2 ^ (928 * x.rxCount) ∧ t.wafer.net = s.wafer.net)
        ∧ ((32 + 64 * o.beats + 115) / 116 ≤ x.rxCount + 1 → ∃ t, exec (.flitData p f false) s = .next t ∧ SameMemory s t
          ∧ (t.port p).rxSeq = x.rxSeq + 1 ∧ (t.port p).rxCount = 0
          ∧ (s.ownWafer o.addr = true → o.kind ≤ 6 → ∃ m : Msg, t.wafer.net = s.wafer.net ++ [m] ∧ m.src = ⟨o.x, o.y⟩ ∧ (m.dst = gaTile o.addr ∨ (m.dst = m.src ∧ gaSpace o.addr = 8)))
          ∧ (s.ownWafer o.addr = false → t.wafer.net = s.wafer.net ∧ (o.kind ≤ 9 → ∀ q, q ≠ p → s.wafer.portTo (gaWafer o.addr) = some q →
              (x.regs.sec = false → (s.port q).regs.sec = false) → (o.sec = true ∨ (s.port q).regs.sec = false) → (t.port q).sendq.length + (t.port q).replay.length = (s.port q).sendq.length + (s.port q).replay.length + (32 + 64 * o.beats + 115) / 116))))
    ∧ (whole 6 → let t3 : BitVec 64 := BitVec.ofNat 64 d
        let t2 : BitVec 64 := BitVec.ofNat 64 (d / 2 ^ 64)
        let t1 : BitVec 64 := BitVec.ofNat 64 (d / 2 ^ 128)
        let a := (t2 - t1).toInt
        let b := (s.wafer.cycle - t3).toInt
        x.carries = true → ∃ t, exec (.flitStamp p f false) s = .next t ∧ OnlyPort s t p ∧ (t.port p).stampGot = some (s.wafer.cycle, t3)
          ∧ (t1 = 0 → t2 = 0 → (t.port p).regs.off = x.regs.off ∧ (t.port p).regs.dly = x.regs.dly)
          ∧ (t1 ≠ 0 ∨ t2 ≠ 0 → (t.port p).stampDone = true ∧ (t.port p).regs.off = BitVec.ofInt 32 ((a - b).fdiv 2)
              ∧ (t.port p).regs.dly = BitVec.ofInt 32 ((a + b).fdiv 2)))
    ∧ (inOrder 8 → let known := x.regs.peer.getLsbD 7 || (x.regs.peer.extractLsb' 16 16 == BitVec.ofNat 16 d && x.regs.peer.extractLsb' 0 6 == BitVec.ofNat 6 (d / 65536) && d / 65536 % 256 < 64)
        ∃ t, exec (.flitIdent p f false) s = .next t ∧ OnlyPort s t p ∧ (t.port p).regs.peerA.extractLsb' 16 16 = BitVec.ofNat 16 d
          ∧ (t.port p).regs.peerA.extractLsb' 0 6 = BitVec.ofNat 6 (d / 65536) ∧ (t.port p).regs.peerA.getLsbD 6 = d.testBit 24
          ∧ (x.st ≠ .training → (t.port p).st = x.st)
          ∧ (x.st = .training → known = false → (t.port p).st = .failed ∧ (t.port p).regs.why = 2)
          ∧ (x.st = .training → known = true → d.testBit 24 ≠ x.regs.sec → (t.port p).st = .failed ∧ (t.port p).regs.why = 7)
          ∧ (x.st = .training → known = true → d.testBit 24 = x.regs.sec → (t.port p).identOk = true))
    ∧ (inOrder 7 → let gang : BitVec 64 := BitVec.ofNat 64 (d / 2 ^ 64)
        let src : BitVec 16 := BitVec.ofNat 16 (d / 2 ^ 128)
        let dst := d / 2 ^ 144 % 65536
        ∃ t, exec (.flitNotice p f false) s = .next t ∧ Quiet s t ∧ (t.port p).rxSeq = x.rxSeq + 1 ∧ (t.port p).rxAck = flitRseq f
          ∧ (dst = s.wafer.links.wafer.toNat → d % 256 = 0 → (0, gang, src, s.wafer.links.wafer, 0) ∈ t.wafer.links.notices)
          ∧ (dst = s.wafer.links.wafer.toNat → d % 256 = 1 → ∀ k ∈ s.wafer.kernels, k.slice gang = true → (s.now, Auto.gangDeadline k.seq) ∈ t.timers)
          ∧ (∀ q, dst ≠ s.wafer.links.wafer.toNat → s.wafer.portTo dst = some q → (t.port q).hasFlit (flitOf 7 d)))

/-- R299, R499 to R503, R508 to R511: what the host's debug commands do. A non-secure function is denied where the selected context or tile is
secure; a context is held, resumed and stepped, or takes the deferred 0xBD, where DBGEN allows it; the account store is snapshot and
cleared; the trace ring is emptied; a paired run begins on two disjoint partitions without kernels, and its beats meet, or end in a mismatch, after
which every beat is refused. R9, R330: a register holds what the host writes to it, its reserved bits zero, and reads so; what concerns a
secure context reads as zero for a non-secure function.
Rests on the model's own reading or choice where log 100, 101, 137, 177 say so. -/
def Obligations.HostDebug : Prop :=
  ∀ (s : State) (fn : Bool), let u := s.focus s.selTile
    let k := s.selTag
    let c := u.tile.ctx k
    let secure := u.tile.life.secure || c.life.secure
    (s.WriteGood 0xB04 → secure = true → fn = false → ∀ req, ∀ i ∈ [Instr.dctlHalt req fn, .dctlResume fn, .dctlStep req fn], exec i s = .next (s.logged 0x96))
    ∧ (s.WriteGood 0xB04 → secure = false ∨ fn = true → ∀ req,
        (u.mayHold c = false ∨ c.life.st = .empty ∨ c.life.st = .killing ∨ (req = false ∧ c.dbg.held = true) → exec (.dctlHalt req fn) s = .next u)
        ∧ (u.mayHold c = true → c.life.st ≠ .empty → c.life.st ≠ .killing → req = false → c.dbg.held = false → ∃ t, exec (.dctlHalt req fn) s = .next t ∧ OnlyDebug u t k
            ∧ (t.tile.ctx k).dbg.held = true ∧ (t.tile.ctx k).dbg.reason = 1)
        ∧ (u.mayHold c = true → c.life.st ≠ .empty → c.life.st ≠ .killing → req = true → ∃ t, exec (.dctlHalt req fn) s = .next t ∧ OnlyDebug u t k
            ∧ (t.tile.ctx k).dbg = c.dbg ∧ (c.life.deferred = none → (t.tile.ctx k).life.deferred = some 0xBD))
        ∧ (c.dbg.held = true → ∃ t, exec (.dctlResume fn) s = .next t ∧ OnlyDebug u t k ∧ (t.tile.ctx k).dbg.held = false ∧ (t.tile.ctx k).dbg.step = none)
        ∧ (c.dbg.held = true → (req = false ∨ u.mayHold c = true) → ∃ t, exec (.dctlStep req fn) s = .next t ∧ OnlyDebug u t k
            ∧ (t.tile.ctx k).dbg = { c.dbg with step := some req })
        ∧ (c.dbg.held = false ∨ (req = true ∧ u.mayHold c = false) → exec (.dctlStep req fn) s = .next u))
    ∧ (s.WriteGood 0xBD0 → s.WriteGood 0xBC0 → u.tile.life.secure = true → fn = false → ∀ v, ∀ i ∈ [Instr.achcmdSnapshot fn, .achcmdClear fn, .tctlWrite v fn], exec i s = .next (s.logged 0x96))
    ∧ (s.WriteGood 0xBD0 → s.WriteGood 0xBC0 → u.tile.life.secure = false ∨ fn = true →
        (∃ t, exec (.achcmdSnapshot fn) s = .next t ∧ Quiet s t ∧ t.tile.acct = { u.tile.acct with hostSnap := u.tile.acct.counts, hostElapsed := t.tile.acct.hostElapsed }
          ∧ t.tile.acct.hostElapsed = u.cycle - u.tile.acct.t0)
        ∧ (∃ t, exec (.achcmdClear fn) s = .next t ∧ Quiet s t ∧ t.tile.acct.counts = [] ∧ t.tile.acct.loops = [] ∧ t.tile.acct.t0 = u.cycle
          ∧ t.tile.acct.ranges = u.tile.acct.ranges)
        ∧ (∀ v : BitVec 32, (fn = true ∨ (u.tile.dbg.tctl.getLsbD 29 = false ∧ v.getLsbD 29 = false)) → ∃ t, exec (.tctlWrite v fn) s = .next t ∧ Quiet s t
          ∧ t.tile.dbg = { u.tile.dbg with tctl := v &&& 0xE0000000, ring := [], next := 0, used := 0, discards := 0 })
        ∧ (∀ v : BitVec 32, fn = false → u.tile.dbg.tctl.getLsbD 29 = true ∨ v.getLsbD 29 = true → exec (.tctlWrite v fn) s = .next (s.logged 0x96)))
    ∧ (s.WriteGood 0xC00 → ∀ v : BitVec 32, let d := s.wafer.dbg
        let w := (v.extractLsb' 8 8).toNat
        let h := (v.extractLsb' 0 8).toNat
        let r : PairPart := { w := w, h := h, primary := d.pairp, shadow := d.pairs }
        (fn = false → (∃ y ∈ s.tiles, y.life.secure = true ∧ (r.inside d.pairp y.at' = true ∨ r.inside d.pairs y.at' = true)) →
          exec (.pairctlWrite v fn) s = .next (s.logged 0x96))
        ∧ ((fn = true ∨ ∀ y ∈ s.tiles, y.life.secure = false) →
        let px := (d.pairp.extractLsb' 8 8).toNat
        let py := (d.pairp.extractLsb' 0 8).toNat
        let sx := (d.pairs.extractLsb' 8 8).toNat
        let sy := (d.pairs.extractLsb' 0 8).toNat
        let apart := px + w ≤ sx ∨ sx + w ≤ px ∨ py + h ≤ sy ∨ sy + h ≤ py
        (v.getLsbD 31 = false → ∃ t, exec (.pairctlWrite v fn) s = .next t ∧ Quiet s t ∧ t.wafer.dbg.part = none)
        ∧ (v.getLsbD 31 = true → ¬apart → exec (.pairctlWrite v fn) s = .next s)
        ∧ (v.getLsbD 31 = true → apart → (∀ y ∈ s.tiles, y.kernels = []) → ∃ t, exec (.pairctlWrite v fn) s = .next t ∧ Quiet s t
            ∧ t.wafer.dbg.part = some r ∧ t.wafer.dbg.mismatch = false ∧ t.wafer.dbg.ordinals = [] ∧ t.wafer.dbg.beats = [])))
    ∧ (∀ n, (s.beat? n = none → exec (.pairBeatArrival n) s = .next s ∧ exec (.pairTimeout n) s = .next s)
      ∧ (∀ b, s.beat? n = some b → b.here = false → exec (.pairTimeout n) s = .next s)
      ∧ (∀ b, s.beat? n = some b → b.here = false → s.wafer.dbg.mismatch = true → ∃ t, exec (.pairBeatArrival n) s = .next t ∧ SameMemory s t
        ∧ t.wafer.dbg.beats = s.wafer.dbg.beats.filter (fun y => y.serial ≠ n))
      ∧ ∀ b, s.beat? n = some b → b.here = false → s.wafer.dbg.mismatch = false →
        ((∀ x ∈ s.wafer.dbg.beats, ¬Paired b x) → (s.wafer.dbg.beats.filter (·.here)).length < 256 → ∃ t, exec (.pairBeatArrival n) s = .next t ∧ Quiet s t
            ∧ t.wafer.dbg.beats = s.wafer.dbg.beats.map (fun y => if y.serial = n then { y with here := true } else y)
            ∧ (s.now + s.wafer.dbg.pairto.toNat, Auto.pairTimeout n) ∈ t.timers)
        ∧ ((∀ x ∈ s.wafer.dbg.beats, ¬Paired b x) → 256 ≤ (s.wafer.dbg.beats.filter (·.here)).length → ∃ t, exec (.pairBeatArrival n) s = .next t ∧ Quiet s t
            ∧ t.wafer.dbg.beats = s.wafer.dbg.beats ∧ (s.now + 1, Auto.pairBeatArrival n) ∈ t.timers)
        ∧ (∀ x ∈ s.wafer.dbg.beats, Paired b x → (∀ y ∈ s.wafer.dbg.beats, Paired b y → y = x) →
            (x.addr = b.addr → x.nt = b.nt → x.len = b.len → x.data = b.data → s.wafer.ext.cells.wf = true → ∃ t, exec (.pairBeatArrival n) s = .next t
              ∧ (∀ y ∈ t.wafer.dbg.beats, y.serial ≠ b.serial ∧ y.serial ≠ x.serial)
              ∧ let m := if b.shadow = true then x else b
                ∀ a, t.extByte a = if m.pa ≤ a ∧ a < m.pa + m.len then BitVec.ofNat 8 (m.data / 2 ^ (8 * (a - m.pa))) else s.extByte a)
            ∧ (x.addr ≠ b.addr ∨ x.data ≠ b.data → ∃ t, exec (.pairBeatArrival n) s = .next t ∧ SameMemory s t
              ∧ (∀ y ∈ t.wafer.dbg.beats, y.serial ≠ b.serial ∧ y.here = false) ∧ t.wafer.dbg.mismatch = true
              ∧ t.wafer.dbg.mva = b.addr.setWidth 64 ∧ (x.addr ≠ b.addr → t.wafer.dbg.why = 2)
              ∧ (x.addr = b.addr → x.nt = b.nt → x.len = b.len → t.wafer.dbg.why = 1))))
    ∧ (∀ n b, s.beat? n = some b → b.here = true → exec (.pairBeatArrival n) s = .next s ∧ ∃ t, exec (.pairTimeout n) s = .next t ∧ SameMemory s t
        ∧ t.wafer.dbg.mismatch = true ∧ (∀ y ∈ t.wafer.dbg.beats, y.here = false) ∧ (s.wafer.dbg.mismatch = false → t.wafer.dbg.why = 3))
    ∧ (secure = true → fn = false → ∀ off ∈ [0xB08, 0xB0C, 0xBC0, 0xBC4, 0xBD8, 0xBDC], s.windowWord fn off = 0)
    ∧ (∀ off v : BitVec 32, ∃ t, exec (.registerWrite off v fn) s = .next t ∧ Quiet s t)
    ∧ ∀ off v : BitVec 32, s.WriteGood off.toNat →
      (off ∈ [0x500, 0x50C, 0x514, 0x608, 0x81C, 0x820, 0x928, 0x92C, 0x930, 0x934] → ∃ t, exec (.registerWrite off v fn) s = .next t
          ∧ Quiet s t ∧ t.windowWord fn off.toNat = v)
      ∧ (∀ e ∈ [((0x728 : BitVec 32), (0xFF : BitVec 32)), (0x800, 0xFFFF), (0xA0C, 0x7F), (0xB00, 0x7FFFF), (0xBD4, 0x1FFFF)], off = e.1 →
          ∃ t, exec (.registerWrite off v fn) s = .next t ∧ Quiet s t ∧ t.windowWord fn off.toNat = v &&& e.2)
      ∧ (off = 0x900 → ∃ t, exec (.registerWrite off v fn) s = .next t ∧ Quiet s t ∧ t.wafer.cruise.rsel.extractLsb' 0 3 = v.extractLsb' 0 3
          ∧ t.wafer.cruise.rsel.extractLsb' 4 4 = if (v.extractLsb' 4 4).toNat < 12 then v.extractLsb' 4 4 else s.wafer.cruise.rsel.extractLsb' 4 4)
      ∧ (off = 0xA08 → s.wafer.links.rsel ≠ 0xFFFF → ∃ t, exec (.registerWrite off v fn) s = .next t ∧ Quiet s t
          ∧ t.windowWord fn 0xA08 = v &&& 0xFF3F)
      ∧ (off.toNat % 4 ≠ 0 → exec (.registerWrite off v fn) s = .next s)
      ∧ (off = 0xB10 → ∃ t, exec (.registerWrite off v fn) s = .next t ∧ Quiet s t
          ∧ t.wafer.dbg.dbgen.getLsbD 0 = v.getLsbD 0 ∧ t.wafer.dbg.dbgen.getLsbD 1 = if fn = true then v.getLsbD 1 else s.wafer.dbg.dbgen.getLsbD 1)
      ∧ (off = 0x928 → ∃ t, exec (.registerWrite off v fn) s = .next t ∧ (t.ret s.wafer.selReticle).power.ithrot = v)
      ∧ (∀ p : PortId, off.toNat = 0x70000 + 0x100 * p.val → ((s.port p).regs.sec = true → fn = false → exec (.registerWrite off v fn) s = .next (s.logged 0x96))
          ∧ ((s.port p).regs.sec = false ∨ fn = true → ∃ t, exec (.registerWrite off v fn) s = .next t ∧ OnlyPort s t p ∧ (t.port p).regs.sec = v.getLsbD 29
            ∧ (t.port p).regs.devctl = v.getLsbD 28))

/-- R34, R111, R112, R148, R302, R319, R346, R434, R443, R461, R490: the end of a tile clock cycle. CYCLE counts, with a correction of at most one, and
no tile reads a lower value; a load that has ended is BUSY no longer; a spare whose scrub finds an uncorrectable word is RETIRED; the tile charges
four slots; semaphores take what the cycle changed and stop at 65,535; launch semaphores count; what an instruction left to the end of
its cycle holds from the next one on.
Rests on the model's own reading or choice where log 14, 112, 139, 143, 172, 185 say so. -/
def Obligations.EndOfCycle : Prop :=
  ∀ s : State, ∃ t, exec .tileClockCycle s = .next t ∧ t.now = s.now + 1 ∧ t.tag = s.tag ∧ t.tile.at' = s.tile.at'
    ∧ t.wafer.time = s.wafer.time + (if s.wafer.cruise.reduced = true then 16 else 8)
    ∧ (t.wafer.cycle = s.wafer.cycle + 1 ∨ t.wafer.cycle = s.wafer.cycle + 2 ∨ t.wafer.cycle = s.wafer.cycle)
    ∧ (s.wafer.timeOffset = none → t.wafer.cycle = s.wafer.cycle + 1)
    ∧ (∀ k : Fin 64, (t.wafer.ls[k]).toNat = min 65535 ((s.wafer.ls[k]).toNat + s.wafer.lsInc[k]) ∧ t.wafer.lsInc[k] = 0)
    ∧ (t.cycle = s.cycle ∨ t.cycle = s.cycle + 1 ∨ t.cycle = s.cycle + 2)
    ∧ (∀ d, s.wafer.host.loadUntil = some d → d ≤ s.now + 1 → t.wafer.host.ldstat.getLsbD 31 = false)
    ∧ (s.wafer.migration = none → ∀ x ∈ s.wafer.spareMem, x.sram.overdue = false → x.sram.late = true → x.sram.beat < 32768 →
        ({ at' := ⟨0, 0⟩, mem := x.mem } : Tile).readBad .spad (64 * x.sram.beat) 64 = true →
        (x.px, x.py) ∈ t.wafer.retired ∧ (x.px, x.py) ∉ t.wafer.spares ∧ t.wafer.host.migLast ∈ [(0xA6 : BitVec 8), 0xA9])
    ∧ t.tile.core.log = {} ∧ t.tile.core.atEnd = []
    ∧ (s.tile.core.atEnd = [] →
        (s.tile.acct.counts = [] → counterSum t.tile.acct.counts = if s.tile.life.st.runs = true then 4 else 0)
        ∧ ∀ k : Tag, let q := (s.tile.ctx k).sems
          let r := (t.tile.ctx k).sems
          (∀ n : Fin 32, ((r.s)[n]).toNat = min 65535 ((match q.put.reverse.find? (fun e => e.1.toNat == n.val) with
              | some e => e.2.toNat | none => ((q.s)[n]).toNat) + (q.inc)[n]) ∧ (r.inc)[n] = 0)
          ∧ r.put = [] ∧ (t.tile.ctx k).regs = (s.tile.ctx k).regs ∧ (t.tile.ctx k).flow = (s.tile.ctx k).flow
          ∧ ((s.tile.ctx k).life.deferred = none → (s.tile.ctx k).life.st ≠ .empty → (s.tile.ctx k).life.st ≠ .killing →
            (∃ n : Fin 32, 65535 < (match q.put.reverse.find? (fun e => e.1.toNat == n.val) with
              | some e => e.2.toNat | none => ((q.s)[n]).toNat) + (q.inc)[n]) → (t.tile.ctx k).life.deferred = some 0x60))
    ∧ (∀ first count val, s.tile.core.atEnd = [.colours first count val] → ∀ b : Fin 64,
        t.tile.mem.colours.getLsbD b.val = if first ≤ b.val ∧ b.val < first + count then val else s.tile.mem.colours.getLsbD b.val)
    ∧ (∀ k val, s.tile.core.atEnd = [.arm k val] → (t.tile.ctx k).sys.armed = val)
    ∧ (∀ k val, s.tile.core.atEnd = [.prio k val] → (t.tile.ctx k).sys.prio = val)
    ∧ (∀ k, s.tile.core.atEnd = [.halt k] → (s.tile.ctx k).life.st = .ready ∨ (s.tile.ctx k).life.st = .issuing ∨ (s.tile.ctx k).life.st = .blocked →
        (t.tile.ctx k).life.st = .halted ∨ (t.tile.ctx k).life.st = .killing)
    ∧ (∀ k a h, s.tile.core.atEnd = [.killBegin k a h] → (s.tile.ctx k).life.st ≠ .empty → (t.tile.ctx k).life.st = .killing)
    ∧ (s.tile.core.atEnd = [.snapshot] → t.tile.acct.snap = t.tile.acct.counts ∧ t.tile.acct.snapElapsed = s.cycle - s.tile.acct.t0 + 1)

/-- R61, R63, R65, R262, R275, R445: a step whose turn is a seat's attempt runs the instruction that the bundle at the PC encodes. With one slot in
use it is exec of that slot's instruction, on the state whose issue record holds the bundle and its header and whose fetch has counted a
corrected error; with more slots it is one attempt of them together. Where a swap waits for the seat's context and the attempt issues
nothing, the swap's decision takes its place. A turn that is an event runs the event's meaning. The seat must be one that may issue and
make no host step.
Rests on the model's own reading or choice where log 9, 14, 174 say so. -/
def Obligations.StepRunsDecoded : Prop :=
  (∀ (s : State) (i : Instr) rest, s.agenda = .event i :: rest → step s = exec i { s with agenda := rest })
  ∧ (∀ s : State, s.agenda = [] → step s = .next s.plan)
  ∧ ∀ (s : State) (c : TileId) (seat : Fin 2) (st : Seat) rest (b : Bundle), s.agenda = .attempt c seat :: rest →
      let u := ({ s with agenda := rest } : State).focus c
      let v := u.focusTag st.tag
      let ready : State := { v.countFetch with issue := { header := if hasHeader b = true then slotWord b 0 else 0, words := b } }
      let runs (r : Result) : Prop := (u.swapSeated ≠ some st.tag → step s = r)
        ∧ (u.swapSeated = some st.tag → step s = match r with
            | .next t => if t.tile.core.log.issued.any (fun x => x.tag == st.tag) = true then r else exec (.swapDecision u.tile.at') u
            | _ => r)
      u.tile.core.seats[seat] = some st → u.mayTry st = true → u.tile.core.log.stepping = [] → u.stepSeat = none →
      v.fetched = b → v.fetchBad = false → v.ctx.dbg.step = none → v.ctx.doneSlots = 0 →
      (∀ k i, slotWord b k ≠ 0 → (∀ j, j ≠ k → slotWord b j = 0) → decodeSlot k (slotWord b k) = .ok i → runs (exec i ready))
      ∧ (b = 0 → runs (exec .nop ready))
      ∧ (∀ k n, slotWord b k ≠ 0 → (∀ j, j ≠ k → slotWord b j = 0) → decodeSlot k (slotWord b k) = .error n →
          runs (exec (.reservedEncoding k (slotWord b k) (BitVec.ofNat 5 n)) ready))
      ∧ (∀ j k, j ≠ k → slotWord b j ≠ 0 → slotWord b k ≠ 0 → runs (.next (ready.attempt (passesOf (liveSlots b 0)))))
      ∧ (∀ p, v.program = some p → ∀ a, p.bundles[v.ctx.flow.pc.toNat / 16]? = some a → v.fetched = a)

/-- R70 to R78: the words that the spec works out decode to the instructions that they stand for; the bundle of chapter 3 decodes to its four; a
word of zeros is a NOP in every slot (R63); routine words of chapter 7 decode to their microinstructions. -/
def Obligations.WorkedWords : Prop :=
  (∀ x ∈ workedWords, decodeWord x.1 x.2.1 = x.2.2)
  ∧ decodeBundle 0x042050000E4302000520C000FC739400
      = [.header 1 3 1 7 1 2 0, .vadd 1 2 1 16 0 0, .vld 2 4 6 0x200, .mcall 0 1 0 5]
  ∧ (∀ k, decodeWord k 0 = .nop)
  ∧ decodeMicro 0x6000000000000000 = some (.accmode 0 0 0) ∧ decodeMicro 0x20A0000100000000 = some (.stream 0 1 2 0 2 0 0 0 0)

/-- R61 to R78: decoding and encoding agree. The word of every well-formed instruction that a slot holds, with any operands, decodes to it in
its slot, and every word that decodes is the word of what it decodes to, which is well formed: no bit of a word is dropped.
Rests on the model's own reading or choice where log 20 says so. -/
def Obligations.DecodeEncode : Prop :=
  (∀ (i : Instr) (k : Fin 4), i.wf = true → i.slot? = some k → (∀ j w n, i ≠ .reservedEncoding j w n) →
    ∃ w, encode i = some w ∧ decodeSlot k w = .ok i)
  ∧ ∀ (i : Instr) (k : Fin 4) (w : BitVec 32), decodeSlot k w = .ok i → i.wf = true ∧ encode i = some w ∧ (i ≠ .nop → i.slot? = some k)

/-- R448 to R450: the machine right after power-on. Every reticle is in RESET, every port DARK, every queue DISABLED and empty, no kernel and no context
exists, nothing is in the network, memory lists nothing; the sequence numbers begin at 1 and CYCLE at 0.
Rests on the model's own reading or choice where log 5, 6, 98, 148 say so. -/
def Obligations.ResetState : Prop :=
  let s := State.reset
  s.memWf = true ∧ s.Serials ∧ s.agenda = [] ∧ s.wafer.cycle = 0 ∧ s.wafer.kernels = [] ∧ s.wafer.images = [] ∧ s.wafer.net = [] ∧ s.wafer.nextSeq = 1
  ∧ (∀ r : ReticleId, (s.ret r).st = .reset) ∧ (∀ p : PortId, (s.port p).st = .dark ∧ (s.port p).regs.rplto = 250000 ∧ (s.port p).regs.minw = 4)
  ∧ (∀ q : QueueId, (s.queue q).st = .disabled ∧ (s.queue q).recs = []) ∧ (∀ k : Fin 64, s.wafer.ls[k] = 0)
  ∧ (∀ k : Tag, (s.tile.ctx k).life.st = .empty) ∧ (∀ a, s.extByte a = 0) ∧ (∀ c sp a, s.byte c sp a = 0)

/-- R32, R515: every step keeps every memory of the machine in its canonical form, from every state in which they are.
Rests on the model's own reading or choice where log 5 says so. -/
def Obligations.StepKeepsMemory : Prop := ∀ s t : State, s.memWf = true → step s = .next t → t.memWf = true

/-- No instruction of the table is refused, and none stops but an access of the host beyond the edge's memory (R515): every other
answers a next state from every state.
Rests on the model's own reading or choice where log 150 says so. -/
def Obligations.AlwaysAnswers : Prop :=
  (∀ i : Instr, (∀ l a n d, i ≠ .hostMemoryWrite l a n d) → ∀ s : State, ∃ t, exec i s = .next t)
  ∧ ∀ l a n d (s : State), n ≤ 64 → if extLimit < a + n then exec (.hostMemoryWrite l a n d) s = .fault (.noSuchAddress a)
      else ∃ t, exec (.hostMemoryWrite l a n d) s = .next t

/-- R322 and the model's own numbering of messages and operations: every step keeps each serial number the name of one thing, from every state
in which it is. Statements that speak of the message or the operation of a number assume this of their state.
Rests on the model's own reading or choice where log 148 says so. -/
def Obligations.StepKeepsSerials : Prop := ∀ s t : State, s.Serials → step s = .next t → t.Serials
end

