-- ==== Sys2Proof/Laws/Issue.lean ====
section
/-! SUPPORT. What the issue of a bundle that holds one instruction does, said once: every statement about an instruction's result goes
through it. -/

namespace Sys2Proof.Machine

/-! ### The context in focus -/

@[simp] theorem State.ctx_setCtx (s : State) (c : Context) : (s.setCtx c).ctx = c := by
  simp [State.setCtx, State.ctx]

@[simp] theorem State.setCtx_setCtx (s : State) (c d : Context) : (s.setCtx c).setCtx d = s.setCtx d := by
  simp [State.setCtx]

@[simp] theorem State.ctx_modCtx (s : State) (f : Context → Context) : (s.modCtx f).ctx = f s.ctx := by
  simp [State.modCtx]

@[simp] theorem State.modCtx_modCtx (s : State) (f g : Context → Context) :
    (s.modCtx f).modCtx g = s.modCtx (fun c => g (f c)) := by
  simp [State.modCtx]

theorem State.setCtx_ctx (s : State) : s.setCtx s.ctx = s := by
  simp [State.setCtx, State.ctx]

/-! ### The scratch of an attempt -/

/-- A state with another issue scratch. -/
def State.withIssue (s : State) (i : Issue) : State := { s with issue := i }

@[simp] theorem State.withIssue_issue (s : State) (i : Issue) : (s.withIssue i).issue = i := rfl
@[simp] theorem State.withIssue_ctx (s : State) (i : Issue) : (s.withIssue i).ctx = s.ctx := rfl
@[simp] theorem State.withIssue_tile (s : State) (i : Issue) : (s.withIssue i).tile = s.tile := rfl
@[simp] theorem State.withIssue_tag (s : State) (i : Issue) : (s.withIssue i).tag = s.tag := rfl
@[simp] theorem State.withIssue_withIssue (s : State) (i j : Issue) : (s.withIssue i).withIssue j = s.withIssue j := rfl
@[simp] theorem State.withIssue_watchOn (s : State) (i : Issue) (w : Fin 16) : (s.withIssue i).watchOn w = s.watchOn w := rfl

theorem State.wait_holds (s : State) (ws : List WaitCond) (h : ∀ w ∈ ws, s.holds w = true) : s.wait ws = s := by
  have : ws.filter (fun w => !s.holds w) = [] := by
    simp only [List.filter_eq_nil_iff]; intro w hw; simp [h w hw]
  simp [State.wait, this]

theorem State.watchAccess_off (s : State) (k : Nat) (kinds : List Nat) (a n : Nat) (h : ∀ w, s.watchOn w = false) :
    s.watchAccess k kinds a n = s := by
  have : s.watchHits kinds a n = [] := by
    simp [State.watchHits, h]
  simp [State.watchAccess, this]

theorem State.attempt_clear (s : State) (hc : s.Clear) (p : Passes) : s.attempt p = s.tryBundle p true State.issued := by
  obtain ⟨_, hd, hs, _⟩ := hc
  unfold State.attempt
  split
  · rename_i h1 h2; rcases hd with hd | ⟨hd, _⟩ <;> simp_all
  · rename_i h1 h2; rcases hd with hd | ⟨_, hd⟩ <;> simp_all
  · simp [hs]

theorem State.predicate_on (s : State) (k : Nat) (p : BitVec 2) (h0 : s.issue.header = 0)
    (h : p = 0 ∨ s.ctx.regs.getP (0#1 ++ p) = { val := 1, poison := false }) : s.predicate k p = (true, false) := by
  unfold State.predicate predRef
  by_cases hp : p = 0
  · simp [h0, hp]
  · have h := h.resolve_left hp
    have hp' : ¬ p = 0#2 := hp
    simp [h0, hp', h]

theorem State.predicateBad_on (s : State) (k : Nat) (p : BitVec 2) (h0 : s.issue.header = 0)
    (h : p = 0 ∨ s.ctx.regBad.contains (.p (0#1 ++ p)) = false) : s.predicateBad k p = false := by
  unfold State.predicateBad predRef
  by_cases hp : p = 0
  · simp [h0, hp]
  · have h := h.resolve_left hp
    have hp' : ¬ p = 0#2 := hp
    have h' : RegRef.p (0#1 ++ p) ∉ s.ctx.regBad := by simpa using h
    simp only [h0]
    simp [hp', h']

/-- The state in which a slot that is on looks at its operands. -/
def SlotOp.lookAt (o : SlotOp) (s : State) : State := (s.use o.slot .on).setTimed o.timed

/-- A slot that is on, whose waits hold and whose checks pass, only plans. -/
theorem SlotOp.gather_on (o : SlotOp) (s : State) (hp : s.predicate o.slot o.pred = (true, false))
    (hb : s.predicateBad o.slot o.pred = false)
    (hw : ∀ w ∈ o.allWaits (o.lookAt s), (o.lookAt s).holds w = true) (hf : o.firstFail (o.lookAt s) = none)
    (hoff : ∀ w, (o.lookAt s).watchOn w = false) : o.gather s = o.plan (o.lookAt s) := by
  unfold SlotOp.gather
  rw [hp]
  simp only [hb, Bool.false_eq_true, ↓reduceIte, Bool.not_true]
  change (match o.firstFail ((o.lookAt s).wait (o.allWaits (o.lookAt s))) with
    | some c => (o.note ((o.lookAt s).wait (o.allWaits (o.lookAt s)))).fail o.slot c
    | none => o.plan (o.seen ((o.lookAt s).wait (o.allWaits (o.lookAt s))))) = _
  rw [State.wait_holds _ _ hw, hf]
  have : o.seen (o.lookAt s) = o.lookAt s := by
    unfold SlotOp.seen; split
    · exact State.watchAccess_off _ _ _ _ _ hoff
    · rfl
  simp only [this]

theorem scanLevel_pc (pc : BitVec 32) (t u : Bool) (k : Fin 4) (x y : Scan)
    (h : x.loops = y.loops ∧ x.npc = y.npc ∧ x.redir = y.redir) :
    (scanLevel pc t k x).loops = (scanLevel pc u k y).loops ∧ (scanLevel pc t k x).npc = (scanLevel pc u k y).npc
      ∧ (scanLevel pc t k x).redir = (scanLevel pc u k y).redir := by
  obtain ⟨h1, h2, h3⟩ := h
  unfold scanLevel
  simp only [h1, h3]
  split
  · split <;> simp [h2]
  · exact ⟨h1, h2, h3⟩

/-- A taken transfer changes the PC after the next bundle, not the next PC (R107). -/
theorem Flow.advance_pc (f : Flow) (q : Bool) (t : Option (BitVec 32)) : (f.advance q t none).pc = (f.advance q none none).pc := by
  have key : ∀ (a b : Bool) (x y : Scan), x.loops = y.loops ∧ x.npc = y.npc ∧ x.redir = y.redir →
      (scanLevel f.pc a 0 (scanLevel f.pc a 1 (scanLevel f.pc a 2 (scanLevel f.pc a 3 x)))).npc
        = (scanLevel f.pc b 0 (scanLevel f.pc b 1 (scanLevel f.pc b 2 (scanLevel f.pc b 3 y)))).npc := by
    intro a b x y h
    have h3 := scanLevel_pc f.pc a b 3 x y h
    have h2 := scanLevel_pc f.pc a b 2 _ _ h3
    have h1 := scanLevel_pc f.pc a b 1 _ _ h2
    exact (scanLevel_pc f.pc a b 0 _ _ h1).2.1
  unfold Flow.advance
  by_cases hq : (f.indelay || q) = true
  · simp [hq]
  · simp only [hq]
    exact key _ _ _ _ ⟨rfl, rfl, rfl⟩


/-- The state in which the slot of a bundle that holds one instruction is looked at. -/
def State.gathering (s : State) : State := s.reads.withIssue { header := s.issue.header, words := s.issue.words, phase := .gather }

theorem State.beginAttempt_clear (s : State) (hc : s.Clear) : s.beginAttempt = s.gathering := by
  obtain ⟨hi, _, _, hl, hd, hp, _⟩ := hc
  have a2 : (s.modCtx Context.landed).ctx.dbg.popped = [] := by simpa [Context.landed] using hp
  have a1 : (s.modCtx Context.landed).issue = { header := s.issue.header, words := s.issue.words } := hi
  unfold State.beginAttempt
  simp only [hl, Bool.false_eq_true, ↓reduceIte, State.inPhase]
  rw [a1]
  change ({ s.reads with issue := { header := s.issue.header, words := s.issue.words, phase := .gather, popped := (s.modCtx Context.landed).ctx.dbg.popped } } : State) = _
  rw [a2]; rfl

/-- An attempt that nothing holds back commits. -/
theorem State.tryBundle_clear (s : State) (hc : s.Clear) (p : Passes) (g : State) (hg : p.gather s.gathering = g)
    (hoff : ∀ w, g.watchOn w = false)
    (h1 : g.issue.waits = []) (h2 : g.issue.fails = []) (h3 : g.issue.watch = []) (h4 : g.issue.ask = none)
    (h5 : g.tile.core.log.issued = []) (h6 : g.pastWindow = false) :
    s.tryBundle p true State.issued = State.commitBundle p State.issued g := by
  have e1 : g.watchPc = g := by
    unfold State.watchPc; split
    · rfl
    · exact State.watchAccess_off _ _ _ _ _ hoff
  have e2 : g.watchCheck = g := by simp [State.watchCheck, h3, firstWatch]
  have e3 : g.watchHolds = false := by simp [State.watchHolds, h3, firstWatch]
  have hcol : g.collides = false := by simp [State.collides, h5]
  have hcs : s.compatStall = false := by
    have := hc.2.2.2.2.2.2.1
    simp [State.compatStall, State.holds, this]
  unfold State.tryBundle
  rw [hcs, State.beginAttempt_clear s hc, hg, e1, e2]
  unfold State.endAttempt
  simp only [h1, h2, e3, h4, h6, hcol, ne_eq, not_true_eq_false, ↓reduceIte, Bool.false_eq_true, Bool.and_false]


/-! ### Loop counters -/

theorem Counts.at_lt (c : Counts) (k B : Nat) (hB : 0 < B) (h : ∀ e ∈ c, e.2 < B) : c.at k < B := by
  induction c with
  | nil => simpa [Counts.at] using hB
  | cons e r ih =>
    obtain ⟨b, v⟩ := e
    unfold Counts.at
    split
    · exact h (b, v) (by simp)
    · split
      · exact hB
      · exact ih (fun e he => h e (by simp [he]))

theorem Counts.mem_put (c : Counts) (k x : Nat) (e : Nat × Nat) (he : e ∈ c.put k x) : e = (k, x) ∨ e ∈ c := by
  induction c with
  | nil => simp only [Counts.put] at he; split at he <;> simp_all
  | cons d r ih =>
    unfold Counts.put at he
    split at he <;> split at he <;> simp only [List.mem_cons] at he ⊢
    · exact .inr he
    · exact he
    · split at he
      · exact .inr (.inr he)
      · simp only [List.mem_cons] at he; rcases he with he | he
        · exact .inl he
        · exact .inr (.inr he)
    · rcases he with he | he
      · exact .inr (.inl he)
      · rcases ih he with h | h
        · exact .inl h
        · exact .inr (.inr h)

theorem Counts.put_lt (c : Counts) (k x B : Nat) (hx : x < B) (h : ∀ e ∈ c, e.2 < B) : ∀ e ∈ c.put k x, e.2 < B := by
  intro e he
  rcases Counts.mem_put c k x e he with he | he
  · subst he; exact hx
  · exact h e he

/-- Folding steps that raise a bound by one each. -/
theorem foldl_bound {α : Type} (f : Counts × Bool → α → Counts × Bool) (n : Nat)
    (hf : ∀ acc x B, B + n < 0xFFFFFFFF → 0 < B → (∀ e ∈ acc.1, e.2 < B) → acc.2 = false →
      (∀ e ∈ (f acc x).1, e.2 < B + n) ∧ (f acc x).2 = false) (l : List α) :
    ∀ acc B, B + n * l.length < 0xFFFFFFFF → 0 < B → (∀ e ∈ acc.1, e.2 < B) → acc.2 = false →
      (∀ e ∈ (l.foldl f acc).1, e.2 < B + n * l.length) ∧ (l.foldl f acc).2 = false := by
  induction l with
  | nil => intro acc B _ _ h1 h2; exact ⟨by simpa using h1, h2⟩
  | cons x l ih =>
    intro acc B hB h0 h1 h2
    simp only [List.length_cons, Nat.mul_add, Nat.mul_one] at hB
    have hx := hf acc x B (by omega) h0 h1 h2
    have := ih (f acc x) (B + n) (by omega) (by omega) hx.1 hx.2
    simp only [List.foldl_cons, List.length_cons, Nat.mul_add, Nat.mul_one]
    exact ⟨fun e he => by have := this.1 e he; omega, this.2⟩

theorem countUse_bound (tag : Tag) (uses : Vector SlotUse 4) (k : Fin 4) (acc : Counts × Bool) (sl : Fin 4) (B : Nat)
    (hB : B + 1 < 0xFFFFFFFF) (h0 : 0 < B) (h1 : ∀ e ∈ acc.1, e.2 < B) (h2 : acc.2 = false) :
    (∀ e ∈ (countUse tag uses k acc sl).1, e.2 < B + 1) ∧ (countUse tag uses k acc sl).2 = false := by
  unfold countUse
  simp only
  generalize tag.val * 32 + k.val * 8 + sl.val * 2 + (if uses[sl] = .on ∨ uses[sl] = .reserved then 0 else 1) = key
  have hlt := Counts.at_lt acc.1 key B h0 h1
  split
  · exact ⟨fun e he => Nat.lt_succ_of_lt (h1 e he), h2⟩
  · refine ⟨Counts.put_lt _ _ _ _ (by omega) (fun e he => Nat.lt_succ_of_lt (h1 e he)), ?_⟩
    simp only [h2, Bool.false_or, decide_eq_false_iff_not]
    omega

theorem countLevel_bound (c : Context) (tag : Tag) (uses : Vector SlotUse 4) (acc : Counts × Bool) (k : Fin 4) (B : Nat)
    (hB : B + 4 < 0xFFFFFFFF) (h0 : 0 < B) (h1 : ∀ e ∈ acc.1, e.2 < B) (h2 : acc.2 = false) :
    (∀ e ∈ (countLevel c tag uses acc k).1, e.2 < B + 4) ∧ (countLevel c tag uses acc k).2 = false := by
  unfold countLevel
  simp only
  split
  · have := foldl_bound (countUse tag uses k) 1 (fun a x B => countUse_bound tag uses k a x B) (List.finRange 4) acc B
      (by simpa using hB) h0 h1 h2
    simpa using this
  · exact ⟨fun e he => Nat.lt_of_lt_of_le (h1 e he) (Nat.le_add_right B 4), h2⟩

/-- No loop counter reaches its top while all are 16 below it. -/
theorem loopCounts_quiet (c : Context) (tag : Tag) (uses : Vector SlotUse 4) (m : Counts)
    (h : ∀ e ∈ m, e.2 < 0xFFFFFF00) : (loopCounts c tag uses m).2 = false := by
  unfold loopCounts
  split
  · rfl
  · refine (foldl_bound (countLevel c tag uses) 4 (fun a x B => countLevel_bound c tag uses a x B) (List.finRange 4) (m, false)
      0xFFFFFF00 (by simp) (by simp) (fun e he => h e he) rfl).2

/-! ### The issue -/

theorem Context.rest_observe (c : Context) (l : List Nat) (w : BitVec 128) (b : Bool) : (c.observe l w b).rest = c.rest := by
  unfold Context.observe
  split
  · rfl
  · simp only; split <;> split <;> rfl

theorem Context.observe_eqs (c : Context) (l : List Nat) (w : BitVec 128) (b : Bool) :
    (c.observe l w b).regs = c.regs ∧ (c.observe l w b).pending = c.pending ∧ (c.observe l w b).flow = c.flow
      ∧ (c.observe l w b).sys = c.sys ∧ (c.observe l w b).life = c.life := by
  unfold Context.observe
  split
  · exact ⟨rfl, rfl, rfl, rfl, rfl⟩
  · simp only; split <;> split <;> exact ⟨rfl, rfl, rfl, rfl, rfl⟩

theorem Context.rest_issued (c : Context) (l : List Nat) (i : Issue) (n : Nat) (hd : c.doneSlots = 0) (hp : c.life.partLanded = false) :
    (c.issued l i n).rest = c.rest := by
  have hm : (if c.sys.inHandler && !c.life.partLanded then c.sys.doneMask else 0) = c.sys.doneMask := by
    unfold Context.doneSlots at hd
    simp only [hp, Bool.not_false, Bool.and_true] at hd ⊢
    split at hd <;> simp_all
  have e := Context.rest_observe c l i.words i.segchk
  obtain ⟨_, _, _, e4, e5⟩ := Context.observe_eqs c l i.words i.segchk
  unfold Context.issued
  rw [← e]
  simp only [Context.rest, e4, e5, hm]
  split <;> rfl

theorem State.rest_setCtx (s : State) (c : Context) (h : c.rest = s.ctx.rest) : (s.setCtx c).rest = s.rest := by
  have e : ∀ d : Context, ((s.setCtx c).setCtx d) = s.setCtx d := fun d => by simp
  unfold State.rest State.modCtx
  simp only [State.ctx_setCtx, h, e]
  rfl

theorem State.rest_modCtx (s : State) (f : Context → Context) (h : (f s.ctx).rest = s.ctx.rest) : (s.modCtx f).rest = s.rest :=
  State.rest_setCtx s _ h

/-- The rest of the machine holds its memories. -/
theorem SameMemory.of_rest {s t : State} (h : t.rest = s.rest) : SameMemory s t := by
  have h1 : t.tile.at' = s.tile.at' := by simpa [State.rest, State.modCtx, State.setCtx] using congrArg (fun x => x.tile.at') h
  have h2 : t.tile.mem = s.tile.mem := by simpa [State.rest, State.modCtx, State.setCtx] using congrArg (fun x => x.tile.mem) h
  have h3 : t.others = s.others := by simpa [State.rest, State.modCtx, State.setCtx] using congrArg State.others h
  have h4 : t.wafer = s.wafer := by simpa [State.rest, State.modCtx, State.setCtx] using congrArg State.wafer h
  have h5 : t.now = s.now := by simpa [State.rest, State.modCtx, State.setCtx] using congrArg State.now h
  refine ⟨fun c sp a => ?_, fun a => ?_⟩
  · have e : (t.tileAt c).store sp = (s.tileAt c).store sp := by
      have h6 : t.freshTile c = s.freshTile c := by unfold State.freshTile; rw [h4, h5]
      have h7 : t.tile.store sp = s.tile.store sp := by cases sp <;> simp [Tile.store, h2]
      unfold State.tileAt
      rw [h1, h3, h6]
      split
      · exact h7
      · rfl
    unfold State.byte
    rw [e]
  · unfold State.extByte; rw [h4]

/-- What a bundle's issue leaves, for a state in which no loop counter is near its top. -/
theorem State.issued_issues (r : State) (h : r.ctx.sys.inHandler = true ∨ r.tile.acct.loops.all (fun e => decide (e.2 < 0xFFFFFF00)) = true)
    (hd : r.ctx.doneSlots = 0) (hp : r.ctx.life.partLanded = false) :
    Issues r r.issued.clearIssue r.issue.transfer r.issue.loop [] := by
  have hq : (loopCounts r.ctx r.tag r.issue.uses r.tile.acct.loops).2 = false := by
    rcases h with h | h
    · simp [loopCounts, h]
    · exact loopCounts_quiet _ _ _ _ (fun e he => by simpa using List.all_eq_true.mp h e he)
  have ec : r.countLoops.logIssued.ctx = r.ctx := by simp [State.countLoops, hq]; rfl
  have er : r.countLoops.logIssued.rest = r.rest := by simp [State.countLoops, hq]; rfl
  have e : r.issued.rest = r.rest := by
    unfold State.issued
    rw [State.rest_modCtx, er]
    rw [ec]
    exact Context.rest_issued _ _ _ _ hd hp
  obtain ⟨o1, o2, o3, o4, _⟩ := Context.observe_eqs r.ctx ((r.program.map (fun p => p.segments.map (·.1))).getD []) r.issue.words r.issue.segchk
  have e' : r.issued.clearIssue.rest = r.rest := e
  refine ⟨e', .of_rest e', ?_, ?_, ?_⟩
  · show r.issued.ctx.regs = _
    simp [State.issued, ec, Context.issued, o1]
  · show r.issued.ctx.pending = _
    simp [State.issued, ec, Context.issued, o2]
  · show r.issued.ctx.flow = _
    simp [State.issued, ec, Context.issued, o3, o4]

/-! ### A bundle that holds one instruction -/

theorem SlotOp.lookAt_eq (o : SlotOp) (s : State) :
    o.lookAt s = s.withIssue { s.issue with uses := s.issue.uses.setIfInBounds o.slot .on, timed := o.timed || s.issue.timed } := by
  unfold SlotOp.lookAt State.setTimed State.use
  cases o.timed <;> rfl

/-- A slot that is on, whose waits hold and whose checks pass, commits its effect and issues. -/
theorem SlotOp.run_clear (o : SlotOp) (s : State) (hc : s.Clear) (hp : s.predOn o.pred)
    (hw : ∀ w ∈ o.allWaits (o.lookAt s.gathering), (o.lookAt s.gathering).holds w = true)
    (hf : o.firstFail (o.lookAt s.gathering) = none) (g : State) (hg : o.plan (o.lookAt s.gathering) = g)
    (hoff : ∀ w, g.watchOn w = false)
    (h1 : g.issue.waits = []) (h2 : g.issue.fails = []) (h3 : g.issue.watch = []) (h4 : g.issue.ask = none)
    (h5 : g.tile.core.log.issued = []) (h6 : g.pastWindow = false) :
    o.run s = (o.lateAct ((o.commit (g.inPhase .commit)).issued.inPhase .late)).clearIssue := by
  have hph : s.issue.phase = .single := by rw [hc.1]
  unfold SlotOp.run
  rw [hph]
  simp only
  rw [State.attempt_clear s hc]
  have hpr : s.gathering.predicate o.slot o.pred = (true, false) := State.predicate_on _ _ _ hp.1 (hp.2.imp id And.left)
  have hbd : s.gathering.predicateBad o.slot o.pred = false :=
    State.predicateBad_on _ _ _ hp.1 (hp.2.imp id (fun h => by
      rw [show s.gathering.ctx.regBad = s.ctx.regBad by
        simp [State.gathering, State.reads, Context.landed]]
      exact h.2))
  have hwo : ∀ w, (o.lookAt s.gathering).watchOn w = false := by
    intro w
    rw [SlotOp.lookAt_eq, State.withIssue_watchOn]
    have := hc.2.2.2.2.2.2.2.2.1 w
    simpa [State.watchOn, State.gathering, State.reads, State.withIssue, State.modCtx, State.setCtx, State.ctx, Context.landed] using this
  exact State.tryBundle_clear s hc _ g (by show o.gather s.gathering = g; rw [SlotOp.gather_on o _ hpr hbd hw hf hwo, hg]) hoff h1 h2 h3 h4 h5 h6

/-- The commit of a slot that is on. -/
theorem SlotOp.commit_on (o : SlotOp) (s : State) (h : (s.predicate o.slot o.pred).1 = true) :
    o.commit s = o.act (o.pops.foldl (State.popFeed o.slot) s) := by
  simp [SlotOp.commit, h]

/-- Only the rest of the machine, the registers and the counters of r bear on what Issues says. -/
theorem Issues.congr {r r' t : State} {a : Option (BitVec 32)} {b : Option (Fin 4 × BitVec 32 × Nat)} {ws : List Pending}
    (h : Issues r t a b ws) (e : r.withIssue {} = r'.withIssue {}) : Issues r' t a b ws := by
  have ec : r.ctx = r'.ctx := by
    have := congrArg State.ctx e
    simpa using this
  have er : (r.withIssue {}).rest = (r'.withIssue {}).rest := congrArg State.rest e
  replace er : r.rest = r'.rest := er
  have eb : ∀ c sp x, r.byte c sp x = r'.byte c sp x := by
    intro c sp x
    have h : (r.withIssue {}).byte c sp x = (r'.withIssue {}).byte c sp x := congrArg (fun y : State => y.byte c sp x) e
    exact h
  have ex : ∀ x, r.extByte x = r'.extByte x := by
    intro x
    have h : (r.withIssue {}).extByte x = (r'.withIssue {}).extByte x := congrArg (fun y : State => y.extByte x) e
    exact h
  obtain ⟨h1, ⟨h2, h2'⟩, h3, h4, h5⟩ := h
  exact ⟨by rw [h1, er], ⟨fun c sp x => by rw [h2, eb], fun x => by rw [h2', ex]⟩, by rw [h3, ec], by rw [h4, ec], by rw [h5, ec]⟩

/-- A result put among the pending writes is a result that the bundle leaves. -/
theorem Issues.of_pend {r t : State} {a : Option (BitVec 32)} {b : Option (Fin 4 × BitVec 32 × Nat)} {ws : List Pending}
    {k : Nat} {l : Lat} {w : RegWrite} {p : Bool} (h : Issues (r.pend k l w p) t a b ws) :
    Issues r t a b (r.result k l w p :: ws) := by
  have e : (r.pend k l w p).rest = r.rest := State.rest_modCtx _ _ rfl
  obtain ⟨h1, ⟨h2, h2'⟩, h3, h4, h5⟩ := h
  have m := SameMemory.of_rest e
  refine ⟨by rw [h1, e], ⟨fun c sp x => by rw [h2, m.1], fun x => by rw [h2', m.2]⟩, ?_, ?_, ?_⟩
  · rw [h3]; simp [State.pend]
  · rw [h4]; simp [State.pend, State.result]
  · rw [h5]; simp [State.pend]

/-- What the state of a slot that is on shows of the state before the attempt. -/
theorem SlotOp.lookAt_clear (o : SlotOp) (s : State) (hc : s.Clear) :
    (∀ w, (o.lookAt s.gathering).watchOn w = false) ∧ (o.lookAt s.gathering).tile.core.log.issued = []
      ∧ (o.lookAt s.gathering).windowLen = s.windowLen ∧ (o.lookAt s.gathering).ctx.flow = s.ctx.flow
      ∧ (o.lookAt s.gathering).ctx.sys = s.ctx.sys := by
  refine ⟨?_, ?_, ?_, ?_, ?_⟩
  · intro w
    rw [SlotOp.lookAt_eq, State.withIssue_watchOn]
    have := hc.2.2.2.2.2.2.2.2.1 w
    simpa [State.watchOn, State.gathering, State.reads, State.withIssue, State.modCtx, State.setCtx, State.ctx, Context.landed] using this
  · rw [SlotOp.lookAt_eq]; exact hc.2.2.2.2.2.2.2.1
  · rw [SlotOp.lookAt_eq]
    simp [State.windowLen, State.program, State.programOf, State.gathering, State.reads, State.withIssue, State.modCtx, State.setCtx,
      State.ctx, Context.landed]
  · rw [SlotOp.lookAt_eq]
    simp [State.gathering, State.reads, Context.landed]
  · rw [SlotOp.lookAt_eq]
    simp [State.gathering, State.reads, Context.landed]

/-- A slot that is on, whose waits hold and whose checks pass: it plans, has its effect, issues, and has what follows. i is the scratch
that its plan leaves. -/
theorem SlotOp.run_planned (o : SlotOp) (s : State) (hc : s.Clear) (hp : s.predOn o.pred)
    (hw : ∀ w ∈ o.allWaits (o.lookAt s.gathering), (o.lookAt s.gathering).holds w = true)
    (hf : o.firstFail (o.lookAt s.gathering) = none) (i : Issue) (hg : o.plan (o.lookAt s.gathering) = s.reads.withIssue i)
    (hhd : i.header = 0) (h1 : i.waits = []) (h2 : i.fails = []) (h3 : i.watch = []) (h4 : i.ask = none)
    (h6 : i.parks = true ∨ (s.reads.withIssue i).nextPc.toNat < 16 * s.windowLen) :
    o.run s = (o.lateAct ((o.act (o.pops.foldl (State.popFeed o.slot) ((s.reads.withIssue i).inPhase .commit))).issued.inPhase .late)).clearIssue := by
  obtain ⟨q1, q2, q3, q4, q5⟩ := SlotOp.lookAt_clear o s hc
  have hwo : ∀ w, (s.reads.withIssue i).watchOn w = false := by
    intro w; have := q1 w; rw [SlotOp.lookAt_eq] at this; exact this
  have hiss : (s.reads.withIssue i).tile.core.log.issued = [] := hc.2.2.2.2.2.2.2.1
  have hwin : (s.reads.withIssue i).windowLen = s.windowLen := by
    rw [← q3, SlotOp.lookAt_eq]; rfl
  have hpast : (s.reads.withIssue i).pastWindow = false := by
    unfold State.pastWindow
    rw [hwin]
    show (!i.parks && decide (16 * s.windowLen ≤ (s.reads.withIssue i).nextPc.toNat)) = false
    rcases h6 with h | h
    · simp [h]
    · rw [decide_eq_false (Nat.not_le.mpr h), Bool.and_false]
  have hrun := SlotOp.run_clear o s hc hp hw hf _ hg hwo h1 h2 h3 h4 hiss hpast
  rw [hrun, SlotOp.commit_on]
  exact congrArg Prod.fst (State.predicate_on ((s.reads.withIssue i).inPhase .commit) o.slot o.pred hhd (hp.2.imp id And.left))

/-- A slot that is on and plans nothing: the bundle issues after its effect. -/
theorem SlotOp.run_issues (o : SlotOp) (s : State) (hc : s.Clear) (hp : s.predOn o.pred) (hplan : o.plan = id) (hlate : o.late = id)
    (hw : ∀ w ∈ o.allWaits (o.lookAt s.gathering), (o.lookAt s.gathering).holds w = true)
    (hf : o.firstFail (o.lookAt s.gathering) = none) (r : State)
    (hr : o.act (o.pops.foldl (State.popFeed o.slot) ((o.lookAt s.gathering).inPhase .commit)) = r)
    (ht : r.issue.transfer = none) (hl : r.issue.loop = none)
    (hi : r.ctx.sys.inHandler = true ∨ r.tile.acct.loops.all (fun e => decide (e.2 < 0xFFFFFF00)) = true)
    (hd : r.ctx.doneSlots = 0) (hpl : r.ctx.life.partLanded = false) :
    ∃ t, o.run s = t ∧ Issues r t none none [] := by
  have e0 : o.lookAt s.gathering = s.reads.withIssue (o.lookAt s.gathering).issue := by rw [SlotOp.lookAt_eq]; rfl
  have hrun := SlotOp.run_planned o s hc hp hw hf (o.lookAt s.gathering).issue (by rw [hplan]; exact e0)
    (by rw [SlotOp.lookAt_eq]; exact hp.1) (by rw [SlotOp.lookAt_eq]; rfl) (by rw [SlotOp.lookAt_eq]; rfl) (by rw [SlotOp.lookAt_eq]; rfl)
    (by rw [SlotOp.lookAt_eq]; rfl) (.inr (by
      rw [← e0]
      have hc6 := hc.2.2.2.2.2.2.2.2.2.1
      obtain ⟨_, _, _, q4, q5⟩ := SlotOp.lookAt_clear o s hc
      rw [State.nextPc, q4, q5, SlotOp.lookAt_eq]
      exact hc6))
  rw [← e0, hr] at hrun
  refine ⟨_, rfl, ?_⟩
  rw [hrun]
  have hla : o.lateAct (r.issued.inPhase .late) = r.issued.inPhase .late := by
    unfold SlotOp.lateAct; rw [hlate]; simp
  rw [hla]
  have := State.issued_issues r hi hd hpl
  rw [ht, hl] at this
  exact this

/-! ### From a slot to what completes -/

@[simp] theorem SlotOp.lookAt_ctx (o : SlotOp) (s : State) : (o.lookAt s).ctx = s.ctx := by rw [SlotOp.lookAt_eq]; rfl
@[simp] theorem SlotOp.lookAt_tile (o : SlotOp) (s : State) : (o.lookAt s).tile = s.tile := by rw [SlotOp.lookAt_eq]; rfl
@[simp] theorem State.gathering_ctx (s : State) : s.gathering.ctx = s.reads.ctx := rfl
@[simp] theorem State.gathering_tile (s : State) : s.gathering.tile = s.reads.tile := rfl
@[simp] theorem State.reads_regBad (s : State) : s.reads.ctx.regBad = s.ctx.regBad := by simp [State.reads, Context.landed]

/-- What Clear says of the state in which operands are read. -/
theorem State.Clear.quiet {s : State} (hc : s.Clear) :
    (s.reads.ctx.sys.inHandler = true ∨ s.reads.tile.acct.loops.all (fun e => decide (e.2 < 0xFFFFFF00)) = true)
      ∧ s.reads.ctx.doneSlots = 0 ∧ s.reads.ctx.life.partLanded = false := by
  obtain ⟨_, _, _, h1, h2, _, _, _, _, _, h3⟩ := hc
  refine ⟨?_, ?_, ?_⟩
  · simpa [State.reads, Context.landed, State.modCtx, State.setCtx, State.ctx] using h3
  · simpa [State.reads, Context.landed, Context.doneSlots] using h2
  · simpa [State.reads, Context.landed] using h1

/-- A slot that only writes a register, plans nothing and pops no feed: its result follows its latency. -/
theorem SlotOp.run_result (o : SlotOp) (s : State) (hc : s.Clear) (hp : s.predOn o.pred) (hplan : o.plan = id) (hlate : o.late = id)
    (hpops : o.pops = []) (hw : ∀ w ∈ o.allWaits (o.lookAt s.gathering), (o.lookAt s.gathering).holds w = true)
    (hf : o.firstFail (o.lookAt s.gathering) = none) (k : Nat) (l : Lat) (w : RegWrite) (p : Bool)
    (hact : o.act ((o.lookAt s.gathering).inPhase .commit) = ((o.lookAt s.gathering).inPhase .commit).pend k l w p) :
    ∃ t, o.run s = t ∧ Issues s.reads t none none [s.reads.result k l w p] := by
  obtain ⟨q1, q2, q3⟩ := hc.quiet
  have e0 : (o.lookAt s.gathering).inPhase .commit = s.reads.withIssue ((o.lookAt s.gathering).inPhase .commit).issue := by
    rw [SlotOp.lookAt_eq]; rfl
  obtain ⟨t, h1, h2⟩ := SlotOp.run_issues o s hc hp hplan hlate hw hf
    (((o.lookAt s.gathering).inPhase .commit).pend k l w p) (by rw [hpops]; exact hact)
    (by rw [SlotOp.lookAt_eq]; rfl) (by rw [SlotOp.lookAt_eq]; rfl)
    (by rw [e0]; simpa [State.pend, State.modCtx, State.setCtx, State.ctx] using q1)
    (by rw [e0]; simpa [State.pend, Context.doneSlots] using q2)
    (by rw [e0]; simpa [State.pend] using q3)
  refine ⟨t, h1, ?_⟩
  have h3 := Issues.of_pend h2
  have e1 : ((o.lookAt s.gathering).inPhase .commit).result k l w p = s.reads.result k l w p := by rw [e0]; rfl
  rw [e1] at h3
  exact h3.congr (by rw [e0]; rfl)

/-- An instruction whose meaning is a slot that only writes a register, waits for nothing and pops no feed completes. -/
theorem Completes.of_result (i : Instr) (o : SlotOp) (s : State) (hi : exec i s = .next (o.run s)) (hc : s.Clear) (hp : s.predOn o.pred)
    (hplan : o.plan = id) (hlate : o.late = id) (hpops : o.pops = []) (hgate : o.gated = false) (hwaits : o.waits = fun _ => [])
    (hf : o.firstFail (o.lookAt s.gathering) = none) (k : Nat) (l : Lat) (w : RegWrite) (q : Bool)
    (hact : o.act ((o.lookAt s.gathering).inPhase .commit) = ((o.lookAt s.gathering).inPhase .commit).pend k l w q) :
    Completes i s s.reads [s.reads.result k l w q] := by
  obtain ⟨t, h1, h2⟩ := SlotOp.run_result o s hc hp hplan hlate hpops
    (by intro w hw; simp [SlotOp.allWaits, hgate, hpops, hwaits] at hw) hf k l w q hact
  exact ⟨t, by rw [hi, h1], h2⟩

end Sys2Proof.Machine
end

