-- ==== Sys2Proof/Laws/Memory.lean ====
section
/-! SUPPORT. The memory laws: reading after writing, what a write leaves alone, and that every operation on a memory keeps its canonical
form; the memories of the machine after reset have it. -/

namespace Sys2Proof.Machine

/-! ### One byte -/

theorem Mem.wfFrom_mono {lo hi : Nat} {m : Mem} (h : Mem.wfFrom hi m = true) (hl : lo ≤ hi) : Mem.wfFrom lo m = true := by
  cases m with
  | nil => rfl
  | cons c r =>
    simp only [Mem.wfFrom, Bool.and_eq_true, decide_eq_true_eq] at h ⊢
    exact ⟨⟨Nat.le_trans hl h.1.1, h.1.2⟩, h.2⟩

/-- An address below every listed one reads as the unlisted byte. -/
theorem Mem.byteAt_below {lo a : Nat} {m : Mem} (h : Mem.wfFrom lo m = true) (ha : a < lo) : m.byteAt a = unlistedByte := by
  cases m with
  | nil => rfl
  | cons c r =>
    simp only [Mem.wfFrom, Bool.and_eq_true, decide_eq_true_eq] at h
    have h1 : a < c.1 := Nat.lt_of_lt_of_le ha h.1.1
    simp [Mem.byteAt, Nat.ne_of_lt h1, h1]

/-- A write of one byte keeps the canonical form. -/
theorem Mem.wfFrom_writeByte {lo a : Nat} {x : Byte} {m : Mem} (h : Mem.wfFrom lo m = true) (ha : lo ≤ a) :
    Mem.wfFrom lo (m.writeByte a x) = true := by
  induction m generalizing lo with
  | nil =>
    by_cases hx : x = unlistedByte
    · simp [Mem.writeByte, hx, Mem.wfFrom]
    · simp [Mem.writeByte, hx, Mem.wfFrom, ha]
  | cons c r ih =>
    simp only [Mem.wfFrom, Bool.and_eq_true, decide_eq_true_eq] at h
    obtain ⟨⟨h1, h2⟩, h3⟩ := h
    simp only [Mem.writeByte]
    split
    · split
      · simp [Mem.wfFrom, h1, h2, h3]
      · rename_i hlt hx
        simp [Mem.wfFrom, ha, hx, h2, h3, Nat.succ_le_of_lt hlt]
    · split
      · split
        · exact Mem.wfFrom_mono h3 (Nat.le_succ_of_le h1)
        · rename_i hlt he hx
          subst he
          simp [Mem.wfFrom, h1, hx, h3]
      · rename_i hlt he
        have : c.1 + 1 ≤ a := by omega
        simp [Mem.wfFrom, h1, h2, ih h3 this]

theorem Mem.wf_writeByte {m : Mem} (a : Nat) (x : Byte) (h : m.wf = true) : (m.writeByte a x).wf = true :=
  Mem.wfFrom_writeByte h (Nat.zero_le a)

/-- Reading after writing one byte: the address written reads as the byte, every other as before. -/
theorem Mem.byteAt_writeByte_from {lo : Nat} {m : Mem} (h : Mem.wfFrom lo m = true) (a b : Nat) (x : Byte) :
    (m.writeByte a x).byteAt b = if b = a then x else m.byteAt b := by
  induction m generalizing lo with
  | nil =>
    by_cases hx : x = unlistedByte <;> by_cases hb : b = a <;> simp [Mem.writeByte, Mem.byteAt, hx, hb]
  | cons c r ih =>
    simp only [Mem.wfFrom, Bool.and_eq_true, decide_eq_true_eq] at h
    obtain ⟨⟨h1, h2⟩, h3⟩ := h
    simp only [Mem.writeByte]
    split
    · rename_i hlt
      split
      · rename_i hx
        by_cases hb : b = a
        · subst hb; simp [Mem.byteAt, Nat.ne_of_lt hlt, hlt, hx]
        · simp [hb]
      · by_cases hb : b = a
        · simp [Mem.byteAt, hb]
        · by_cases hba : b < a
          · have : b < c.1 := Nat.lt_trans hba hlt
            simp [Mem.byteAt, hb, hba, Nat.ne_of_lt this, this]
          · simp [Mem.byteAt, hb, hba]
    · split
      · rename_i hlt he
        subst he
        split
        · rename_i hx
          by_cases hb : b = c.1
          · subst hb; simp [Mem.byteAt_below h3 (Nat.lt_succ_self _), hx]
          · by_cases hlt' : b < c.1
            · simp [Mem.byteAt, hb, hlt', Mem.byteAt_below h3 (Nat.lt_succ_of_lt hlt')]
            · simp [Mem.byteAt, hb, hlt']
        · by_cases hb : b = c.1 <;> simp [Mem.byteAt, hb]
      · rename_i hlt he
        by_cases hc : b = c.1
        · have : b ≠ a := fun e => he (e ▸ hc)
          simp [Mem.byteAt, hc, hc ▸ this]
        · by_cases hbc : b < c.1
          · have : b ≠ a := by omega
            simp [Mem.byteAt, hc, hbc, this]
          · simp [Mem.byteAt, hc, hbc, ih h3]

theorem Mem.byteAt_writeByte {m : Mem} (h : m.wf = true) (a b : Nat) (x : Byte) :
    (m.writeByte a x).byteAt b = if b = a then x else m.byteAt b := Mem.byteAt_writeByte_from h a b x

/-! ### Several bytes -/

theorem Mem.wf_writeNat {m : Mem} (a n v : Nat) (h : m.wf = true) : (m.writeNat a n v).wf = true := by
  induction n generalizing m a v with
  | zero => exact h
  | succ n ih => exact ih (a + 1) (v / 256) (Mem.wf_writeByte a _ h)

/-- Reading a byte after a write of n bytes: within them the byte of the number written, elsewhere as before. -/
theorem Mem.byteAt_writeNat {m : Mem} (h : m.wf = true) (a n v b : Nat) :
    (m.writeNat a n v).byteAt b = if a ≤ b ∧ b < a + n then BitVec.ofNat 8 (v / 256 ^ (b - a)) else m.byteAt b := by
  induction n generalizing m a v with
  | zero =>
    have : ¬(a ≤ b ∧ b < a) := by omega
    simp [Mem.writeNat, this]
  | succ n ih =>
    rw [Mem.writeNat, ih (Mem.wf_writeByte a _ h), Mem.byteAt_writeByte h]
    by_cases hb : b = a
    · have h1 : ¬(a + 1 ≤ b ∧ b < a + 1 + n) := by omega
      have h2 : a ≤ b ∧ b < a + (n + 1) := by omega
      rw [if_neg h1, if_pos hb, if_pos h2]
      simp [hb]
    · by_cases hr : a + 1 ≤ b ∧ b < a + 1 + n
      · have h2 : a ≤ b ∧ b < a + (n + 1) := by omega
        rw [if_pos hr, if_pos h2, Nat.div_div_eq_div_mul, show b - a = (b - (a + 1)) + 1 from by omega, Nat.pow_succ', Nat.mul_comm]
      · have h2 : ¬(a ≤ b ∧ b < a + (n + 1)) := by omega
        rw [if_neg hr, if_neg hb, if_neg h2]

/-- Entries taken out of a canonical memory leave a canonical memory. -/
theorem Mem.wfFrom_filter {lo : Nat} {m : Mem} (p : Host.Cell → Bool) (h : Mem.wfFrom lo m = true) : Mem.wfFrom lo (m.filter p) = true := by
  induction m generalizing lo with
  | nil => rfl
  | cons c r ih =>
    simp only [Mem.wfFrom, Bool.and_eq_true, decide_eq_true_eq] at h
    simp only [List.filter_cons]
    split
    · simp [Mem.wfFrom, h.1.1, h.1.2, ih h.2]
    · exact Mem.wfFrom_mono (ih h.2) (Nat.le_succ_of_le h.1.1)

theorem Mem.wf_filter {m : Mem} (p : Host.Cell → Bool) (h : m.wf = true) : Mem.wf (m.filter p) = true := Mem.wfFrom_filter p h

/-! ### Protected memories -/

@[simp] theorem Store.writeNat_cells (s : Store) (g a n v : Nat) : (s.writeNat g a n v).cells = s.cells.writeNat a n v := rfl
@[simp] theorem Store.spoil_cells (s : Store) (k : Nat) : (s.spoil k).cells = s.cells := rfl

theorem Store.wf_writeNat {s : Store} (g a n v : Nat) (h : s.cells.wf = true) : (s.writeNat g a n v).cells.wf = true :=
  Mem.wf_writeNat a n v h

theorem Store.wf_zero {s : Store} (g a n : Nat) (h : s.cells.wf = true) : (s.zero g a n).cells.wf = true := Mem.wf_filter _ h

theorem Store.wf_spoil {s : Store} (k : Nat) (h : s.cells.wf = true) : (s.spoil k).cells.wf = true := h

/-! ### The memories of a tile -/

theorem TileMem.wf_iff (m : TileMem) : m.wf = true ↔ m.spad.cells.wf = true ∧ m.acc.cells.wf = true ∧ m.wst.cells.wf = true := by
  simp [TileMem.wf, and_assoc]

theorem Tile.wf_store {t : Tile} (sp : Space) (h : t.mem.wf = true) : (t.store sp).cells.wf = true := by
  have h := (TileMem.wf_iff _).1 h
  cases sp
  · exact h.1
  · exact h.2.1
  · exact h.2.2

/-- A memory of a tile replaced by a canonical one. -/
theorem Tile.wf_setStore {t : Tile} (sp : Space) {m : Store} (h : t.mem.wf = true) (hm : m.cells.wf = true) : (t.setStore sp m).mem.wf = true := by
  have h := (TileMem.wf_iff _).1 h
  cases sp
  · exact (TileMem.wf_iff _).2 ⟨hm, h.2.1, h.2.2⟩
  · exact (TileMem.wf_iff _).2 ⟨h.1, hm, h.2.2⟩
  · exact (TileMem.wf_iff _).2 ⟨h.1, h.2.1, hm⟩

@[simp] theorem Tile.store_setStore (t : Tile) (sp : Space) (m : Store) : (t.setStore sp m).store sp = m := by cases sp <;> rfl

theorem Tile.store_setStore_ne (t : Tile) {sp sq : Space} (m : Store) (h : sq ≠ sp) : (t.setStore sp m).store sq = t.store sq := by
  cases sp <;> cases sq <;> first | rfl | exact absurd rfl h

/-- A write to a memory of a tile keeps the canonical form of all three. -/
theorem Tile.wf_write {t : Tile} (sp : Space) (a n v : Nat) (h : t.mem.wf = true) : (t.write sp a n v).mem.wf = true :=
  Tile.wf_setStore sp h (Store.wf_writeNat _ a n v (Tile.wf_store sp h))

theorem Tile.wf_accUpdate {t : Tile} (a : Nat) (f : Nat → Nat) (h : t.mem.wf = true) : (t.accUpdate a f).mem.wf = true :=
  Tile.wf_write _ _ _ _ h

theorem Tile.wf_zeroUnit {t : Tile} (u : Nat) (h : t.mem.wf = true) : (t.zeroUnit u).mem.wf = true := by
  unfold Tile.zeroUnit
  split
  · exact Tile.wf_setStore _ h (Store.wf_zero _ _ _ (Tile.wf_store _ h))
  · have w : (t.setStore .acc ((t.store .acc).zero Space.acc.word ((u - 16) * 4096) 4096)).mem.wf = true :=
      Tile.wf_setStore .acc h (Store.wf_zero _ _ _ (Tile.wf_store .acc h))
    exact w

/-- A byte of a memory after a write: within the bytes written those of the number, elsewhere, and in the other memories, as before. -/
theorem Tile.byte_write {t : Tile} (h : t.mem.wf = true) (sp sq : Space) (a n v b : Nat) :
    ((t.write sp a n v).store sq).cells.byteAt b
      = if sq = sp ∧ a ≤ b ∧ b < a + n then BitVec.ofNat 8 (v / 256 ^ (b - a)) else (t.store sq).cells.byteAt b := by
  by_cases hs : sq = sp
  · subst hs
    simp [Tile.write, Mem.byteAt_writeNat (Tile.wf_store sq h)]
  · simp [Tile.write, hs, Tile.store_setStore_ne t _ hs]

/-! ### The machine after reset -/

theorem State.reset_memWf : State.reset.memWf = true := rfl

end Sys2Proof.Machine
end

