-- ==== Sys2Proof/Laws/State.lean ====
section
/-! SUPPORT. What each named update of the state leaves in each field: one lemma per field per update, and reading back what an update of one
context, reticle, queue or port has written. -/

namespace Sys2Proof.Machine

/-! ### State.modTile -/

@[simp] theorem State.modTile_tile (s : State) (f : Tile → Tile) : (s.modTile f).tile = f s.tile := rfl
@[simp] theorem State.modTile_others (s : State) (f : Tile → Tile) : (s.modTile f).others = s.others := rfl
@[simp] theorem State.modTile_tag (s : State) (f : Tile → Tile) : (s.modTile f).tag = s.tag := rfl
@[simp] theorem State.modTile_issue (s : State) (f : Tile → Tile) : (s.modTile f).issue = s.issue := rfl
@[simp] theorem State.modTile_wafer (s : State) (f : Tile → Tile) : (s.modTile f).wafer = s.wafer := rfl
@[simp] theorem State.modTile_now (s : State) (f : Tile → Tile) : (s.modTile f).now = s.now := rfl
@[simp] theorem State.modTile_agenda (s : State) (f : Tile → Tile) : (s.modTile f).agenda = s.agenda := rfl
@[simp] theorem State.modTile_timers (s : State) (f : Tile → Tile) : (s.modTile f).timers = s.timers := rfl
@[simp] theorem State.modTile_fresh (s : State) (f : Tile → Tile) : (s.modTile f).fresh = s.fresh := rfl

/-! ### State.modCore -/

@[simp] theorem State.modCore_tile (s : State) (f : Core → Core) : (s.modCore f).tile = { s.tile with core := f s.tile.core } := rfl
@[simp] theorem State.modCore_others (s : State) (f : Core → Core) : (s.modCore f).others = s.others := rfl
@[simp] theorem State.modCore_tag (s : State) (f : Core → Core) : (s.modCore f).tag = s.tag := rfl
@[simp] theorem State.modCore_issue (s : State) (f : Core → Core) : (s.modCore f).issue = s.issue := rfl
@[simp] theorem State.modCore_wafer (s : State) (f : Core → Core) : (s.modCore f).wafer = s.wafer := rfl
@[simp] theorem State.modCore_now (s : State) (f : Core → Core) : (s.modCore f).now = s.now := rfl
@[simp] theorem State.modCore_agenda (s : State) (f : Core → Core) : (s.modCore f).agenda = s.agenda := rfl
@[simp] theorem State.modCore_timers (s : State) (f : Core → Core) : (s.modCore f).timers = s.timers := rfl
@[simp] theorem State.modCore_fresh (s : State) (f : Core → Core) : (s.modCore f).fresh = s.fresh := rfl

/-! ### State.setCtx -/

@[simp] theorem State.setCtx_tile (s : State) (c : Context) : (s.setCtx c).tile = { s.tile with ctxs := s.tile.ctxs.set s.tag.val c s.tag.isLt } := rfl
@[simp] theorem State.setCtx_others (s : State) (c : Context) : (s.setCtx c).others = s.others := rfl
@[simp] theorem State.setCtx_tag (s : State) (c : Context) : (s.setCtx c).tag = s.tag := rfl
@[simp] theorem State.setCtx_issue (s : State) (c : Context) : (s.setCtx c).issue = s.issue := rfl
@[simp] theorem State.setCtx_wafer (s : State) (c : Context) : (s.setCtx c).wafer = s.wafer := rfl
@[simp] theorem State.setCtx_now (s : State) (c : Context) : (s.setCtx c).now = s.now := rfl
@[simp] theorem State.setCtx_agenda (s : State) (c : Context) : (s.setCtx c).agenda = s.agenda := rfl
@[simp] theorem State.setCtx_timers (s : State) (c : Context) : (s.setCtx c).timers = s.timers := rfl
@[simp] theorem State.setCtx_fresh (s : State) (c : Context) : (s.setCtx c).fresh = s.fresh := rfl

/-! ### State.modCtx -/

@[simp] theorem State.modCtx_tile (s : State) (f : Context → Context) : (s.modCtx f).tile = s.tile.modCtx s.tag f := rfl
@[simp] theorem State.modCtx_others (s : State) (f : Context → Context) : (s.modCtx f).others = s.others := rfl
@[simp] theorem State.modCtx_tag (s : State) (f : Context → Context) : (s.modCtx f).tag = s.tag := rfl
@[simp] theorem State.modCtx_issue (s : State) (f : Context → Context) : (s.modCtx f).issue = s.issue := rfl
@[simp] theorem State.modCtx_wafer (s : State) (f : Context → Context) : (s.modCtx f).wafer = s.wafer := rfl
@[simp] theorem State.modCtx_now (s : State) (f : Context → Context) : (s.modCtx f).now = s.now := rfl
@[simp] theorem State.modCtx_agenda (s : State) (f : Context → Context) : (s.modCtx f).agenda = s.agenda := rfl
@[simp] theorem State.modCtx_timers (s : State) (f : Context → Context) : (s.modCtx f).timers = s.timers := rfl
@[simp] theorem State.modCtx_fresh (s : State) (f : Context → Context) : (s.modCtx f).fresh = s.fresh := rfl

/-! ### State.modWafer -/

@[simp] theorem State.modWafer_tile (s : State) (f : Wafer → Wafer) : (s.modWafer f).tile = s.tile := rfl
@[simp] theorem State.modWafer_others (s : State) (f : Wafer → Wafer) : (s.modWafer f).others = s.others := rfl
@[simp] theorem State.modWafer_tag (s : State) (f : Wafer → Wafer) : (s.modWafer f).tag = s.tag := rfl
@[simp] theorem State.modWafer_issue (s : State) (f : Wafer → Wafer) : (s.modWafer f).issue = s.issue := rfl
@[simp] theorem State.modWafer_wafer (s : State) (f : Wafer → Wafer) : (s.modWafer f).wafer = f s.wafer := rfl
@[simp] theorem State.modWafer_now (s : State) (f : Wafer → Wafer) : (s.modWafer f).now = s.now := rfl
@[simp] theorem State.modWafer_agenda (s : State) (f : Wafer → Wafer) : (s.modWafer f).agenda = s.agenda := rfl
@[simp] theorem State.modWafer_timers (s : State) (f : Wafer → Wafer) : (s.modWafer f).timers = s.timers := rfl
@[simp] theorem State.modWafer_fresh (s : State) (f : Wafer → Wafer) : (s.modWafer f).fresh = s.fresh := rfl

/-! ### State.focusTag -/

@[simp] theorem State.focusTag_tile (s : State) (k : Tag) : (s.focusTag k).tile = s.tile := rfl
@[simp] theorem State.focusTag_others (s : State) (k : Tag) : (s.focusTag k).others = s.others := rfl
@[simp] theorem State.focusTag_tag (s : State) (k : Tag) : (s.focusTag k).tag = k := rfl
@[simp] theorem State.focusTag_issue (s : State) (k : Tag) : (s.focusTag k).issue = s.issue := rfl
@[simp] theorem State.focusTag_wafer (s : State) (k : Tag) : (s.focusTag k).wafer = s.wafer := rfl
@[simp] theorem State.focusTag_now (s : State) (k : Tag) : (s.focusTag k).now = s.now := rfl
@[simp] theorem State.focusTag_agenda (s : State) (k : Tag) : (s.focusTag k).agenda = s.agenda := rfl
@[simp] theorem State.focusTag_timers (s : State) (k : Tag) : (s.focusTag k).timers = s.timers := rfl
@[simp] theorem State.focusTag_fresh (s : State) (k : Tag) : (s.focusTag k).fresh = s.fresh := rfl

/-! ### State.mapTiles -/

@[simp] theorem State.mapTiles_tile (s : State) (f : Tile → Tile) : (s.mapTiles f).tile = f s.tile := rfl
@[simp] theorem State.mapTiles_others (s : State) (f : Tile → Tile) : (s.mapTiles f).others = s.others.map f := rfl
@[simp] theorem State.mapTiles_tag (s : State) (f : Tile → Tile) : (s.mapTiles f).tag = s.tag := rfl
@[simp] theorem State.mapTiles_issue (s : State) (f : Tile → Tile) : (s.mapTiles f).issue = s.issue := rfl
@[simp] theorem State.mapTiles_wafer (s : State) (f : Tile → Tile) : (s.mapTiles f).wafer = s.wafer := rfl
@[simp] theorem State.mapTiles_now (s : State) (f : Tile → Tile) : (s.mapTiles f).now = s.now := rfl
@[simp] theorem State.mapTiles_agenda (s : State) (f : Tile → Tile) : (s.mapTiles f).agenda = s.agenda := rfl
@[simp] theorem State.mapTiles_timers (s : State) (f : Tile → Tile) : (s.mapTiles f).timers = s.timers := rfl
@[simp] theorem State.mapTiles_fresh (s : State) (f : Tile → Tile) : (s.mapTiles f).fresh = s.fresh := rfl

/-! ### State.timer -/

@[simp] theorem State.timer_tile (s : State) (d : Nat) (a : Auto) : (s.timer d a).tile = s.tile := rfl
@[simp] theorem State.timer_others (s : State) (d : Nat) (a : Auto) : (s.timer d a).others = s.others := rfl
@[simp] theorem State.timer_tag (s : State) (d : Nat) (a : Auto) : (s.timer d a).tag = s.tag := rfl
@[simp] theorem State.timer_issue (s : State) (d : Nat) (a : Auto) : (s.timer d a).issue = s.issue := rfl
@[simp] theorem State.timer_wafer (s : State) (d : Nat) (a : Auto) : (s.timer d a).wafer = s.wafer := rfl
@[simp] theorem State.timer_now (s : State) (d : Nat) (a : Auto) : (s.timer d a).now = s.now := rfl
@[simp] theorem State.timer_agenda (s : State) (d : Nat) (a : Auto) : (s.timer d a).agenda = s.agenda := rfl
@[simp] theorem State.timer_timers (s : State) (d : Nat) (a : Auto) : (s.timer d a).timers = s.timers ++ [(d, a)] := rfl
@[simp] theorem State.timer_fresh (s : State) (d : Nat) (a : Auto) : (s.timer d a).fresh = s.fresh := rfl

/-! ### State.modReticle -/

@[simp] theorem State.modReticle_tile (s : State) (r : ReticleId) (f : Reticle → Reticle) : (s.modReticle r f).tile = s.tile := rfl
@[simp] theorem State.modReticle_others (s : State) (r : ReticleId) (f : Reticle → Reticle) : (s.modReticle r f).others = s.others := rfl
@[simp] theorem State.modReticle_tag (s : State) (r : ReticleId) (f : Reticle → Reticle) : (s.modReticle r f).tag = s.tag := rfl
@[simp] theorem State.modReticle_issue (s : State) (r : ReticleId) (f : Reticle → Reticle) : (s.modReticle r f).issue = s.issue := rfl
@[simp] theorem State.modReticle_now (s : State) (r : ReticleId) (f : Reticle → Reticle) : (s.modReticle r f).now = s.now := rfl
@[simp] theorem State.modReticle_agenda (s : State) (r : ReticleId) (f : Reticle → Reticle) : (s.modReticle r f).agenda = s.agenda := rfl
@[simp] theorem State.modReticle_timers (s : State) (r : ReticleId) (f : Reticle → Reticle) : (s.modReticle r f).timers = s.timers := rfl
@[simp] theorem State.modReticle_fresh (s : State) (r : ReticleId) (f : Reticle → Reticle) : (s.modReticle r f).fresh = s.fresh := rfl

/-! ### State.modPower -/

@[simp] theorem State.modPower_tile (s : State) (r : ReticleId) (f : RetPower → RetPower) : (s.modPower r f).tile = s.tile := rfl
@[simp] theorem State.modPower_others (s : State) (r : ReticleId) (f : RetPower → RetPower) : (s.modPower r f).others = s.others := rfl
@[simp] theorem State.modPower_tag (s : State) (r : ReticleId) (f : RetPower → RetPower) : (s.modPower r f).tag = s.tag := rfl
@[simp] theorem State.modPower_issue (s : State) (r : ReticleId) (f : RetPower → RetPower) : (s.modPower r f).issue = s.issue := rfl
@[simp] theorem State.modPower_now (s : State) (r : ReticleId) (f : RetPower → RetPower) : (s.modPower r f).now = s.now := rfl
@[simp] theorem State.modPower_agenda (s : State) (r : ReticleId) (f : RetPower → RetPower) : (s.modPower r f).agenda = s.agenda := rfl
@[simp] theorem State.modPower_timers (s : State) (r : ReticleId) (f : RetPower → RetPower) : (s.modPower r f).timers = s.timers := rfl
@[simp] theorem State.modPower_fresh (s : State) (r : ReticleId) (f : RetPower → RetPower) : (s.modPower r f).fresh = s.fresh := rfl

/-! ### State.modCruise -/

@[simp] theorem State.modCruise_tile (s : State) (f : Cruise → Cruise) : (s.modCruise f).tile = s.tile := rfl
@[simp] theorem State.modCruise_others (s : State) (f : Cruise → Cruise) : (s.modCruise f).others = s.others := rfl
@[simp] theorem State.modCruise_tag (s : State) (f : Cruise → Cruise) : (s.modCruise f).tag = s.tag := rfl
@[simp] theorem State.modCruise_issue (s : State) (f : Cruise → Cruise) : (s.modCruise f).issue = s.issue := rfl
@[simp] theorem State.modCruise_wafer (s : State) (f : Cruise → Cruise) : (s.modCruise f).wafer = { s.wafer with cruise := f s.wafer.cruise } := rfl
@[simp] theorem State.modCruise_now (s : State) (f : Cruise → Cruise) : (s.modCruise f).now = s.now := rfl
@[simp] theorem State.modCruise_agenda (s : State) (f : Cruise → Cruise) : (s.modCruise f).agenda = s.agenda := rfl
@[simp] theorem State.modCruise_timers (s : State) (f : Cruise → Cruise) : (s.modCruise f).timers = s.timers := rfl
@[simp] theorem State.modCruise_fresh (s : State) (f : Cruise → Cruise) : (s.modCruise f).fresh = s.fresh := rfl

/-! ### State.cruiseTimer -/

@[simp] theorem State.cruiseTimer_tile (s : State) (d : Nat) (a : Auto) : (s.cruiseTimer d a).tile = s.tile := rfl
@[simp] theorem State.cruiseTimer_others (s : State) (d : Nat) (a : Auto) : (s.cruiseTimer d a).others = s.others := rfl
@[simp] theorem State.cruiseTimer_tag (s : State) (d : Nat) (a : Auto) : (s.cruiseTimer d a).tag = s.tag := rfl
@[simp] theorem State.cruiseTimer_issue (s : State) (d : Nat) (a : Auto) : (s.cruiseTimer d a).issue = s.issue := rfl
@[simp] theorem State.cruiseTimer_now (s : State) (d : Nat) (a : Auto) : (s.cruiseTimer d a).now = s.now := rfl
@[simp] theorem State.cruiseTimer_agenda (s : State) (d : Nat) (a : Auto) : (s.cruiseTimer d a).agenda = s.agenda := rfl
@[simp] theorem State.cruiseTimer_timers (s : State) (d : Nat) (a : Auto) : (s.cruiseTimer d a).timers = s.timers := rfl
@[simp] theorem State.cruiseTimer_fresh (s : State) (d : Nat) (a : Auto) : (s.cruiseTimer d a).fresh = s.fresh := rfl

/-! ### State.modQueue -/

@[simp] theorem State.modQueue_tile (s : State) (q : QueueId) (f : LaunchQueue → LaunchQueue) : (s.modQueue q f).tile = s.tile := rfl
@[simp] theorem State.modQueue_others (s : State) (q : QueueId) (f : LaunchQueue → LaunchQueue) : (s.modQueue q f).others = s.others := rfl
@[simp] theorem State.modQueue_tag (s : State) (q : QueueId) (f : LaunchQueue → LaunchQueue) : (s.modQueue q f).tag = s.tag := rfl
@[simp] theorem State.modQueue_issue (s : State) (q : QueueId) (f : LaunchQueue → LaunchQueue) : (s.modQueue q f).issue = s.issue := rfl
@[simp] theorem State.modQueue_wafer (s : State) (q : QueueId) (f : LaunchQueue → LaunchQueue) : (s.modQueue q f).wafer = s.wafer.modQueue q f := rfl
@[simp] theorem State.modQueue_now (s : State) (q : QueueId) (f : LaunchQueue → LaunchQueue) : (s.modQueue q f).now = s.now := rfl
@[simp] theorem State.modQueue_agenda (s : State) (q : QueueId) (f : LaunchQueue → LaunchQueue) : (s.modQueue q f).agenda = s.agenda := rfl
@[simp] theorem State.modQueue_timers (s : State) (q : QueueId) (f : LaunchQueue → LaunchQueue) : (s.modQueue q f).timers = s.timers := rfl
@[simp] theorem State.modQueue_fresh (s : State) (q : QueueId) (f : LaunchQueue → LaunchQueue) : (s.modQueue q f).fresh = s.fresh := rfl

/-! ### State.modPort -/

@[simp] theorem State.modPort_tile (s : State) (p : PortId) (f : Port → Port) : (s.modPort p f).tile = s.tile := rfl
@[simp] theorem State.modPort_others (s : State) (p : PortId) (f : Port → Port) : (s.modPort p f).others = s.others := rfl
@[simp] theorem State.modPort_tag (s : State) (p : PortId) (f : Port → Port) : (s.modPort p f).tag = s.tag := rfl
@[simp] theorem State.modPort_issue (s : State) (p : PortId) (f : Port → Port) : (s.modPort p f).issue = s.issue := rfl
@[simp] theorem State.modPort_wafer (s : State) (p : PortId) (f : Port → Port) : (s.modPort p f).wafer = s.wafer.modPort p f := rfl
@[simp] theorem State.modPort_now (s : State) (p : PortId) (f : Port → Port) : (s.modPort p f).now = s.now := rfl
@[simp] theorem State.modPort_agenda (s : State) (p : PortId) (f : Port → Port) : (s.modPort p f).agenda = s.agenda := rfl
@[simp] theorem State.modPort_timers (s : State) (p : PortId) (f : Port → Port) : (s.modPort p f).timers = s.timers := rfl
@[simp] theorem State.modPort_fresh (s : State) (p : PortId) (f : Port → Port) : (s.modPort p f).fresh = s.fresh := rfl

/-! ### State.hostEvent -/

@[simp] theorem State.hostEvent_tile (s : State) (c : BitVec 8) : (s.hostEvent c).tile = s.tile := rfl
@[simp] theorem State.hostEvent_others (s : State) (c : BitVec 8) : (s.hostEvent c).others = s.others := rfl
@[simp] theorem State.hostEvent_tag (s : State) (c : BitVec 8) : (s.hostEvent c).tag = s.tag := rfl
@[simp] theorem State.hostEvent_issue (s : State) (c : BitVec 8) : (s.hostEvent c).issue = s.issue := rfl
@[simp] theorem State.hostEvent_wafer (s : State) (c : BitVec 8) : (s.hostEvent c).wafer = s.wafer.hostEvent c := rfl
@[simp] theorem State.hostEvent_now (s : State) (c : BitVec 8) : (s.hostEvent c).now = s.now := rfl
@[simp] theorem State.hostEvent_agenda (s : State) (c : BitVec 8) : (s.hostEvent c).agenda = s.agenda := rfl
@[simp] theorem State.hostEvent_timers (s : State) (c : BitVec 8) : (s.hostEvent c).timers = s.timers := rfl
@[simp] theorem State.hostEvent_fresh (s : State) (c : BitVec 8) : (s.hostEvent c).fresh = s.fresh := rfl

/-! ### State.hostRead -/

@[simp] theorem State.hostRead_tile (s : State) (v : BitVec 64) : (s.hostRead v).tile = s.tile := rfl
@[simp] theorem State.hostRead_others (s : State) (v : BitVec 64) : (s.hostRead v).others = s.others := rfl
@[simp] theorem State.hostRead_tag (s : State) (v : BitVec 64) : (s.hostRead v).tag = s.tag := rfl
@[simp] theorem State.hostRead_issue (s : State) (v : BitVec 64) : (s.hostRead v).issue = s.issue := rfl
@[simp] theorem State.hostRead_now (s : State) (v : BitVec 64) : (s.hostRead v).now = s.now := rfl
@[simp] theorem State.hostRead_agenda (s : State) (v : BitVec 64) : (s.hostRead v).agenda = s.agenda := rfl
@[simp] theorem State.hostRead_timers (s : State) (v : BitVec 64) : (s.hostRead v).timers = s.timers := rfl
@[simp] theorem State.hostRead_fresh (s : State) (v : BitVec 64) : (s.hostRead v).fresh = s.fresh := rfl

/-! ### State.dropMsg -/

@[simp] theorem State.dropMsg_tile (s : State) (n : Nat) : (s.dropMsg n).tile = s.tile := rfl
@[simp] theorem State.dropMsg_others (s : State) (n : Nat) : (s.dropMsg n).others = s.others := rfl
@[simp] theorem State.dropMsg_tag (s : State) (n : Nat) : (s.dropMsg n).tag = s.tag := rfl
@[simp] theorem State.dropMsg_issue (s : State) (n : Nat) : (s.dropMsg n).issue = s.issue := rfl
@[simp] theorem State.dropMsg_now (s : State) (n : Nat) : (s.dropMsg n).now = s.now := rfl
@[simp] theorem State.dropMsg_agenda (s : State) (n : Nat) : (s.dropMsg n).agenda = s.agenda := rfl
@[simp] theorem State.dropMsg_timers (s : State) (n : Nat) : (s.dropMsg n).timers = s.timers := rfl
@[simp] theorem State.dropMsg_fresh (s : State) (n : Nat) : (s.dropMsg n).fresh = s.fresh := rfl

/-! ### State.modMsg -/

@[simp] theorem State.modMsg_tile (s : State) (n : Nat) (f : Msg → Msg) : (s.modMsg n f).tile = s.tile := rfl
@[simp] theorem State.modMsg_others (s : State) (n : Nat) (f : Msg → Msg) : (s.modMsg n f).others = s.others := rfl
@[simp] theorem State.modMsg_tag (s : State) (n : Nat) (f : Msg → Msg) : (s.modMsg n f).tag = s.tag := rfl
@[simp] theorem State.modMsg_issue (s : State) (n : Nat) (f : Msg → Msg) : (s.modMsg n f).issue = s.issue := rfl
@[simp] theorem State.modMsg_now (s : State) (n : Nat) (f : Msg → Msg) : (s.modMsg n f).now = s.now := rfl
@[simp] theorem State.modMsg_agenda (s : State) (n : Nat) (f : Msg → Msg) : (s.modMsg n f).agenda = s.agenda := rfl
@[simp] theorem State.modMsg_timers (s : State) (n : Nat) (f : Msg → Msg) : (s.modMsg n f).timers = s.timers := rfl
@[simp] theorem State.modMsg_fresh (s : State) (n : Nat) (f : Msg → Msg) : (s.modMsg n f).fresh = s.fresh := rfl

/-! ### State.modMove -/

@[simp] theorem State.modMove_tile (s : State) (f : Migration → Migration) : (s.modMove f).tile = s.tile := rfl
@[simp] theorem State.modMove_others (s : State) (f : Migration → Migration) : (s.modMove f).others = s.others := rfl
@[simp] theorem State.modMove_tag (s : State) (f : Migration → Migration) : (s.modMove f).tag = s.tag := rfl
@[simp] theorem State.modMove_issue (s : State) (f : Migration → Migration) : (s.modMove f).issue = s.issue := rfl
@[simp] theorem State.modMove_now (s : State) (f : Migration → Migration) : (s.modMove f).now = s.now := rfl
@[simp] theorem State.modMove_agenda (s : State) (f : Migration → Migration) : (s.modMove f).agenda = s.agenda := rfl
@[simp] theorem State.modMove_timers (s : State) (f : Migration → Migration) : (s.modMove f).timers = s.timers := rfl
@[simp] theorem State.modMove_fresh (s : State) (f : Migration → Migration) : (s.modMove f).fresh = s.fresh := rfl

/-! ### State.modMx -/

@[simp] theorem State.modMx_tile (s : State) (f : MatrixRun → MatrixRun) : (s.modMx f).tile = s.tile.modMx f := rfl
@[simp] theorem State.modMx_others (s : State) (f : MatrixRun → MatrixRun) : (s.modMx f).others = s.others := rfl
@[simp] theorem State.modMx_tag (s : State) (f : MatrixRun → MatrixRun) : (s.modMx f).tag = s.tag := rfl
@[simp] theorem State.modMx_issue (s : State) (f : MatrixRun → MatrixRun) : (s.modMx f).issue = s.issue := rfl
@[simp] theorem State.modMx_wafer (s : State) (f : MatrixRun → MatrixRun) : (s.modMx f).wafer = s.wafer := rfl
@[simp] theorem State.modMx_now (s : State) (f : MatrixRun → MatrixRun) : (s.modMx f).now = s.now := rfl
@[simp] theorem State.modMx_agenda (s : State) (f : MatrixRun → MatrixRun) : (s.modMx f).agenda = s.agenda := rfl
@[simp] theorem State.modMx_timers (s : State) (f : MatrixRun → MatrixRun) : (s.modMx f).timers = s.timers := rfl
@[simp] theorem State.modMx_fresh (s : State) (f : MatrixRun → MatrixRun) : (s.modMx f).fresh = s.fresh := rfl

/-! ### State.modBars -/

@[simp] theorem State.modBars_others (s : State) (f : BarStore → BarStore) : (s.modBars f).others = s.others := rfl
@[simp] theorem State.modBars_tag (s : State) (f : BarStore → BarStore) : (s.modBars f).tag = s.tag := rfl
@[simp] theorem State.modBars_issue (s : State) (f : BarStore → BarStore) : (s.modBars f).issue = s.issue := rfl
@[simp] theorem State.modBars_wafer (s : State) (f : BarStore → BarStore) : (s.modBars f).wafer = s.wafer := rfl
@[simp] theorem State.modBars_now (s : State) (f : BarStore → BarStore) : (s.modBars f).now = s.now := rfl
@[simp] theorem State.modBars_agenda (s : State) (f : BarStore → BarStore) : (s.modBars f).agenda = s.agenda := rfl
@[simp] theorem State.modBars_timers (s : State) (f : BarStore → BarStore) : (s.modBars f).timers = s.timers := rfl
@[simp] theorem State.modBars_fresh (s : State) (f : BarStore → BarStore) : (s.modBars f).fresh = s.fresh := rfl

/-! ### State.atEnd -/

@[simp] theorem State.atEnd_others (s : State) (a : EndAct) : (s.atEnd a).others = s.others := rfl
@[simp] theorem State.atEnd_tag (s : State) (a : EndAct) : (s.atEnd a).tag = s.tag := rfl
@[simp] theorem State.atEnd_issue (s : State) (a : EndAct) : (s.atEnd a).issue = s.issue := rfl
@[simp] theorem State.atEnd_wafer (s : State) (a : EndAct) : (s.atEnd a).wafer = s.wafer := rfl
@[simp] theorem State.atEnd_now (s : State) (a : EndAct) : (s.atEnd a).now = s.now := rfl
@[simp] theorem State.atEnd_agenda (s : State) (a : EndAct) : (s.atEnd a).agenda = s.agenda := rfl
@[simp] theorem State.atEnd_timers (s : State) (a : EndAct) : (s.atEnd a).timers = s.timers := rfl
@[simp] theorem State.atEnd_fresh (s : State) (a : EndAct) : (s.atEnd a).fresh = s.fresh := rfl

/-! ### State.clearIssue -/

@[simp] theorem State.clearIssue_tile (s : State) : (s.clearIssue).tile = s.tile := rfl
@[simp] theorem State.clearIssue_others (s : State) : (s.clearIssue).others = s.others := rfl
@[simp] theorem State.clearIssue_tag (s : State) : (s.clearIssue).tag = s.tag := rfl
@[simp] theorem State.clearIssue_issue (s : State) : (s.clearIssue).issue = {} := rfl
@[simp] theorem State.clearIssue_wafer (s : State) : (s.clearIssue).wafer = s.wafer := rfl
@[simp] theorem State.clearIssue_now (s : State) : (s.clearIssue).now = s.now := rfl
@[simp] theorem State.clearIssue_agenda (s : State) : (s.clearIssue).agenda = s.agenda := rfl
@[simp] theorem State.clearIssue_timers (s : State) : (s.clearIssue).timers = s.timers := rfl
@[simp] theorem State.clearIssue_fresh (s : State) : (s.clearIssue).fresh = s.fresh := rfl

/-! ### Tile.modCtx -/

@[simp] theorem Tile.modCtx_at (t : Tile) (k : Tag) (f : Context → Context) : (t.modCtx k f).at' = t.at' := rfl
@[simp] theorem Tile.modCtx_life (t : Tile) (k : Tag) (f : Context → Context) : (t.modCtx k f).life = t.life := rfl
@[simp] theorem Tile.modCtx_mem (t : Tile) (k : Tag) (f : Context → Context) : (t.modCtx k f).mem = t.mem := rfl
@[simp] theorem Tile.modCtx_core (t : Tile) (k : Tag) (f : Context → Context) : (t.modCtx k f).core = t.core := rfl
@[simp] theorem Tile.modCtx_mx (t : Tile) (k : Tag) (f : Context → Context) : (t.modCtx k f).mx = t.mx := rfl
@[simp] theorem Tile.modCtx_row (t : Tile) (k : Tag) (f : Context → Context) : (t.modCtx k f).row = t.row := rfl
@[simp] theorem Tile.modCtx_cpy (t : Tile) (k : Tag) (f : Context → Context) : (t.modCtx k f).cpy = t.cpy := rfl
@[simp] theorem Tile.modCtx_pushes (t : Tile) (k : Tag) (f : Context → Context) : (t.modCtx k f).pushes = t.pushes := rfl
@[simp] theorem Tile.modCtx_netq (t : Tile) (k : Tag) (f : Context → Context) : (t.modCtx k f).netq = t.netq := rfl
@[simp] theorem Tile.modCtx_acct (t : Tile) (k : Tag) (f : Context → Context) : (t.modCtx k f).acct = t.acct := rfl
@[simp] theorem Tile.modCtx_kernels (t : Tile) (k : Tag) (f : Context → Context) : (t.modCtx k f).kernels = t.kernels := rfl
@[simp] theorem Tile.modCtx_stores (t : Tile) (k : Tag) (f : Context → Context) : (t.modCtx k f).stores = t.stores := rfl
@[simp] theorem Tile.modCtx_dbg (t : Tile) (k : Tag) (f : Context → Context) : (t.modCtx k f).dbg = t.dbg := rfl

/-! ### Reading back -/

@[simp] theorem Tile.ctx_modCtx (t : Tile) (k : Tag) (f : Context → Context) : (t.modCtx k f).ctx k = f (t.ctx k) := by
  simp [Tile.modCtx, Tile.ctx]

theorem Tile.ctx_modCtx_ne (t : Tile) {j k : Tag} (f : Context → Context) (h : j ≠ k) : (t.modCtx k f).ctx j = t.ctx j := by
  have : k.val ≠ j.val := fun e => h (Fin.ext e.symm)
  simp [Tile.modCtx, Tile.ctx, this]

@[simp] theorem State.ret_modReticle (s : State) (r : ReticleId) (f : Reticle → Reticle) : (s.modReticle r f).ret r = f (s.ret r) := by
  simp [State.modReticle, State.ret, State.modWafer]

theorem State.ret_modReticle_ne (s : State) {q r : ReticleId} (f : Reticle → Reticle) (h : q ≠ r) : (s.modReticle r f).ret q = s.ret q := by
  have : r.val ≠ q.val := fun e => h (Fin.ext e.symm)
  simp [State.modReticle, State.ret, State.modWafer, this]

@[simp] theorem State.queue_modQueue (s : State) (q : QueueId) (f : LaunchQueue → LaunchQueue) : (s.modQueue q f).queue q = f (s.queue q) := by
  simp [State.modQueue, State.queue, State.modWafer, Wafer.modQueue]

theorem State.queue_modQueue_ne (s : State) {p q : QueueId} (f : LaunchQueue → LaunchQueue) (h : p ≠ q) :
    (s.modQueue q f).queue p = s.queue p := by
  have : q.val ≠ p.val := fun e => h (Fin.ext e.symm)
  simp [State.modQueue, State.queue, State.modWafer, Wafer.modQueue, this]

@[simp] theorem State.port_modPort (s : State) (p : PortId) (f : Port → Port) : (s.modPort p f).port p = f (s.port p) := by
  simp [State.modPort, State.port, State.modWafer, Wafer.modPort]

theorem State.port_modPort_ne (s : State) {p q : PortId} (f : Port → Port) (h : q ≠ p) : (s.modPort p f).port q = s.port q := by
  have : p.val ≠ q.val := fun e => h (Fin.ext e.symm)
  simp [State.modPort, State.port, State.modWafer, Wafer.modPort, this]

/-- A focus changes which tile is in hand and nothing that belongs to the wafer. -/
@[simp] theorem State.focus_wafer (s : State) (c : TileId) : (s.focus c).wafer = s.wafer := by unfold State.focus; split <;> rfl
@[simp] theorem State.focus_tag (s : State) (c : TileId) : (s.focus c).tag = s.tag := by unfold State.focus; split <;> rfl
@[simp] theorem State.focus_now (s : State) (c : TileId) : (s.focus c).now = s.now := by unfold State.focus; split <;> rfl
@[simp] theorem State.focus_timers (s : State) (c : TileId) : (s.focus c).timers = s.timers := by unfold State.focus; split <;> rfl
@[simp] theorem State.focus_fresh (s : State) (c : TileId) : (s.focus c).fresh = s.fresh := by unfold State.focus; split <;> rfl
theorem State.focus_self (s : State) : s.focus s.tile.at' = s := by simp [State.focus]

end Sys2Proof.Machine
end

