-- ==== Sys2Proof/Laws/Ops.lean ====
section
/-! SUPPORT. What the shared operations over the state can do, said once each: taking a trap and returning from one, deferring a cause,
semaphore additions, the engines' common answers. -/

namespace Sys2Proof.Machine

/-! ### The context in focus -/

theorem State.ctx_eq (s : State) : s.ctx = s.tile.ctx s.tag := rfl

@[simp] theorem State.ctx_modCore (s : State) (f : Core → Core) : (s.modCore f).ctx = s.ctx := rfl
@[simp] theorem State.ctx_modWafer (s : State) (f : Wafer → Wafer) : (s.modWafer f).ctx = s.ctx := rfl
@[simp] theorem State.ctx_timer (s : State) (d : Nat) (a : Auto) : (s.timer d a).ctx = s.ctx := rfl
@[simp] theorem State.ctx_hostEvent (s : State) (c : BitVec 8) : (s.hostEvent c).ctx = s.ctx := rfl
@[simp] theorem State.ctx_atEnd (s : State) (a : EndAct) : (s.atEnd a).ctx = s.ctx := rfl
@[simp] theorem State.ctx_logTrap (s : State) : s.logTrap.ctx = s.ctx := rfl

/-! ### Trace and deferral -/

/-- A context whose trace bit is 0 writes no trace record (R507). -/
theorem State.trace_off (s : State) (k : Tag) (kind : Nat) (d : BitVec 32) (slot n : Nat) (pc : BitVec 14)
    (h : (s.tile.ctx k).dbg.tracing = false) : s.trace k kind d slot n pc = s := by
  simp [State.trace, h]

/-- A deferred cause of a live context that has none pending becomes its pending cause, and nothing else changes (R277). -/
theorem State.defer_first (s : State) (k : Tag) (code : BitVec 8) (h1 : (s.tile.ctx k).life.st ≠ .empty) (h2 : (s.tile.ctx k).life.st ≠ .killing)
    (h3 : (s.tile.ctx k).life.deferred = none) :
    s.defer k code = s.modTile (fun t => t.modCtx k (fun c => { c with life := { c.life with deferred := some code } })) := by
  simp [State.defer, h1, h2, h3]

/-! ### Traps -/

/-- The program of a context depends on its kernel alone. -/
theorem State.program_modCtx (s : State) (f : Context → Context) (h : (f s.ctx).life.kernel = s.ctx.life.kernel) :
    (s.modCtx f).program = s.program := by
  simp only [State.program, State.ctx_modCtx, h]; rfl

/-- Taking a trap outside a handler, with a vector (R278): EPC, CAUSE, EPCDELAY and INHANDLER as given, the context at the vector, not before
4 cycles from now; its pending writes have landed. -/
theorem State.takeTrap_vector (s : State) (code : BitVec 8) (mask : BitVec 4) (pc npc : BitVec 32) (delay : Bool) (v : Nat) (p : Program)
    (hh : s.ctx.sys.inHandler = false) (ht : s.ctx.dbg.tracing = false) (hp : s.program = some p) (hv : p.vector = some v) :
    let t := s.takeTrap code mask pc npc delay
    t.ctx.sys = { s.ctx.sys with epc := epcWord npc pc mask, cause := code, epcDelay := delay, inHandler := true }
    ∧ t.ctx.flow = { s.ctx.flow with pc := BitVec.ofNat 32 (16 * v), npc := BitVec.ofNat 32 (16 * v) + 16, indelay := false }
    ∧ t.ctx.regs = landAll s.ctx.regs s.ctx.pending ∧ t.ctx.pending = []
    ∧ t.ctx.life.resumeAt = max (s.now + 4) (lastArrival s.ctx.pending + 1) := by
  have key : s.takeTrap code mask pc npc delay = ((s.logTrap.modCtx (fun c => { c with life := { c.life with partLanded := false }, dbg := { c.dbg with popped := [] } })).modCtx
      (fun c => { c with sys := { c.sys with epc := epcWord npc pc mask, cause := code, epcDelay := delay, inHandler := true } })).modCtx
      (fun c => { c.landedAll with flow := { c.landedAll.flow with pc := BitVec.ofNat 32 (16 * v), npc := BitVec.ofNat 32 (16 * v) + 16, indelay := false },
                                   life := { c.landedAll.life with resumeAt := max (s.now + 4) (lastArrival s.ctx.pending + 1), entering := true } }) := by
    have h1 : (s.logTrap.modCtx (fun c => { c with life := { c.life with partLanded := false }, dbg := { c.dbg with popped := [] } })).ctx.sys.inHandler = false := by
      simp [hh]
    have h2 : ∀ d l n pcx, State.trace (s.logTrap.modCtx (fun c => { c with life := { c.life with partLanded := false }, dbg := { c.dbg with popped := [] } })) s.tag 2 d l n pcx
        = s.logTrap.modCtx (fun c => { c with life := { c.life with partLanded := false }, dbg := { c.dbg with popped := [] } }) := by
      intro d l n pcx
      refine State.trace_off _ _ _ _ _ _ _ ?_
      show (s.logTrap.modCtx _).ctx.dbg.tracing = false
      simp [ht]
    have h3 : ((s.logTrap.modCtx (fun c => { c with life := { c.life with partLanded := false }, dbg := { c.dbg with popped := [] } })).modCtx
        (fun c => { c with sys := { c.sys with epc := epcWord npc pc mask, cause := code, epcDelay := delay, inHandler := true } })).program = some p := by
      rw [State.program_modCtx _ _ rfl, State.program_modCtx _ _ rfl]; exact hp
    simp only [State.takeTrap]
    rw [if_neg (by rw [h1]; decide), show (s.logTrap.modCtx (fun c => { c with life := { c.life with partLanded := false }, dbg := { c.dbg with popped := [] } })).tag = s.tag from rfl, h2, h3]
    simp only [Option.bind_some, hv, State.ctx_modCtx, State.ctx_logTrap]
    rfl
  intro t
  have ht' : t = _ := key
  rw [ht']
  simp [Context.landedAll]

/-- Returning from a trap (R284): both program counters from EPC, the delay bit from EPCDELAY, INHANDLER 0; nothing else. -/
theorem Context.retFromTrap_regs (c : Context) : c.retFromTrap.regs = c.regs := rfl
theorem Context.retFromTrap_inHandler (c : Context) : c.retFromTrap.sys.inHandler = false := rfl

end Sys2Proof.Machine
end

