-- ==== Sys2Proof/Laws/PerInstr.lean ====
section
/-! SUPPORT. The family Encodes, one lemma per constructor of Instr: an instruction has a word exactly when a slot holds it. -/

namespace Sys2Proof.Laws.Encodes

/-- The instruction has a word exactly when some slot holds it; a step of the machine or an event from outside has neither. -/
def Statement (i : Instr) : Prop := (encode i).isSome = i.slot?.isSome

theorem nop : Statement (.nop) := rfl
theorem header (w : BitVec 1) (s : BitVec 5) (x : BitVec 1) (t : BitVec 5) (r i : BitVec 3) (l : BitVec 9) : Statement (.header w s x t r i l) := rfl
theorem add (p : BitVec 2) (d a b : BitVec 5) : Statement (.add p d a b) := rfl
theorem sub (p : BitVec 2) (d a b : BitVec 5) : Statement (.sub p d a b) := rfl
theorem and (p : BitVec 2) (d a b : BitVec 5) : Statement (.and p d a b) := rfl
theorem or (p : BitVec 2) (d a b : BitVec 5) : Statement (.or p d a b) := rfl
theorem xor (p : BitVec 2) (d a b : BitVec 5) : Statement (.xor p d a b) := rfl
theorem andn (p : BitVec 2) (d a b : BitVec 5) : Statement (.andn p d a b) := rfl
theorem shl (p : BitVec 2) (d a b : BitVec 5) : Statement (.shl p d a b) := rfl
theorem shr (p : BitVec 2) (d a b : BitVec 5) : Statement (.shr p d a b) := rfl
theorem sar (p : BitVec 2) (d a b : BitVec 5) : Statement (.sar p d a b) := rfl
theorem rol (p : BitVec 2) (d a b : BitVec 5) : Statement (.rol p d a b) := rfl
theorem min (p : BitVec 2) (d a b : BitVec 5) : Statement (.min p d a b) := rfl
theorem max (p : BitVec 2) (d a b : BitVec 5) : Statement (.max p d a b) := rfl
theorem minu (p : BitVec 2) (d a b : BitVec 5) : Statement (.minu p d a b) := rfl
theorem maxu (p : BitVec 2) (d a b : BitVec 5) : Statement (.maxu p d a b) := rfl
theorem mul (p : BitVec 2) (d a b : BitVec 5) : Statement (.mul p d a b) := rfl
theorem mulh (p : BitVec 2) (d a b : BitVec 5) : Statement (.mulh p d a b) := rfl
theorem mulhu (p : BitVec 2) (d a b : BitVec 5) : Statement (.mulhu p d a b) := rfl
theorem div (p : BitVec 2) (d a b : BitVec 5) : Statement (.div p d a b) := rfl
theorem divu (p : BitVec 2) (d a b : BitVec 5) : Statement (.divu p d a b) := rfl
theorem rem (p : BitVec 2) (d a b : BitVec 5) : Statement (.rem p d a b) := rfl
theorem remu (p : BitVec 2) (d a b : BitVec 5) : Statement (.remu p d a b) := rfl
theorem adds (p : BitVec 2) (d a b : BitVec 5) : Statement (.adds p d a b) := rfl
theorem subs (p : BitVec 2) (d a b : BitVec 5) : Statement (.subs p d a b) := rfl
theorem clz (p : BitVec 2) (d a : BitVec 5) : Statement (.clz p d a) := rfl
theorem ctz (p : BitVec 2) (d a : BitVec 5) : Statement (.ctz p d a) := rfl
theorem popc (p : BitVec 2) (d a : BitVec 5) : Statement (.popc p d a) := rfl
theorem brev (p : BitVec 2) (d a : BitVec 5) : Statement (.brev p d a) := rfl
theorem bswap (p : BitVec 2) (d a : BitVec 5) : Statement (.bswap p d a) := rfl
theorem addi (p : BitVec 2) (d a : BitVec 5) (i : BitVec 14) : Statement (.addi p d a i) := rfl
theorem andi (p : BitVec 2) (d a : BitVec 5) (i : BitVec 14) : Statement (.andi p d a i) := rfl
theorem ori (p : BitVec 2) (d a : BitVec 5) (i : BitVec 14) : Statement (.ori p d a i) := rfl
theorem xori (p : BitVec 2) (d a : BitVec 5) (i : BitVec 14) : Statement (.xori p d a i) := rfl
theorem shli (p : BitVec 2) (d a s : BitVec 5) : Statement (.shli p d a s) := rfl
theorem shri (p : BitVec 2) (d a s : BitVec 5) : Statement (.shri p d a s) := rfl
theorem sari (p : BitVec 2) (d a s : BitVec 5) : Statement (.sari p d a s) := rfl
theorem muli (p : BitVec 2) (d a : BitVec 5) (i : BitVec 14) : Statement (.muli p d a i) := rfl
theorem movi (p : BitVec 2) (d : BitVec 5) (i : BitVec 19) : Statement (.movi p d i) := rfl
theorem movhi (p : BitVec 2) (d : BitVec 5) (i : BitVec 19) : Statement (.movhi p d i) := rfl
theorem leab (p : BitVec 2) (d : BitVec 5) (i : BitVec 19) : Statement (.leab p d i) := rfl
theorem bfx (p : BitVec 2) (d a l s : BitVec 5) : Statement (.bfx p d a l s) := rfl
theorem bfxu (p : BitVec 2) (d a l s : BitVec 5) : Statement (.bfxu p d a l s) := rfl
theorem bfi (p : BitVec 2) (d a l s : BitVec 5) : Statement (.bfi p d a l s) := rfl
theorem setp (p : BitVec 2) (d : BitVec 3) (c : BitVec 2) (a b : BitVec 5) (k : BitVec 4) : Statement (.setp p d c a b k) := rfl
theorem setpi (p : BitVec 2) (d : BitVec 3) (c : BitVec 2) (a : BitVec 5) (k : BitVec 4) (i : BitVec 10) : Statement (.setpi p d c a k i) := rfl
theorem pand (p : BitVec 2) (d a b : BitVec 3) (x y : BitVec 1) : Statement (.pand p d a b x y) := rfl
theorem por (p : BitVec 2) (d a b : BitVec 3) (x y : BitVec 1) : Statement (.por p d a b x y) := rfl
theorem pxor (p : BitVec 2) (d a b : BitVec 3) (x y : BitVec 1) : Statement (.pxor p d a b x y) := rfl
theorem sel (p : BitVec 2) (d a b : BitVec 5) (c : BitVec 3) (v : BitVec 1) : Statement (.sel p d a b c v) := rfl
theorem br (p : BitVec 2) (v : BitVec 1) (c : BitVec 3) (o : BitVec 20) : Statement (.br p v c o) := rfl
theorem brr (p : BitVec 2) (v : BitVec 1) (c : BitVec 3) (a : BitVec 5) : Statement (.brr p v c a) := rfl
theorem call (p : BitVec 2) (v : BitVec 1) (c : BitVec 3) (o : BitVec 20) : Statement (.call p v c o) := rfl
theorem callr (p : BitVec 2) (v : BitVec 1) (c : BitVec 3) (a : BitVec 5) : Statement (.callr p v c a) := rfl
theorem ret (p : BitVec 2) (v : BitVec 1) (c : BitVec 3) : Statement (.ret p v c) := rfl
theorem loop (p l : BitVec 2) (a : BitVec 5) (n : BitVec 14) : Statement (.loop p l a n) := rfl
theorem loopi (p l : BitVec 2) (c : BitVec 12) (n : BitVec 10) : Statement (.loopi p l c n) := rfl
theorem wait (p : BitVec 2) (s : BitVec 5) (n : BitVec 16) : Statement (.wait p s n) := rfl
theorem sig (p : BitVec 2) (s : BitVec 5) (n : BitVec 16) : Statement (.sig p s n) := rfl
theorem movs (p : BitVec 2) (d : BitVec 5) (s : BitVec 10) : Statement (.movs p d s) := rfl
theorem smov (p : BitVec 2) (a : BitVec 5) (s : BitVec 10) : Statement (.smov p a s) := rfl
theorem park (p : BitVec 2) : Statement (.park p) := rfl
theorem yield (p : BitVec 2) (n : BitVec 12) : Statement (.yield p n) := rfl
theorem arm (p : BitVec 2) (n : BitVec 12) : Statement (.arm p n) := rfl
theorem sprio (p : BitVec 2) (n : BitVec 12) : Statement (.sprio p n) := rfl
theorem cstart (p : BitVec 2) (d a : BitVec 5) (n : BitVec 12) : Statement (.cstart p d a n) := rfl
theorem cstop (p : BitVec 2) (d : BitVec 5) (n : BitVec 12) : Statement (.cstop p d n) := rfl
theorem ckill (p : BitVec 2) (d : BitVec 5) (n : BitVec 12) : Statement (.ckill p d n) := rfl
theorem trap (p : BitVec 2) (n : BitVec 12) : Statement (.trap p n) := rfl
theorem rett (p : BitVec 2) : Statement (.rett p) := rfl
theorem ctopen (p : BitVec 2) (o : BitVec 12) : Statement (.ctopen p o) := rfl
theorem ctclose (p : BitVec 2) : Statement (.ctclose p) := rfl
theorem segchk (p : BitVec 2) (i : BitVec 12) : Statement (.segchk p i) := rfl
theorem acrange (p : BitVec 2) (a : BitVec 5) (n : BitVec 6) : Statement (.acrange p a n) := rfl
theorem acread (p : BitVec 2) (d a : BitVec 5) : Statement (.acread p d a) := rfl
theorem acreadSnap (p : BitVec 2) (d : BitVec 5) : Statement (.acreadSnap p d) := rfl
theorem acreadEl (p : BitVec 2) (d : BitVec 5) (h : BitVec 1) : Statement (.acreadEl p d h) := rfl
theorem acloop (p : BitVec 2) (d : BitVec 5) (c t : BitVec 1) (k s : BitVec 2) : Statement (.acloop p d c t k s) := rfl
theorem acclr (p : BitVec 2) : Statement (.acclr p) := rfl
theorem launch (p : BitVec 2) (d a : BitVec 5) (q : BitVec 4) : Statement (.launch p d a q) := rfl
theorem qstat (p : BitVec 2) (d : BitVec 5) (q : BitVec 4) : Statement (.qstat p d q) := rfl
theorem qstatLs (p : BitVec 2) (d : BitVec 5) (n : BitVec 6) : Statement (.qstatLs p d n) := rfl
theorem qprio (p : BitVec 2) (d : BitVec 5) (e n : BitVec 2) : Statement (.qprio p d e n) := rfl
theorem qcancel (p : BitVec 2) (d : BitVec 5) (q : BitVec 4) : Statement (.qcancel p d q) := rfl
theorem bankrel (p : BitVec 2) (a : BitVec 5) : Statement (.bankrel p a) := rfl
theorem bankrelAcc (p : BitVec 2) (a : BitVec 5) (h : BitVec 1) : Statement (.bankrelAcc p a h) := rfl
theorem banktst (p : BitVec 2) (d : BitVec 5) (s : BitVec 12) : Statement (.banktst p d s) := rfl
theorem kend (p : BitVec 2) : Statement (.kend p) := rfl
theorem kseq (p : BitVec 2) (d : BitVec 5) (s : BitVec 12) : Statement (.kseq p d s) := rfl
theorem kseqQueue (p : BitVec 2) (d a : BitVec 5) (s : BitVec 12) : Statement (.kseqQueue p d a s) := rfl
theorem gid (p : BitVec 2) (d : BitVec 5) (n : BitVec 3) : Statement (.gid p d n) := rfl
theorem gidReg (p : BitVec 2) (d a : BitVec 5) : Statement (.gidReg p d a) := rfl
theorem gdim (p : BitVec 2) (d : BitVec 5) (n : BitVec 3) : Statement (.gdim p d n) := rfl
theorem gdimReg (p : BitVec 2) (d a : BitVec 5) : Statement (.gdimReg p d a) := rfl
theorem gbase (p : BitVec 2) (d : BitVec 5) (n : BitVec 3) : Statement (.gbase p d n) := rfl
theorem gbaseReg (p : BitVec 2) (d a : BitVec 5) : Statement (.gbaseReg p d a) := rfl
theorem gslice (p : BitVec 2) (d : BitVec 5) (s : BitVec 2) : Statement (.gslice p d s) := rfl
theorem gsliceWait (p : BitVec 2) (a : BitVec 5) : Statement (.gsliceWait p a) := rfl
theorem barinit (p : BitVec 2) (a : BitVec 5) (l : BitVec 3) (n : BitVec 6) : Statement (.barinit p a l n) := rfl
theorem bararv (p : BitVec 2) (d : BitVec 5) (n : BitVec 6) : Statement (.bararv p d n) := rfl
theorem bardrop (p : BitVec 2) (d : BitVec 5) (n : BitVec 6) : Statement (.bardrop p d n) := rfl
theorem barwait (p : BitVec 2) (n : BitVec 6) : Statement (.barwait p n) := rfl
theorem bartst (p : BitVec 2) (d : BitVec 5) (n : BitVec 6) : Statement (.bartst p d n) := rfl
theorem bartstView (p : BitVec 2) (d : BitVec 5) (n : BitVec 6) : Statement (.bartstView p d n) := rfl
theorem colset (p : BitVec 2) (a : BitVec 5) (c f : BitVec 6) : Statement (.colset p a c f) := rfl
theorem colget (p : BitVec 2) (d : BitVec 5) (s : BitVec 12) : Statement (.colget p d s) := rfl
theorem chopen (p : BitVec 2) (c : BitVec 12) : Statement (.chopen p c) := rfl
theorem chclose (p : BitVec 2) (c : BitVec 12) : Statement (.chclose p c) := rfl
theorem chstat (p : BitVec 2) (d : BitVec 5) (c : BitVec 12) : Statement (.chstat p d c) := rfl
theorem chwin (p : BitVec 2) (d : BitVec 5) (c : BitVec 12) : Statement (.chwin p d c) := rfl
theorem pgprobe (p : BitVec 2) (d a : BitVec 5) (n : BitVec 3) : Statement (.pgprobe p d a n) := rfl
theorem pginv (p : BitVec 2) (a : BitVec 5) (n : BitVec 3) : Statement (.pginv p a n) := rfl
theorem pginvAll (p : BitVec 2) : Statement (.pginvAll p) := rfl
theorem pgtouch (p : BitVec 2) (d a : BitVec 5) (w : BitVec 1) (n : BitVec 3) : Statement (.pgtouch p d a w n) := rfl
theorem lkstat (p : BitVec 2) (d a : BitVec 5) (w : BitVec 2) : Statement (.lkstat p d a w) := rfl
theorem lkpark (p : BitVec 2) (d a : BitVec 5) (m : BitVec 8) : Statement (.lkpark p d a m) := rfl
theorem lkwake (p : BitVec 2) (d a : BitVec 5) (m : BitVec 8) : Statement (.lkwake p d a m) := rfl
theorem lkstamp (p : BitVec 2) (d a : BitVec 5) (s : BitVec 1) : Statement (.lkstamp p d a s) := rfl
theorem brk (p : BitVec 2) (n : BitVec 12) : Statement (.brk p n) := rfl
theorem dbgmark (p : BitVec 2) (a : BitVec 5) (n : BitVec 9) : Statement (.dbgmark p a n) := rfl
theorem trcon (p : BitVec 2) : Statement (.trcon p) := rfl
theorem trcoff (p : BitVec 2) : Statement (.trcoff p) := rfl
theorem vadd (p : BitVec 2) (d : BitVec 4) (a b : BitVec 5) (m t : BitVec 3) : Statement (.vadd p d a b m t) := rfl
theorem vsub (p : BitVec 2) (d : BitVec 4) (a b : BitVec 5) (m t : BitVec 3) : Statement (.vsub p d a b m t) := rfl
theorem vmul (p : BitVec 2) (d : BitVec 4) (a b : BitVec 5) (m t : BitVec 3) : Statement (.vmul p d a b m t) := rfl
theorem vmulh (p : BitVec 2) (d : BitVec 4) (a b : BitVec 5) (m t : BitVec 3) : Statement (.vmulh p d a b m t) := rfl
theorem vmin (p : BitVec 2) (d : BitVec 4) (a b : BitVec 5) (m t : BitVec 3) : Statement (.vmin p d a b m t) := rfl
theorem vmax (p : BitVec 2) (d : BitVec 4) (a b : BitVec 5) (m t : BitVec 3) : Statement (.vmax p d a b m t) := rfl
theorem vadds (p : BitVec 2) (d : BitVec 4) (a b : BitVec 5) (m t : BitVec 3) : Statement (.vadds p d a b m t) := rfl
theorem vsubs (p : BitVec 2) (d : BitVec 4) (a b : BitVec 5) (m t : BitVec 3) : Statement (.vsubs p d a b m t) := rfl
theorem vabsd (p : BitVec 2) (d : BitVec 4) (a b : BitVec 5) (m t : BitVec 3) : Statement (.vabsd p d a b m t) := rfl
theorem vand (p : BitVec 2) (d : BitVec 4) (a b : BitVec 5) (m t : BitVec 3) : Statement (.vand p d a b m t) := rfl
theorem vor (p : BitVec 2) (d : BitVec 4) (a b : BitVec 5) (m t : BitVec 3) : Statement (.vor p d a b m t) := rfl
theorem vxor (p : BitVec 2) (d : BitVec 4) (a b : BitVec 5) (m t : BitVec 3) : Statement (.vxor p d a b m t) := rfl
theorem vshl (p : BitVec 2) (d : BitVec 4) (a b : BitVec 5) (m t : BitVec 3) : Statement (.vshl p d a b m t) := rfl
theorem vshr (p : BitVec 2) (d : BitVec 4) (a b : BitVec 5) (m t : BitVec 3) : Statement (.vshr p d a b m t) := rfl
theorem vavg (p : BitVec 2) (d : BitVec 4) (a b : BitVec 5) (m t : BitVec 3) : Statement (.vavg p d a b m t) := rfl
theorem vpopc (p : BitVec 2) (d : BitVec 4) (a : BitVec 5) (m t : BitVec 3) : Statement (.vpopc p d a m t) := rfl
theorem vaddScalar (p : BitVec 2) (d : BitVec 4) (a g : BitVec 5) (m t : BitVec 3) : Statement (.vaddScalar p d a g m t) := rfl
theorem vsubScalar (p : BitVec 2) (d : BitVec 4) (a g : BitVec 5) (m t : BitVec 3) : Statement (.vsubScalar p d a g m t) := rfl
theorem vmulScalar (p : BitVec 2) (d : BitVec 4) (a g : BitVec 5) (m t : BitVec 3) : Statement (.vmulScalar p d a g m t) := rfl
theorem vmulhScalar (p : BitVec 2) (d : BitVec 4) (a g : BitVec 5) (m t : BitVec 3) : Statement (.vmulhScalar p d a g m t) := rfl
theorem vminScalar (p : BitVec 2) (d : BitVec 4) (a g : BitVec 5) (m t : BitVec 3) : Statement (.vminScalar p d a g m t) := rfl
theorem vmaxScalar (p : BitVec 2) (d : BitVec 4) (a g : BitVec 5) (m t : BitVec 3) : Statement (.vmaxScalar p d a g m t) := rfl
theorem vaddsScalar (p : BitVec 2) (d : BitVec 4) (a g : BitVec 5) (m t : BitVec 3) : Statement (.vaddsScalar p d a g m t) := rfl
theorem vsubsScalar (p : BitVec 2) (d : BitVec 4) (a g : BitVec 5) (m t : BitVec 3) : Statement (.vsubsScalar p d a g m t) := rfl
theorem vabsdScalar (p : BitVec 2) (d : BitVec 4) (a g : BitVec 5) (m t : BitVec 3) : Statement (.vabsdScalar p d a g m t) := rfl
theorem vandScalar (p : BitVec 2) (d : BitVec 4) (a g : BitVec 5) (m t : BitVec 3) : Statement (.vandScalar p d a g m t) := rfl
theorem vorScalar (p : BitVec 2) (d : BitVec 4) (a g : BitVec 5) (m t : BitVec 3) : Statement (.vorScalar p d a g m t) := rfl
theorem vxorScalar (p : BitVec 2) (d : BitVec 4) (a g : BitVec 5) (m t : BitVec 3) : Statement (.vxorScalar p d a g m t) := rfl
theorem vshlScalar (p : BitVec 2) (d : BitVec 4) (a g : BitVec 5) (m t : BitVec 3) : Statement (.vshlScalar p d a g m t) := rfl
theorem vshrScalar (p : BitVec 2) (d : BitVec 4) (a g : BitVec 5) (m t : BitVec 3) : Statement (.vshrScalar p d a g m t) := rfl
theorem vavgScalar (p : BitVec 2) (d : BitVec 4) (a g : BitVec 5) (m t : BitVec 3) : Statement (.vavgScalar p d a g m t) := rfl
theorem vfadd (p : BitVec 2) (d : BitVec 4) (a b : BitVec 5) (m t : BitVec 3) : Statement (.vfadd p d a b m t) := rfl
theorem vfsub (p : BitVec 2) (d : BitVec 4) (a b : BitVec 5) (m t : BitVec 3) : Statement (.vfsub p d a b m t) := rfl
theorem vfmul (p : BitVec 2) (d : BitVec 4) (a b : BitVec 5) (m t : BitVec 3) : Statement (.vfmul p d a b m t) := rfl
theorem vfmin (p : BitVec 2) (d : BitVec 4) (a b : BitVec 5) (m t : BitVec 3) : Statement (.vfmin p d a b m t) := rfl
theorem vfmax (p : BitVec 2) (d : BitVec 4) (a b : BitVec 5) (m t : BitVec 3) : Statement (.vfmax p d a b m t) := rfl
theorem vfabs (p : BitVec 2) (d : BitVec 4) (a : BitVec 5) (m t : BitVec 3) : Statement (.vfabs p d a m t) := rfl
theorem vfneg (p : BitVec 2) (d : BitVec 4) (a : BitVec 5) (m t : BitVec 3) : Statement (.vfneg p d a m t) := rfl
theorem vexp2 (p : BitVec 2) (d : BitVec 4) (a : BitVec 5) (m t : BitVec 3) : Statement (.vexp2 p d a m t) := rfl
theorem vlog2 (p : BitVec 2) (d : BitVec 4) (a : BitVec 5) (m t : BitVec 3) : Statement (.vlog2 p d a m t) := rfl
theorem vrcp (p : BitVec 2) (d : BitVec 4) (a : BitVec 5) (m t : BitVec 3) : Statement (.vrcp p d a m t) := rfl
theorem vrsqrt (p : BitVec 2) (d : BitVec 4) (a : BitVec 5) (m t : BitVec 3) : Statement (.vrsqrt p d a m t) := rfl
theorem vfrint (p : BitVec 2) (d : BitVec 4) (a : BitVec 5) (m t : BitVec 3) : Statement (.vfrint p d a m t) := rfl
theorem vfaddScalar (p : BitVec 2) (d : BitVec 4) (a g : BitVec 5) (m t : BitVec 3) : Statement (.vfaddScalar p d a g m t) := rfl
theorem vfsubScalar (p : BitVec 2) (d : BitVec 4) (a g : BitVec 5) (m t : BitVec 3) : Statement (.vfsubScalar p d a g m t) := rfl
theorem vfmulScalar (p : BitVec 2) (d : BitVec 4) (a g : BitVec 5) (m t : BitVec 3) : Statement (.vfmulScalar p d a g m t) := rfl
theorem vfminScalar (p : BitVec 2) (d : BitVec 4) (a g : BitVec 5) (m t : BitVec 3) : Statement (.vfminScalar p d a g m t) := rfl
theorem vfmaxScalar (p : BitVec 2) (d : BitVec 4) (a g : BitVec 5) (m t : BitVec 3) : Statement (.vfmaxScalar p d a g m t) := rfl
theorem vfma (p : BitVec 2) (d : BitVec 4) (a b c : BitVec 5) (m : BitVec 3) (t : BitVec 2) : Statement (.vfma p d a b c m t) := rfl
theorem vfms (p : BitVec 2) (d : BitVec 4) (a b c : BitVec 5) (m : BitVec 3) (t : BitVec 2) : Statement (.vfms p d a b c m t) := rfl
theorem vfnma (p : BitVec 2) (d : BitVec 4) (a b c : BitVec 5) (m : BitVec 3) (t : BitVec 2) : Statement (.vfnma p d a b c m t) := rfl
theorem vcmp (p : BitVec 2) (d : BitVec 3) (a b : BitVec 5) (m t : BitVec 3) (c : BitVec 4) : Statement (.vcmp p d a b m t c) := rfl
theorem vfcmp (p : BitVec 2) (d : BitVec 3) (a b : BitVec 5) (m t : BitVec 3) (c : BitVec 4) : Statement (.vfcmp p d a b m t c) := rfl
theorem mand (p : BitVec 2) (d a b : BitVec 3) : Statement (.mand p d a b) := rfl
theorem mor (p : BitVec 2) (d a b : BitVec 3) : Statement (.mor p d a b) := rfl
theorem mxor (p : BitVec 2) (d a b : BitVec 3) : Statement (.mxor p d a b) := rfl
theorem mandn (p : BitVec 2) (d a b : BitVec 3) : Statement (.mandn p d a b) := rfl
theorem vsel (p : BitVec 2) (d : BitVec 4) (a b : BitVec 5) (m : BitVec 3) : Statement (.vsel p d a b m) := rfl
theorem vcvt (p : BitVec 2) (d : BitVec 4) (a : BitVec 5) (e s : BitVec 4) (m : BitVec 3) (w : BitVec 1) : Statement (.vcvt p d a e s m w) := rfl
theorem ven (p : BitVec 2) (d : BitVec 4) (a b : BitVec 5) (e : BitVec 4) (l : BitVec 5) : Statement (.ven p d a b e l) := rfl
theorem vde (p : BitVec 2) (d : BitVec 4) (a : BitVec 5) (e : BitVec 4) (l : BitVec 5) : Statement (.vde p d a e l) := rfl
theorem vrsum (p : BitVec 2) (d : BitVec 4) (a : BitVec 5) (m t : BitVec 3) : Statement (.vrsum p d a m t) := rfl
theorem vrmax (p : BitVec 2) (d : BitVec 4) (a : BitVec 5) (m t : BitVec 3) : Statement (.vrmax p d a m t) := rfl
theorem vrmin (p : BitVec 2) (d : BitVec 4) (a : BitVec 5) (m t : BitVec 3) : Statement (.vrmin p d a m t) := rfl
theorem vscan (p : BitVec 2) (d : BitVec 4) (a : BitVec 5) (m t : BitVec 3) : Statement (.vscan p d a m t) := rfl
theorem vperm (p : BitVec 2) (d : BitVec 4) (a b : BitVec 5) (m : BitVec 3) : Statement (.vperm p d a b m) := rfl
theorem vrot (p : BitVec 2) (d : BitVec 4) (a k : BitVec 5) (m : BitVec 3) : Statement (.vrot p d a k m) := rfl
theorem vbcl (p : BitVec 2) (d : BitVec 4) (a k : BitVec 5) (m : BitVec 3) : Statement (.vbcl p d a k m) := rfl
theorem vxcopy (p : BitVec 2) (d : BitVec 4) (a : BitVec 5) (t : BitVec 4) (k m : BitVec 3) : Statement (.vxcopy p d a t k m) := rfl
theorem vmovi (p : BitVec 2) (d : BitVec 4) (m : BitVec 3) (i : BitVec 17) : Statement (.vmovi p d m i) := rfl
theorem vmovh (p : BitVec 2) (d : BitVec 4) (m : BitVec 3) (i : BitVec 17) : Statement (.vmovh p d m i) := rfl
theorem vget (p : BitVec 2) (a g : BitVec 5) (l : BitVec 7) : Statement (.vget p a g l) := rfl
theorem vput (p : BitVec 2) (d : BitVec 4) (a g : BitVec 5) (l : BitVec 7) : Statement (.vput p d a g l) := rfl
theorem vbcg (p : BitVec 2) (d : BitVec 4) (g : BitVec 5) : Statement (.vbcg p d g) := rfl
theorem ld (p : BitVec 2) (d b : BitVec 5) (z : BitVec 2) (x : BitVec 1) (o : BitVec 11) : Statement (.ld p d b z x o) := rfl
theorem st (p : BitVec 2) (g b : BitVec 5) (z : BitVec 2) (o : BitVec 11) : Statement (.st p g b z o) := rfl
theorem ald (p : BitVec 2) (d b : BitVec 5) (o : BitVec 11) : Statement (.ald p d b o) := rfl
theorem ast (p : BitVec 2) (g b : BitVec 5) (o : BitVec 11) : Statement (.ast p g b o) := rfl
theorem vld (p : BitVec 2) (v : BitVec 4) (b : BitVec 5) (o : BitVec 15) : Statement (.vld p v b o) := rfl
theorem vst (p : BitVec 2) (v : BitVec 4) (b : BitVec 5) (o : BitVec 15) : Statement (.vst p v b o) := rfl
theorem avld (p : BitVec 2) (v : BitVec 4) (b : BitVec 5) (o : BitVec 13) : Statement (.avld p v b o) := rfl
theorem avst (p : BitVec 2) (v : BitVec 4) (b : BitVec 5) (m : BitVec 2) (o : BitVec 13) : Statement (.avst p v b m o) := rfl
theorem amo (p : BitVec 2) (d a b : BitVec 5) (f : BitVec 4) : Statement (.amo p d a b f) := rfl
theorem wld (p : BitVec 2) (v : BitVec 4) (b : BitVec 5) (o : BitVec 15) : Statement (.wld p v b o) := rfl
theorem wst (p : BitVec 2) (v : BitVec 4) (b : BitVec 5) (o : BitVec 15) : Statement (.wst p v b o) := rfl
theorem fcfg (p : BitVec 2) (f : BitVec 3) (a : BitVec 5) (o : BitVec 15) : Statement (.fcfg p f a o) := rfl
theorem fcfgRb (p : BitVec 2) (f : BitVec 3) (a : BitVec 5) (o : BitVec 15) : Statement (.fcfgRb p f a o) := rfl
theorem ocfg (p o : BitVec 2) (a : BitVec 5) (i : BitVec 15) : Statement (.ocfg p o a i) := rfl
theorem opush (p o : BitVec 2) (s : BitVec 5) : Statement (.opush p o s) := rfl
theorem popq (p : BitVec 2) (d : BitVec 4) (g : BitVec 5) (q : BitVec 2) : Statement (.popq p d g q) := rfl
theorem popqFlag (p : BitVec 2) (d : BitVec 4) (g : BitVec 5) (q : BitVec 2) (r : BitVec 3) : Statement (.popqFlag p d g q r) := rfl
theorem rst (p : BitVec 2) (h : BitVec 3) (a s : BitVec 5) (c : BitVec 3) (o : BitVec 2) : Statement (.rst p h a s c o) := rfl
theorem radd (p : BitVec 2) (h : BitVec 3) (a s : BitVec 5) (w : BitVec 1) (c : BitVec 3) (o : BitVec 2) (k : BitVec 1) : Statement (.radd p h a s w c o k) := rfl
theorem rget (p : BitVec 2) (h : BitVec 3) (a b : BitVec 5) (c : BitVec 3) (o : BitVec 2) (l : BitVec 6) : Statement (.rget p h a b c o l) := rfl
theorem ramo (p : BitVec 2) (h : BitVec 3) (a b : BitVec 5) (c : BitVec 3) (o : BitVec 2) (f : BitVec 4) : Statement (.ramo p h a b c o f) := rfl
theorem drain (p : BitVec 2) (c : BitVec 3) : Statement (.drain p c) := rfl
theorem fence (p : BitVec 2) (c : BitVec 3) : Statement (.fence p c) := rfl
theorem chsend (p : BitVec 2) (n : BitVec 12) (s : BitVec 5) (o : BitVec 2) (c : BitVec 3) : Statement (.chsend p n s o c) := rfl
theorem chrecv (p : BitVec 2) (n : BitVec 12) (d : BitVec 4) : Statement (.chrecv p n d) := rfl
theorem chrecvFlag (p : BitVec 2) (n : BitVec 12) (d : BitVec 4) (r : BitVec 3) : Statement (.chrecvFlag p n d r) := rfl
theorem hmsg (p : BitVec 2) (h : BitVec 3) (a b : BitVec 5) (l : BitVec 8) : Statement (.hmsg p h a b l) := rfl
theorem hset (p : BitVec 2) (h : BitVec 3) (t : BitVec 2) (a : BitVec 5) : Statement (.hset p h t a) := rfl
theorem hget (p : BitVec 2) (d : BitVec 5) (h : BitVec 3) (t : BitVec 2) : Statement (.hget p d h t) := rfl
theorem hadd (p : BitVec 2) (h : BitVec 3) (a : BitVec 5) : Statement (.hadd p h a) := rfl
theorem parset (p : BitVec 2) (x : BitVec 3) (t : BitVec 2) (a : BitVec 5) : Statement (.parset p x t a) := rfl
theorem parget (p : BitVec 2) (d : BitVec 5) (x : BitVec 3) (t : BitVec 2) : Statement (.parget p d x t) := rfl
theorem mcall (p : BitVec 2) (d : BitVec 3) (r : BitVec 2) (i : BitVec 7) : Statement (.mcall p d r i) := rfl
theorem rowrunSmax (p : BitVec 2) (d : BitVec 3) (r : BitVec 2) (a : BitVec 5) : Statement (.rowrunSmax p d r a) := rfl
theorem rowrunNorm (p : BitVec 2) (d : BitVec 3) (r : BitVec 2) (a : BitVec 5) : Statement (.rowrunNorm p d r a) := rfl
theorem cpy (p : BitVec 2) (d : BitVec 3) (r : BitVec 2) (a : BitVec 5) : Statement (.cpy p d r a) := rfl
theorem cpyx (p : BitVec 2) (d : BitVec 3) (r : BitVec 2) (a : BitVec 5) : Statement (.cpyx p d r a) := rfl
theorem cpyf (p : BitVec 2) (d : BitVec 3) (r : BitVec 2) (a : BitVec 5) : Statement (.cpyf p d r a) := rfl
theorem dset (p : BitVec 2) (d : BitVec 3) (g : BitVec 5) : Statement (.dset p d g) := rfl
theorem dget (p : BitVec 2) (d : BitVec 3) (g : BitVec 5) : Statement (.dget p d g) := rfl
theorem ecancel (p e : BitVec 2) : Statement (.ecancel p e) := rfl
theorem excset (p e : BitVec 2) (g : BitVec 5) : Statement (.excset p e g) := rfl
theorem excget (p e : BitVec 2) (g : BitVec 5) : Statement (.excget p e g) := rfl
theorem eqstat (p e : BitVec 2) (g : BitVec 5) : Statement (.eqstat p e g) := rfl
theorem reservedEncoding (slot : Fin 4) (word : BitVec 32) (kind : BitVec 5) : Statement (.reservedEncoding slot word kind) := rfl
theorem routineEnd (c : TileId) : Statement (.routineEnd c) := rfl
theorem loadw (c : TileId) (memsel : BitVec 1) (pa : BitVec 3) (off : BitVec 16) (wl : BitVec 5) (sp : BitVec 2) (dw : BitVec 1) (nc : BitVec 7) : Statement (.loadw c memsel pa off wl sp dw nc) := rfl
theorem stream (c : TileId) (df : BitVec 2) (pa po : BitVec 3) (ol : BitVec 5) (cnt : BitVec 16) (cx : BitVec 1) (os : BitVec 8) (xo : BitVec 16) (sb : BitVec 4) : Statement (.stream c df pa po ol cnt cx os xo sb) := rfl
theorem routineDrain (c : TileId) (pd : BitVec 3) (dt : BitVec 1) (scale : BitVec 8) : Statement (.routineDrain c pd dt scale) := rfl
theorem routineLoop (c : TileId) (cnt : BitVec 16) (cx : BitVec 1) : Statement (.routineLoop c cnt cx) := rfl
theorem endloop (c : TileId) (e1 : BitVec 1) (p1 : BitVec 3) (inc1 : BitVec 16) (e2 : BitVec 1) (p2 : BitVec 3) (inc2 : BitVec 16) : Statement (.endloop c e1 p1 inc1 e2 p2 inc2) := rfl
theorem accmode (c : TileId) (add ce col : BitVec 1) : Statement (.accmode c add ce col) := rfl
theorem sync (c : TileId) (sv : BitVec 1) (sem : BitVec 5) (qe : BitVec 1) (mark : BitVec 16) : Statement (.sync c sv sem qe mark) := rfl
theorem seatTake (c : TileId) (seat : Fin 2) : Statement (.seatTake c seat) := rfl
theorem displacement (c : TileId) : Statement (.displacement c) := rfl
theorem contextReady (c : TileId) (tag : Tag) : Statement (.contextReady c tag) := rfl
theorem yieldDeadline (c : TileId) (tag : Tag) : Statement (.yieldDeadline c tag) := rfl
theorem swapRequest (c : TileId) (out : Fin 4) (incoming : SwapIn) : Statement (.swapRequest c out incoming) := rfl
theorem stagingEnd (c : TileId) : Statement (.stagingEnd c) := rfl
theorem swapDecision (c : TileId) : Statement (.swapDecision c) := rfl
theorem swapIn (c : TileId) : Statement (.swapIn c) := rfl
theorem spillDone (c : TileId) : Statement (.spillDone c) := rfl
theorem handlerStart (c : TileId) : Statement (.handlerStart c) := rfl
theorem deferredTrap (c : TileId) (tag : Tag) : Statement (.deferredTrap c tag) := rfl
theorem containmentRecovery (c : TileId) (tag : Tag) : Statement (.containmentRecovery c tag) := rfl
theorem kill (c : TileId) (tag : Tag) : Statement (.kill c tag) := rfl
theorem killDone (c : TileId) (tag : Tag) : Statement (.killDone c tag) := rfl
theorem weightStoreRefresh (c : TileId) (bank : Fin 32) : Statement (.weightStoreRefresh c bank) := rfl
theorem matrixCommandStart (c : TileId) : Statement (.matrixCommandStart c) := rfl
theorem leaveGrant (r : ReticleId) : Statement (.leaveGrant r) := rfl
theorem leaveTimeout (c : TileId) : Statement (.leaveTimeout c) := rfl
theorem routineSave (c : TileId) : Statement (.routineSave c) := rfl
theorem routineResume (c : TileId) : Statement (.routineResume c) := rfl
theorem rowCommandStart (c : TileId) : Statement (.rowCommandStart c) := rfl
theorem rowCommandComplete (c : TileId) : Statement (.rowCommandComplete c) := rfl
theorem copyCommandStart (c : TileId) : Statement (.copyCommandStart c) := rfl
theorem copyCommandComplete (c : TileId) : Statement (.copyCommandComplete c) := rfl
theorem engineCommandFault (c : TileId) (e : Engine) : Statement (.engineCommandFault c e) := rfl
theorem engineWatchdog (c : TileId) (e : Engine) : Statement (.engineWatchdog c e) := rfl
theorem rqOverflow (c : TileId) (tag : Tag) : Statement (.rqOverflow c tag) := rfl
theorem feedRead (c : TileId) (tag : Tag) (f : Fin 8) : Statement (.feedRead c tag f) := rfl
theorem outletWrite (c : TileId) (tag : Tag) (o : Fin 4) : Statement (.outletWrite c tag o) := rfl
theorem networkInjection (c : TileId) : Statement (.networkInjection c) := rfl
theorem remoteOperationArrival (n : Nat) : Statement (.remoteOperationArrival n) := rfl
theorem remoteResultArrival (n : Nat) : Statement (.remoteResultArrival n) := rfl
theorem releaseSend (c : TileId) (serial : Nat) : Statement (.releaseSend c serial) := rfl
theorem acquirePerformed (c : TileId) (tag : Tag) : Statement (.acquirePerformed c tag) := rfl
theorem holdNotice (n : Nat) : Statement (.holdNotice n) := rfl
theorem resumeNotice (n : Nat) : Statement (.resumeNotice n) := rfl
theorem hostMemoryWrite (link : Fin 4) (addr len : Nat) (data : BitVec 512) : Statement (.hostMemoryWrite link addr len data) := rfl
theorem channelMessageArrival (n : Nat) : Statement (.channelMessageArrival n) := rfl
theorem channelGrantArrival (n : Nat) : Statement (.channelGrantArrival n) := rfl
theorem creditReturnArrival (n : Nat) : Statement (.creditReturnArrival n) := rfl
theorem channelOpenNotice (n : Nat) : Statement (.channelOpenNotice n) := rfl
theorem channelCloseNotice (n : Nat) : Statement (.channelCloseNotice n) := rfl
theorem channelRevoke (n : Nat) : Statement (.channelRevoke n) := rfl
theorem channelItemResend (n : Nat) : Statement (.channelItemResend n) := rfl
theorem peerLost (c : TileId) (kernel ch : Nat) : Statement (.peerLost c kernel ch) := rfl
theorem hmsgArrival (n : Nat) : Statement (.hmsgArrival n) := rfl
theorem barrierRequestSend (c : TileId) (tag : Tag) : Statement (.barrierRequestSend c tag) := rfl
theorem barrierRequestApply (c : TileId) : Statement (.barrierRequestApply c) := rfl
theorem barrierVerdictArrival (n : Nat) : Statement (.barrierVerdictArrival n) := rfl
theorem barrierNoticeArrival (n : Nat) : Statement (.barrierNoticeArrival n) := rfl
theorem lqOpen (q : QueueId) (value : BitVec 32) (secureFn : Bool) : Statement (.lqOpen q value secureFn) := rfl
theorem lqStop (q : QueueId) (value : BitVec 32) (secureFn : Bool) : Statement (.lqStop q value secureFn) := rfl
theorem lqFlush (q : QueueId) (value : BitVec 32) (secureFn : Bool) : Statement (.lqFlush q value secureFn) := rfl
theorem lqtailWrite (q : QueueId) (value : BitVec 8) (secureFn : Bool) : Statement (.lqtailWrite q value secureFn) := rfl
theorem lsvWrite (n : Fin 64) (value : BitVec 16) : Statement (.lsvWrite n value) := rfl
theorem abort (high : BitVec 32) : Statement (.abort high) := rfl
theorem abortGraceExpiry (kernel : Nat) : Statement (.abortGraceExpiry kernel) := rfl
theorem hstatRead : Statement (.hstatRead) := rfl
theorem dispatch (q : QueueId) : Statement (.dispatch q) := rfl
theorem conditionReadPerformed (q : QueueId) : Statement (.conditionReadPerformed q) := rfl
theorem contextLaunchStart (c : TileId) (kernel : Nat) : Statement (.contextLaunchStart c kernel) := rfl
theorem kernelComplete (kernel : Nat) : Statement (.kernelComplete kernel) := rfl
theorem completionEntryWrite (q : QueueId) : Statement (.completionEntryWrite q) := rfl
theorem hostLinkDown (link : Fin 4) : Statement (.hostLinkDown link) := rfl
theorem hostTimeout : Statement (.hostTimeout) := rfl
theorem imageLoad (file : List (BitVec 8)) (secureFn : Bool) : Statement (.imageLoad file secureFn) := rfl
theorem imageUnload (handle : BitVec 16) : Statement (.imageUnload handle) := rfl
theorem unitZeroingDone (c : TileId) (unit : Nat) : Statement (.unitZeroingDone c unit) := rfl
theorem gangStart (kernel : Nat) : Statement (.gangStart kernel) := rfl
theorem startNoticeArrival (gang : BitVec 64) (wafer : BitVec 16) : Statement (.startNoticeArrival gang wafer) := rfl
theorem abandonNoticeArrival (gang : BitVec 64) (wafer : BitVec 16) : Statement (.abandonNoticeArrival gang wafer) := rfl
theorem gangDeadline (kernel : Nat) : Statement (.gangDeadline kernel) := rfl
theorem pageWalk (n : Nat) : Statement (.pageWalk n) := rfl
theorem tlbShootdown (value : BitVec 32) : Statement (.tlbShootdown value) := rfl
theorem shootdownComplete : Statement (.shootdownComplete) := rfl
theorem migcmdMigrate : Statement (.migcmdMigrate) := rfl
theorem migcmdRetire : Statement (.migcmdRetire) := rfl
theorem ceThresholdMigration (c : TileId) : Statement (.ceThresholdMigration c) := rfl
theorem wsRefreshMiss (c : TileId) : Statement (.wsRefreshMiss c) := rfl
theorem migrationCopy : Statement (.migrationCopy) := rfl
theorem migrationCheck (equal : Bool) : Statement (.migrationCheck equal) := rfl
theorem migrationRewrite : Statement (.migrationRewrite) := rfl
theorem migrationResume : Statement (.migrationResume) := rfl
theorem spareFailure : Statement (.spareFailure) := rfl
theorem quiesceTimeout : Statement (.quiesceTimeout) := rfl
theorem scrubBeat (c : TileId) (sram : Bool) : Statement (.scrubBeat c sram) := rfl
theorem scrubLate (c : TileId) (sram : Bool) : Statement (.scrubLate c sram) := rfl
theorem tworldWrite (value : BitVec 1) : Statement (.tworldWrite value) := rfl
theorem wssecWrite (value : BitVec 32) : Statement (.wssecWrite value) := rfl
theorem worldChange (c : TileId) : Statement (.worldChange c) := rfl
theorem cecountRead : Statement (.cecountRead) := rfl
theorem resetRelease : Statement (.resetRelease) := rfl
theorem selfTestEnd (r : ReticleId) (ok : Bool) (failed : List (Nat × Nat)) : Statement (.selfTestEnd r ok failed) := rfl
theorem probeEnd (r : ReticleId) : Statement (.probeEnd r) := rfl
theorem probeMessage (r : ReticleId) (side : Fin 4) (msg : BitVec 512) : Statement (.probeMessage r side msg) := rfl
theorem probeAck (r : ReticleId) (side : Fin 4) (msg : BitVec 512) : Statement (.probeAck r side msg) := rfl
theorem electMessage (r : ReticleId) (side : Fin 4) (msg : BitVec 512) : Statement (.electMessage r side msg) := rfl
theorem roundTimer (r : ReticleId) : Statement (.roundTimer r) := rfl
theorem leaderMessage (r : ReticleId) (side : Fin 4) (msg : BitVec 512) : Statement (.leaderMessage r side msg) := rfl
theorem leaderHeartbeat (r : ReticleId) : Statement (.leaderHeartbeat r) := rfl
theorem heartbeatTimeout (r : ReticleId) : Statement (.heartbeatTimeout r) := rfl
theorem reportMessage (r : ReticleId) (side : Fin 4) (msg : BitVec 512) : Statement (.reportMessage r side msg) := rfl
theorem claimPost (r : ReticleId) : Statement (.claimPost r) := rfl
theorem claimWindowEnd (r : ReticleId) : Statement (.claimWindowEnd r) := rfl
theorem mapMessage (r : ReticleId) (side : Fin 4) (msg : BitVec 512) : Statement (.mapMessage r side msg) := rfl
theorem excludeMessage (r : ReticleId) (side : Fin 4) (msg : BitVec 512) : Statement (.excludeMessage r side msg) := rfl
theorem clockMessage (r : ReticleId) (side : Fin 4) (msg : BitVec 512) : Statement (.clockMessage r side msg) := rfl
theorem startMessage (r : ReticleId) (side : Fin 4) (msg : BitVec 512) : Statement (.startMessage r side msg) := rfl
theorem pllLock (r : ReticleId) : Statement (.pllLock r) := rfl
theorem pllLockTimeout (r : ReticleId) : Statement (.pllLockTimeout r) := rfl
theorem referenceFailure (r : ReticleId) : Statement (.referenceFailure r) := rfl
theorem parentSelection (r : ReticleId) : Statement (.parentSelection r) := rfl
theorem slewLocked (r : ReticleId) : Statement (.slewLocked r) := rfl
theorem holdLimit (r : ReticleId) : Statement (.holdLimit r) := rfl
theorem cycleCorrection (r : ReticleId) : Statement (.cycleCorrection r) := rfl
theorem avsCalibrationDone (r : ReticleId) (ok : Bool) : Statement (.avsCalibrationDone r ok) := rfl
theorem frequencySwitch : Statement (.frequencySwitch) := rfl
theorem recruise (died : Option ReticleId) : Statement (.recruise died) := rfl
theorem wcmdFullCruise : Statement (.wcmdFullCruise) := rfl
theorem wcmdRecruise : Statement (.wcmdRecruise) := rfl
theorem powerGrain (r : ReticleId) (mean : BitVec 16) (groups : List Nat) (monitorsPass tempOver : Bool) : Statement (.powerGrain r mean groups monitorsPass tempOver) := rfl
theorem pwrDroop (r : ReticleId) (mv : BitVec 16) : Statement (.pwrDroop r mv) := rfl
theorem rcrackWrite (value : BitVec 32) : Statement (.rcrackWrite value) := rfl
theorem rpeakRead : Statement (.rpeakRead) := rfl
theorem rcauseRead : Statement (.rcauseRead) := rfl
theorem linkTrain (port : PortId) (secureFn : Bool) : Statement (.linkTrain port secureFn) := rfl
theorem linkDarken (port : PortId) (secureFn : Bool) : Statement (.linkDarken port secureFn) := rfl
theorem lkwcmdWake (port : PortId) (mask : BitVec 8) (secureFn : Bool) : Statement (.lkwcmdWake port mask secureFn) := rfl
theorem lkwcmdPark (port : PortId) (mask : BitVec 8) (secureFn : Bool) : Statement (.lkwcmdPark port mask secureFn) := rfl
theorem lkwaferWrite (value : BitVec 32) : Statement (.lkwaferWrite value) := rfl
theorem lkwhyRead (port : PortId) (secureFn : Bool) : Statement (.lkwhyRead port secureFn) := rfl
theorem lkrplRead (port : PortId) (secureFn : Bool) : Statement (.lkrplRead port secureFn) := rfl
theorem flitIdle (port : PortId) (flit : BitVec 1024) (lost : Bool) : Statement (.flitIdle port flit lost) := rfl
theorem flitData (port : PortId) (flit : BitVec 1024) (lost : Bool) : Statement (.flitData port flit lost) := rfl
theorem flitNak (port : PortId) (flit : BitVec 1024) (lost : Bool) : Statement (.flitNak port flit lost) := rfl
theorem flitRestripe (port : PortId) (flit : BitVec 1024) (lost : Bool) : Statement (.flitRestripe port flit lost) := rfl
theorem flitPark (port : PortId) (flit : BitVec 1024) (lost : Bool) : Statement (.flitPark port flit lost) := rfl
theorem flitWake (port : PortId) (flit : BitVec 1024) (lost : Bool) : Statement (.flitWake port flit lost) := rfl
theorem flitStamp (port : PortId) (flit : BitVec 1024) (lost : Bool) : Statement (.flitStamp port flit lost) := rfl
theorem flitNotice (port : PortId) (flit : BitVec 1024) (lost : Bool) : Statement (.flitNotice port flit lost) := rfl
theorem flitIdent (port : PortId) (flit : BitVec 1024) (lost : Bool) : Statement (.flitIdent port flit lost) := rfl
theorem flitPause (port : PortId) (flit : BitVec 1024) (lost : Bool) : Statement (.flitPause port flit lost) := rfl
theorem flitUnpause (port : PortId) (flit : BitVec 1024) (lost : Bool) : Statement (.flitUnpause port flit lost) := rfl
theorem wavelengthLit (port : PortId) (w : Fin 8) : Statement (.wavelengthLit port w) := rfl
theorem wavelengthWakeTimeout (port : PortId) (w : Fin 8) : Statement (.wavelengthWakeTimeout port w) := rfl
theorem wavelengthFault (port : PortId) (w : Fin 8) (signalLost : Bool) : Statement (.wavelengthFault port w signalLost) := rfl
theorem replayTimeout (port : PortId) : Statement (.replayTimeout port) := rfl
theorem nakRepeat (port : PortId) : Statement (.nakRepeat port) := rfl
theorem lkrpltoExpiry (port : PortId) : Statement (.lkrpltoExpiry port) := rfl
theorem linkSilent (port : PortId) : Statement (.linkSilent port) := rfl
theorem trainingEnd (port : PortId) : Statement (.trainingEnd port) := rfl
theorem stampSend (port : PortId) : Statement (.stampSend port) := rfl
theorem timeStep : Statement (.timeStep) := rfl
theorem linkPolicyPark (port : PortId) : Statement (.linkPolicyPark port) := rfl
theorem linkPolicyWake (port : PortId) : Statement (.linkPolicyWake port) := rfl
theorem dctlHalt (trapReq secureFn : Bool) : Statement (.dctlHalt trapReq secureFn) := rfl
theorem dctlResume (secureFn : Bool) : Statement (.dctlResume secureFn) := rfl
theorem dctlStep (trapReq secureFn : Bool) : Statement (.dctlStep trapReq secureFn) := rfl
theorem achcmdSnapshot (secureFn : Bool) : Statement (.achcmdSnapshot secureFn) := rfl
theorem achcmdClear (secureFn : Bool) : Statement (.achcmdClear secureFn) := rfl
theorem tctlWrite (value : BitVec 32) (secureFn : Bool) : Statement (.tctlWrite value secureFn) := rfl
theorem pairctlWrite (value : BitVec 32) (secureFn : Bool) : Statement (.pairctlWrite value secureFn) := rfl
theorem pairBeatArrival (n : Nat) : Statement (.pairBeatArrival n) := rfl
theorem pairTimeout (n : Nat) : Statement (.pairTimeout n) := rfl
theorem registerWrite (offset value : BitVec 32) (secureFn : Bool) : Statement (.registerWrite offset value secureFn) := rfl
theorem tileClockCycle : Statement (.tileClockCycle) := rfl
theorem wavelengthGrain (port : PortId) (w : Fin 8) (bias power corrected uncorrected : BitVec 16) (tapsUp tapsDown : BitVec 5) : Statement (.wavelengthGrain port w bias power corrected uncorrected tapsUp tapsDown) := rfl
theorem reducedServiceEnd : Statement (.reducedServiceEnd) := rfl

end Sys2Proof.Laws.Encodes
end

