-- ==== Sys2Proof/Tests/Slice0.lean ====
section
/-! SUPPORT. The model's own tests. -/

namespace Sys2Proof.Tests

open Sys2Proof.Machine

set_option maxRecDepth 20000



/-! ### The terms that WellFormed refuses -/

/-- A code field with a value that no table lists: a condition, a type, a combination of VEN, an access size (R77). -/
theorem test_wf_codes : (Instr.setp 0 0 0 1 2 11).wf = false ∧ (Instr.vadd 0 1 2 3 0 6).wf = false ∧ (Instr.ven 0 0 0 0 0 0).wf = false ∧ (Instr.ld 0 1 2 3 0 0).wf = false := by decide

/-- A V source beyond the listed operands (Table 3-4). -/
theorem test_wf_sources : (Instr.vadd 0 1 26 3 0 0).wf = false ∧ (Instr.rst 0 0 0 27 0 0).wf = false := by decide

/-- A scope without an order (R165). -/
theorem test_wf_zeros : (Instr.rst 0 0 0 3 1 0).wf = false ∧ (Instr.chsend 0 0 3 0 2).wf = false := by decide

/-- An operand beyond the limit of its encoding: a field past bit 31, a loop of nothing, an unlisted register, a write to a register that is only
read, a wait for nothing, a trap code of another cause, a group past v15. -/
theorem test_wf_limits : (Instr.bfx 0 1 2 15 17).wf = false ∧ (Instr.loopi 0 0 4 0).wf = false ∧ (Instr.movs 0 1 7).wf = false ∧ (Instr.smov 0 1 2).wf = false
    ∧ (Instr.wait 0 4 0).wf = false ∧ (Instr.trap 0 24).wf = false ∧ (Instr.vde 0 14 0 6 0).wf = false := by decide

/-! ### Decoding -/

/-- Words of slot 0 and what they are: the bits of each row of the opcode table, with operands of their own in every field. -/
def words0a : List (BitVec 32 × Instr) :=
  [(0xFC971855, .header 1 4 1 14 1 4 85),
   (0x05225C00, .add 1 4 9 14),
   (0x05225C01, .sub 1 4 9 14),
   (0x05225C02, .and 1 4 9 14),
   (0x05225C03, .or 1 4 9 14),
   (0x05225C04, .xor 1 4 9 14),
   (0x05225C05, .andn 1 4 9 14),
   (0x05225C06, .shl 1 4 9 14),
   (0x05225C07, .shr 1 4 9 14),
   (0x05225C08, .sar 1 4 9 14),
   (0x05225C09, .rol 1 4 9 14),
   (0x05225C0A, .min 1 4 9 14),
   (0x05225C0B, .max 1 4 9 14),
   (0x05225C0C, .minu 1 4 9 14),
   (0x05225C0D, .maxu 1 4 9 14),
   (0x05225C0E, .mul 1 4 9 14),
   (0x05225C0F, .mulh 1 4 9 14),
   (0x05225C10, .mulhu 1 4 9 14),
   (0x05225C11, .div 1 4 9 14),
   (0x05225C12, .divu 1 4 9 14)]

def words0b : List (BitVec 32 × Instr) :=
  [(0x05225C13, .rem 1 4 9 14),
   (0x05225C14, .remu 1 4 9 14),
   (0x05225C15, .adds 1 4 9 14),
   (0x05225C16, .subs 1 4 9 14),
   (0x05224017, .clz 1 4 9),
   (0x05224018, .ctz 1 4 9),
   (0x05224019, .popc 1 4 9),
   (0x0522401A, .brev 1 4 9),
   (0x0522401B, .bswap 1 4 9),
   (0x09224556, .addi 1 4 9 1366),
   (0x0D224556, .andi 1 4 9 1366),
   (0x11224556, .ori 1 4 9 1366),
   (0x15224556, .xori 1 4 9 1366),
   (0x1922400E, .shli 1 4 9 14),
   (0x1D22400E, .shri 1 4 9 14),
   (0x2122400E, .sari 1 4 9 14),
   (0x25224556, .muli 1 4 9 1366),
   (0x29200401, .movi 1 4 1025),
   (0x2D200401, .movhi 1 4 1025),
   (0x31200401, .leab 1 4 1025)]

def words0c : List (BitVec 32 × Instr) :=
  [(0x352241CB, .bfx 1 4 9 14 11),
   (0x392241CB, .bfxu 1 4 9 14 11),
   (0x3D2241CB, .bfi 1 4 9 14 11),
   (0x41ABA6A0, .setp 1 5 1 14 19 5),
   (0x45ABA555, .setpi 1 5 1 14 9 341),
   (0x49AB6000, .pand 1 5 2 6 1 1),
   (0x49AB6001, .por 1 5 2 6 1 1),
   (0x49AB6002, .pxor 1 5 2 6 1 1),
   (0x4D225C60, .sel 1 4 9 14 1 1),
   (0x51A00556, .br 1 1 2 1366),
   (0x55A70000, .brr 1 1 2 14),
   (0x59A00556, .call 1 1 2 1366),
   (0x5DA70000, .callr 1 1 2 14),
   (0x61A00000, .ret 1 1 2),
   (0x65824556, .loop 1 2 9 1366),
   (0x69900556, .loopi 1 2 1025 342),
   (0x6D202008, .wait 1 4 1025),
   (0x71202008, .sig 1 4 1025),
   (0x75200200, .movs 1 4 1),
   (0x79200200, .smov 1 4 1)]

def words0d : List (BitVec 32 × Instr) :=
  [(0x81000000, .park 1),
   (0x81000AB1, .yield 1 684),
   (0x81000006, .arm 1 1),
   (0x8100000F, .sprio 1 3),
   (0x85224008, .cstart 1 4 9 2),
   (0x8520000D, .cstop 1 4 3),
   (0x8520000E, .ckill 1 4 3),
   (0x8900005C, .trap 1 23),
   (0x89000001, .rett 1),
   (0x89000AB2, .ctopen 1 684),
   (0x89000003, .ctclose 1),
   (0x8D000AB0, .segchk 1 684),
   (0x91010004, .acrange 1 4 1),
   (0x91224001, .acread 1 4 9),
   (0x91201001, .acreadSnap 1 4),
   (0x91202005, .acreadEl 1 4 1),
   (0x912000DA, .acloop 1 4 1 1 1 2),
   (0x91000003, .acclr 1),
   (0x95224024, .launch 1 4 9 9),
   (0x95200019, .qstat 1 4 6)]

def words0e : List (BitVec 32 × Instr) :=
  [(0x95202005, .qstatLs 1 4 1),
   (0x9520001A, .qprio 1 4 1 2),
   (0x9520001B, .qcancel 1 4 6),
   (0x99010000, .bankrel 1 4),
   (0x99012004, .bankrelAcc 1 4 1),
   (0x99200009, .banktst 1 4 2),
   (0x99000002, .kend 1),
   (0x99200007, .kseq 1 4 1),
   (0x9922400B, .kseqQueue 1 4 9 2),
   (0x9D200008, .gid 1 4 2),
   (0x9D224020, .gidReg 1 4 9),
   (0x9D200009, .gdim 1 4 2),
   (0x9D224021, .gdimReg 1 4 9),
   (0x9D20000A, .gbase 1 4 2),
   (0x9D224022, .gbaseReg 1 4 9),
   (0x9D200007, .gslice 1 4 1),
   (0x9D01000B, .gsliceWait 1 4),
   (0xA1010258, .barinit 1 4 2 22),
   (0xA1200005, .bararv 1 4 1),
   (0xA1200006, .bardrop 1 4 1)]

def words0f : List (BitVec 32 × Instr) :=
  [(0xA1000033, .barwait 1 12),
   (0xA5200004, .bartst 1 4 1),
   (0xA5200104, .bartstView 1 4 1),
   (0xA5010159, .colset 1 4 1 22),
   (0xA520000E, .colget 1 4 3),
   (0xA9000AB0, .chopen 1 684),
   (0xA9000AB1, .chclose 1 684),
   (0xA9201006, .chstat 1 4 1025),
   (0xA9201007, .chwin 1 4 1025),
   (0xAD224018, .pgprobe 1 4 9 6),
   (0xAD010009, .pginv 1 4 2),
   (0xAD000021, .pginvAll 1),
   (0xAD224026, .pgtouch 1 4 9 1 1),
   (0xB1224008, .lkstat 1 4 9 2),
   (0xB1224159, .lkpark 1 4 9 86),
   (0xB122415A, .lkwake 1 4 9 86),
   (0xB1224007, .lkstamp 1 4 9 1),
   (0xB5000AB0, .brk 1 684),
   (0xB5010005, .dbgmark 1 4 1),
   (0xB5000002, .trcon 1)]

def words0g : List (BitVec 32 × Instr) :=
  [(0xB5000003, .trcoff 1)]

theorem test_decode_slot0 : ∀ x ∈ words0a ++ words0b ++ words0c ++ words0d ++ words0e ++ words0f ++ words0g, decodeWord 0 x.1 = x.2 := by decide +kernel

/-- Words of slot 1. -/
def words1a : List (BitVec 32 × Instr) :=
  [(0x0534B8C0, .vadd 1 3 9 14 1 4),
   (0x0534B8C1, .vsub 1 3 9 14 1 4),
   (0x0534B8C2, .vmul 1 3 9 14 1 4),
   (0x0534B8C3, .vmulh 1 3 9 14 1 4),
   (0x0534B8C4, .vmin 1 3 9 14 1 4),
   (0x0534B8C5, .vmax 1 3 9 14 1 4),
   (0x0534B8C6, .vadds 1 3 9 14 1 4),
   (0x0534B8C7, .vsubs 1 3 9 14 1 4),
   (0x0534B8C8, .vabsd 1 3 9 14 1 4),
   (0x0534B8C9, .vand 1 3 9 14 1 4),
   (0x0534B8CA, .vor 1 3 9 14 1 4),
   (0x0534B8CB, .vxor 1 3 9 14 1 4),
   (0x0534B8CC, .vshl 1 3 9 14 1 4),
   (0x0534B8CD, .vshr 1 3 9 14 1 4),
   (0x0534B8CE, .vavg 1 3 9 14 1 4),
   (0x0534831F, .vpopc 1 3 9 6 1),
   (0x1934B8C0, .vaddScalar 1 3 9 14 1 4),
   (0x1934B8C1, .vsubScalar 1 3 9 14 1 4),
   (0x1934B8C2, .vmulScalar 1 3 9 14 1 4),
   (0x1934B8C3, .vmulhScalar 1 3 9 14 1 4)]

def words1b : List (BitVec 32 × Instr) :=
  [(0x1934B8C4, .vminScalar 1 3 9 14 1 4),
   (0x1934B8C5, .vmaxScalar 1 3 9 14 1 4),
   (0x1934B8C6, .vaddsScalar 1 3 9 14 1 4),
   (0x1934B8C7, .vsubsScalar 1 3 9 14 1 4),
   (0x1934B8C8, .vabsdScalar 1 3 9 14 1 4),
   (0x1934B8C9, .vandScalar 1 3 9 14 1 4),
   (0x1934B8CA, .vorScalar 1 3 9 14 1 4),
   (0x1934B8CB, .vxorScalar 1 3 9 14 1 4),
   (0x1934B8CC, .vshlScalar 1 3 9 14 1 4),
   (0x1934B8CD, .vshrScalar 1 3 9 14 1 4),
   (0x1934B8CE, .vavgScalar 1 3 9 14 1 4),
   (0x0934B8A0, .vfadd 1 3 9 14 1 2),
   (0x0934B8A1, .vfsub 1 3 9 14 1 2),
   (0x0934B8A2, .vfmul 1 3 9 14 1 2),
   (0x0934B8A3, .vfmin 1 3 9 14 1 2),
   (0x0934B8A4, .vfmax 1 3 9 14 1 2),
   (0x09348315, .vfabs 1 3 9 6 1),
   (0x09348316, .vfneg 1 3 9 6 1),
   (0x09348317, .vexp2 1 3 9 6 1),
   (0x09348318, .vlog2 1 3 9 6 1)]

def words1c : List (BitVec 32 × Instr) :=
  [(0x09348319, .vrcp 1 3 9 6 1),
   (0x0934831A, .vrsqrt 1 3 9 6 1),
   (0x0934831B, .vfrint 1 3 9 6 1),
   (0x1D34B8A0, .vfaddScalar 1 3 9 14 1 2),
   (0x1D34B8A1, .vfsubScalar 1 3 9 14 1 2),
   (0x1D34B8A2, .vfmulScalar 1 3 9 14 1 2),
   (0x1D34B8A3, .vfminScalar 1 3 9 14 1 2),
   (0x1D34B8A4, .vfmaxScalar 1 3 9 14 1 2),
   (0x0D34BA71, .vfma 1 3 9 14 19 4 1),
   (0x1134BA71, .vfms 1 3 9 14 19 4 1),
   (0x1534BA71, .vfnma 1 3 9 14 19 4 1),
   (0x21A4B8A5, .vcmp 1 5 9 14 1 2 5),
   (0x25A4B8A5, .vfcmp 1 5 9 14 1 2 5),
   (0x29AB0000, .mand 1 5 2 6),
   (0x29AB0001, .mor 1 5 2 6),
   (0x29AB0002, .mxor 1 5 2 6),
   (0x29AB0003, .mandn 1 5 2 6),
   (0x2D34B880, .vsel 1 3 9 14 1),
   (0x3134C341, .vcvt 1 3 9 8 6 4 1),
   (0x3535E186, .ven 1 3 11 24 6 3)]

def words1d : List (BitVec 32 × Instr) :=
  [(0x3533E187, .vde 1 3 7 6 3),
   (0x39348310, .vrsum 1 3 9 6 1),
   (0x39348311, .vrmax 1 3 9 6 1),
   (0x39348312, .vrmin 1 3 9 6 1),
   (0x39348313, .vscan 1 3 9 6 1),
   (0x3D34B880, .vperm 1 3 9 14 1),
   (0x3D34B881, .vrot 1 3 9 14 1),
   (0x3D34B882, .vbcl 1 3 9 14 1),
   (0x41349180, .vxcopy 1 3 9 2 1 4),
   (0x45340556, .vmovi 1 3 2 1366),
   (0x49340556, .vmovh 1 3 2 1366),
   (0x4D0224B0, .vget 1 4 9 22),
   (0x4D34B959, .vput 1 3 9 14 43),
   (0x4D302402, .vbcg 1 3 9)]

theorem test_decode_slot1 : ∀ x ∈ words1a ++ words1b ++ words1c ++ words1d, decodeWord 1 x.1 = x.2 := by decide +kernel

/-- Words of slot 2. -/
def words2a : List (BitVec 32 × Instr) :=
  [(0x05225AAB, .ld 1 4 9 1 1 683),
   (0x092262AB, .st 1 4 9 2 683),
   (0x15226156, .ald 1 4 9 342),
   (0x19226156, .ast 1 4 9 342),
   (0x0D348556, .vld 1 3 9 1366),
   (0x11348556, .vst 1 3 9 1366),
   (0x1D348556, .avld 1 3 9 1366),
   (0x2134C6AB, .avst 1 3 9 2 1707),
   (0x25225C60, .amo 1 4 9 14 3),
   (0x29348556, .wld 1 3 9 1366),
   (0x2D348556, .wst 1 3 9 1366),
   (0x31A48556, .fcfg 1 5 9 1366),
   (0x31B48556, .fcfgRb 1 5 9 1366),
   (0x35848556, .ocfg 1 2 9 1366),
   (0x39848000, .opush 1 2 9),
   (0x3D34C000, .popq 1 3 9 2),
   (0x3D34D200, .popqFlag 1 3 9 2 1),
   (0x41A970A0, .rst 1 5 9 14 1 1),
   (0x45A97630, .radd 1 5 9 14 1 4 1 1),
   (0x49A97195, .rget 1 5 9 14 1 2 21)]

def words2b : List (BitVec 32 × Instr) :=
  [(0x4DA9718C, .ramo 1 5 9 14 1 2 3),
   (0x51A00000, .drain 1 5),
   (0x55A00000, .fence 1 5),
   (0x592AC4A4, .chsend 1 684 9 1 1),
   (0x5D2AC600, .chrecv 1 684 6),
   (0x5D2AC6E0, .chrecvFlag 1 684 6 6),
   (0x61A97158, .hmsg 1 5 9 14 43),
   (0x65AB8000, .hset 1 5 1 14),
   (0x69228000, .hget 1 4 2 2),
   (0x6DA24000, .hadd 1 5 9),
   (0x71AB8000, .parset 1 5 1 14),
   (0x75224000, .parget 1 4 2 1)]

theorem test_decode_slot2 : ∀ x ∈ words2a ++ words2b, decodeWord 2 x.1 = x.2 := by decide +kernel

/-- Words of slot 3. -/
def words3a : List (BitVec 32 × Instr) :=
  [(0x05A96000, .mcall 1 5 1 22),
   (0x09A87000, .rowrunSmax 1 5 1 14),
   (0x09A97000, .rowrunNorm 1 5 1 14),
   (0x0DAB8000, .cpy 1 5 1 14),
   (0x11AB8000, .cpyx 1 5 1 14),
   (0x15AB8000, .cpyf 1 5 1 14),
   (0x19A24000, .dset 1 5 9),
   (0x1DA24000, .dget 1 5 9),
   (0x21800000, .ecancel 1 2),
   (0x25824000, .excset 1 2 9),
   (0x29824000, .excget 1 2 9),
   (0x2D824000, .eqstat 1 2 9)]

theorem test_decode_slot3 : ∀ x ∈ words3a, decodeWord 3 x.1 = x.2 := by decide +kernel

/-- Words that are no instruction, with their KIND (R77): an unlisted major, an unlisted type, a V source beyond the list, a bit that must be zero, and a
limit. -/
theorem test_decode_refuses : decodeSlot 0 0xF4000000 = .error 0 ∧ decodeSlot 1 0x0520C060 = .error 1 ∧ decodeSlot 1 0x052D4000 = .error 2
    ∧ decodeSlot 0 0x18280020 = .error 3 ∧ decodeSlot 0 0x68001000 = .error 5 := by and_intros <;> rfl

/-! ### Values of the spec's own examples -/

/-- Chapter 1: the global address of accumulator offset 0x1_2340 on tile (37, 102) of wafer 5. -/
theorem test_address_fields : gaWafer 0x00051000256600012340 = 5 ∧ gaSpace 0x00051000256600012340 = 1 ∧ gaTile 0x00051000256600012340 = ⟨37, 102⟩
    ∧ gaOff 0x00051000256600012340 = 0x12340 := by decide

/-- Chapter 2: exp2(0.5) and rcp(1.5). -/
theorem test_exp2_half : f32Rne (exp2F (Fmt.f32.decode 0x3F000000)) = 0x3FB504F3 := by decide +kernel
theorem test_rcp_three_halves : f32Rne (rcpF (Fmt.f32.decode 0x3FC00000)) = 0x3F2AAAAB := by decide +kernel

/-- Table 2-5: the block 6.5, -0.296875, 0.01171875, 7.984375, 2.53125 in BQ8, its exponent and its mantissas under RNE; and the scale of a block whose
largest magnitude is 1 in E4M3. -/
def tableBlock : List FVal := [.num false 13 (-1), .num true 19 (-6), .num false 3 (-8), .num false 511 (-6), .num false 81 (-5)]
theorem test_block_bq8 : bqExp tableBlock = 0x81 ∧ tableBlock.map (bqMant {} 8 0x81 0) = [0x68, 0xFB, 0, 0x7F, 0x28] := by decide +kernel
theorem test_block_mx_scale : mxScale 4 [.num false 1 0, .num true 1 (-2)] = 0x77 := by decide +kernel

/-! ### States for the witnesses -/

/-- A program of four empty bundles with its trap handler at bundle 2, about to issue in seat 0 of tile (0, 0), outside a handler. -/
def base : State := (State.reset.placeBundle 0).modWafer (fun w => { w with images := w.images.map (fun i =>
  { i with programs := i.programs.map (fun p => { p with vector := some 2 }) }) })

/-- base with a change of its context. -/
def withCtx (f : Context → Context) : State := base.modCtx f

/-- base in which the registers hold values: g1 to g4, p1 true, p2 true but poisoned, m1, v1; g5 and v2 are poisoned. -/
def held : State := withCtx (fun c => { c with regs := { c.regs with
  g := (((((c.regs.g.set 1 { val := 0x40 }).set 2 { val := 0x80000000 }).set 3 { val := 0xFFFFFFFF }).set 4 { val := 0x41 }).set 5 { val := 7, poison := true }),
  p := (c.regs.p.set 1 { val := 1 }).set 2 { val := 1, poison := true },
  m := c.regs.m.set 1 { val := 1 }, v := (c.regs.v.set 1 { val := 3 }).set 2 { val := 5, poison := true } } })

/-- held in a trap handler. -/
def handling : State := held.modCtx (fun c => { c with sys := { c.sys with inHandler := true } })

/-- held with uncorrectable errors in g6 and v3. -/
def damaged : State := held.modCtx (fun c => { c with regBad := [.g 6, .v 3] })

/-! ### Witnesses: states and operands that meet the hypotheses of the statements -/

theorem test_witness_clear : base.Clear ∧ held.Clear ∧ handling.Clear ∧ damaged.Clear := by and_intros <;> decide

theorem test_witness_predOn : base.predOn 0 ∧ held.predOn 1 ∧ ¬ base.predOn 1 ∧ ¬ held.predOn 2 := by and_intros <;> decide

theorem test_witness_ScalarFunctions : held.Clear ∧ held.predOn 1 ∧ held.filesGood [.g 2, .g 5] ∧ ¬ damaged.filesGood [.g 6] ∧ damaged.filesGood [.g 0, .g 31]
    ∧ scalarTwo.length = 23 ∧ scalarOne.length = 5 := by and_intros <;> decide

theorem test_witness_ImmediatesAndBitFields : held.Clear ∧ held.predOn 0 ∧ held.filesGood [.g 3, .g 31] ∧ scalarImm.length = 5 ∧ scalarShift.length = 3
    ∧ (31 : BitVec 5).toNat + ((0 : BitVec 5).toNat + 1) ≤ 32 ∧ (0 : BitVec 5).toNat + ((31 : BitVec 5).toNat + 1) ≤ 32 := by and_intros <;> decide

theorem test_witness_Compares : held.Clear ∧ held.predOn 1 ∧ held.filesGood [.g 2, .g 3, .p 2] ∧ setpCond.length = 11 ∧ setpCombine.length = 3 := by and_intros <;> decide

theorem test_witness_PredicateLogicAndSelect : held.Clear ∧ held.predOn 0 ∧ held.filesGood [.p 1, .p 2] ∧ held.filesGood [.g 1, .g 5, .p 7] ∧ plog.length = 3
    ∧ (∀ w ∈ [(0x48000003 : BitVec 32).toNat, (0x4BFFFFFF : BitVec 32).toNat], w / 2 ^ 26 = 0x12 ∧ w % 4 = 3) := by and_intros <;> decide

/-- held with 2 in s3 and 65535 in s4. -/
def semaphored : State := held.modCtx (fun c => { c with sems := { c.sems with s := (c.sems.s.set 3 2).set 4 65535 } })

theorem test_witness_EmptyAndReservedSlots : semaphored.Clear ∧ semaphored.ctx.sys.inHandler = false ∧ (semaphored.program.bind (·.vector)) = some 2
    ∧ (2 ≤ semaphored.ctx.sems.val 3 ∧ 1 ≤ semaphored.ctx.sems.val 4)
    ∧ ((0xFC083000 : BitVec 32).extractLsb' 19 5 ≠ 0 ∧ (0xFC003000 : BitVec 32).extractLsb' 19 5 = 0) := by and_intros <;> decide

theorem test_witness_ControlTransfers : held.Clear ∧ held.predOn 0 ∧ held.filesGood [.p 1, .g 1, .g 31] ∧ (held.reads.ctx.regs.getP 1).poison = false
    ∧ (held.reads.ctx.regs.getG 0).poison = false ∧ (held.reads.ctx.regs.getG 1).poison = false ∧ (held.reads.ctx.regs.getG 31).poison = false
    ∧ (held.reads.p 1 != ((0 : BitVec 1) == 1)) = true ∧ (held.reads.p 1 != ((1 : BitVec 1) == 1)) = false := by and_intros <;> decide

/-- Relative targets, the first and the last bundle of the window; a register target, bundle 0; g1 holds the first address past the window and g4
one that is no multiple of 16. -/
theorem test_witness_ControlTransfers_targets :
    (let t := (held.ctx.flow.pc.toNat : Int) + (0 : BitVec 20).toInt * 16; t % 16 = 0 ∧ 0 ≤ t ∧ t < 16 * held.windowLen)
    ∧ (let t := (held.ctx.flow.pc.toNat : Int) + (3 : BitVec 20).toInt * 16; t % 16 = 0 ∧ 0 ≤ t ∧ t < 16 * held.windowLen)
    ∧ (held.reads.g 0).toNat % 16 = 0 ∧ (held.reads.g 31).toNat < 16 * held.windowLen
    ∧ (held.reads.g 1).toNat % 16 = 0 ∧ 16 * held.windowLen ≤ (held.reads.g 1).toNat ∧ (held.reads.g 4).toNat % 16 ≠ 0
    ∧ held.ctx.sys.inHandler = false ∧ (held.program.bind (·.vector)) = some 2 := by and_intros <;> decide

/-- Levels 0 and 2 of a loop stand at the bundle at 0, with counts 2 and 1. -/
def looping : Flow := { loops := ((({} : Flow).loops.set 0 { active := true, start := 0, stop := 0, cnt := 2 }).set 2 { active := true, start := 0, stop := 0, cnt := 1 }) }
def loopingOnce : Flow := { loops := ({} : Flow).loops.set 0 { active := true, start := 0, stop := 0, cnt := 2 } }

theorem test_witness_LoopsAndAdvance : held.Clear ∧ held.ctx.sys.inHandler = false ∧ held.filesGood [.g 3] ∧ (held.reads.ctx.regs.getG 3).poison = false
    ∧ (held.ctx.flow.advance false none (some (Fin.ofNat 4 3, held.reads.g 3, 1))).pc.toNat < 16 * held.windowLen
    ∧ (held.ctx.flow.advance false none (some (Fin.ofNat 4 0, 0, 2))).pc.toNat < 16 * held.windowLen
    ∧ (looping.indelay = false ∧ (looping.loops[2]).active = true ∧ (looping.loops[2]).stop = looping.pc ∧ (looping.loops[2]).cnt.toNat ≤ 1
      ∧ ∀ j : Fin 4, 2 < j → looping.loops[j].active = false ∨ looping.loops[j].stop ≠ looping.pc)
    ∧ (loopingOnce.indelay = false ∧ (loopingOnce.loops[0]).active = true ∧ (loopingOnce.loops[0]).stop = loopingOnce.pc ∧ 1 < (loopingOnce.loops[0]).cnt.toNat
      ∧ ∀ j : Fin 4, 0 < j → loopingOnce.loops[j].active = false ∨ loopingOnce.loops[j].stop ≠ loopingOnce.pc)
    ∧ (∀ k : Fin 4, (({} : Flow).loops[k]).active = false) := by and_intros <;> decide

theorem test_witness_Semaphores : semaphored.Clear ∧ semaphored.predOn 0 ∧ (2 : BitVec 16).toNat ≤ semaphored.ctx.sems.val 3
    ∧ semaphored.ctx.sems.val 3 + (65533 : BitVec 16).toNat ≤ 65535 ∧ 65535 < semaphored.ctx.sems.val 4 + (1 : BitVec 16).toNat
    ∧ semaphored.ctx.sys.inHandler = false ∧ (semaphored.program.bind (·.vector)) = some 2 := by and_intros <;> decide

theorem test_witness_SystemRegisters : held.Clear ∧ held.predOn 0 ∧ (sysValues held).length = 50 ∧ held.filesGood [.g 2] ∧ (held.reads.ctx.regs.getG 2).poison = false := by and_intros <;> decide

/-- held with its context armed. -/
def armed : State := held.modCtx (fun c => { c with sys := { c.sys with armed := true } })

theorem test_witness_ParkYieldArmPrio : held.Clear ∧ held.predOn 1 ∧ held.reads.holds .parkReady = true ∧ held.ctx.sys.armed = false
    ∧ armed.Clear ∧ armed.reads.holds .parkReady = true ∧ armed.ctx.sys.armed = true := by and_intros <;> decide

/-- held with another context of the kernel, HALTED, under number 1, and one of another kernel, READY, under number 2. -/
def four : State := held.modTile (fun t => { t with ctxs := (t.ctxs.set 3 { life := { st := .halted, num := some 1 } }).set 5 { life := { st := .ready, num := some 2, kernel := 9 } } })
/-- four in which every tag is taken. -/
def full : State := held.modTile (fun t => { t with ctxs := (Vector.replicate 8 { life := { st := .saved } }).set 0 (t.ctx 0) })

theorem test_witness_ContextControl : four.Clear ∧ four.predOn 0 ∧ four.ctx.life.st = .issuing ∧ four.reads.foreign 2 = true ∧ four.reads.foreign 1 = false
    ∧ four.reads.foreign 0 = false ∧ four.filesGood [.g 0] ∧ (four.reads.ctx.regs.getG 0).poison = false ∧ (four.reads.g 0).toNat % 16 = 0
    ∧ (four.reads.g 0).toNat < 16 * four.windowLen ∧ four.tile.numbered 3 = none ∧ four.tile.freeTag = some 1 ∧ four.tile.numbered 1 = some 3
    ∧ (four.tile.ctx 3).life.st = .halted ∧ four.tile.numbered 0 = some 0
    ∧ full.Clear ∧ full.predOn 0 ∧ full.ctx.life.st = .issuing ∧ full.tile.numbered 3 = none ∧ full.tile.freeTag = none := by and_intros <;> decide

theorem test_witness_TrapAndReturn : held.Clear ∧ held.predOn 0 ∧ (held.program.bind (·.vector)) = some 2 ∧ held.ctx.sys.inHandler = false
    ∧ handling.Clear ∧ handling.predOn 0 ∧ handling.ctx.sys.inHandler = true := by and_intros <;> decide

/-- base whose program has a segment of one bundle, which the observation has just met, with another CRC, and with another length. -/
def segmented (n : BitVec 32) (c : BitVec 32) : State := (base.modWafer (fun w => { w with images := w.images.map (fun i =>
  { i with programs := i.programs.map (fun p => { p with segments := [(0, 1, 0xAA)] }) }) })).modCtx (fun x => { x with segN := n, segC := c })

theorem test_witness_ContainmentAndSegments : base.Clear ∧ base.predOn 0
    ∧ (let t := (base.ctx.flow.pc.toNat : Int) + (3 : BitVec 12).toInt * 16; t % 16 = 0 ∧ 0 ≤ t ∧ t < 16 * base.windowLen)
    ∧ (∀ s ∈ [segmented 1 0xFFFFFF55, segmented 1 0xFFFFFFFF, segmented 2 0xFFFFFF55], s.Clear ∧ s.predOn 0 ∧ s.reads.holds .segSpaced = true
        ∧ s.segments[(0 : BitVec 12).toNat]? = some (0, 1, 0xAA) ∧ s.ctx.sys.inHandler = false ∧ (s.program.bind (·.vector)) = some 2)
    ∧ (segmented 1 0xFFFFFF55).ctx.segC ^^^ 0xFFFFFFFF = 0xAA ∧ (segmented 1 0xFFFFFFFF).ctx.segC ^^^ 0xFFFFFFFF ≠ 0xAA
    ∧ (segmented 2 0xFFFFFF55).ctx.segN.toNat ≠ 1 := by and_intros <;> decide
/-- base with g1 set; with poison in g5 and an account range 5 of [1, 4) of its own. -/
def g1Is (v : BitVec 32) : State := (withCtx (fun c => { c with regs := { c.regs with g := (c.regs.g.set 1 { val := v }).set 5 { val := 7, poison := true } } })).modTile
  (fun t => { t with acct := { t.acct with ranges := t.acct.ranges.set 0 [(5, 1, 4)] } })

theorem test_witness_Accounts : (∀ s ∈ [g1Is 0x40000004, g1Is 0x00010000, g1Is 0x40004000, g1Is 0x8FFF], s.Clear ∧ s.predOn 0 ∧ s.filesGood [.g 1, .g 5]
      ∧ (s.reads.ctx.regs.getG 1).poison = false ∧ (s.reads.ctx.regs.getG 5).poison = true)
    -- ranges [4, 16384), [0, 1) and the empty [16384, 16384) beside [1, 4)
    ∧ (∀ s ∈ [g1Is 0x40000004, g1Is 0x00010000, g1Is 0x40004000],
        (s.reads.g 1).getLsbD 15 = false ∧ (s.reads.g 1).getLsbD 31 = false ∧ ((s.reads.g 1).extractLsb' 16 15).toNat ≤ 16384
        ∧ ((s.reads.g 1).extractLsb' 0 15).toNat ≤ ((s.reads.g 1).extractLsb' 16 15).toNat
        ∧ (((s.reads.g 1).extractLsb' 0 15).toNat < ((s.reads.g 1).extractLsb' 16 15).toNat → ∀ r ∈ s.tile.acct.ranges[s.tag],
            ((s.reads.g 1).extractLsb' 16 15).toNat ≤ r.2.1 ∨ r.2.2 ≤ ((s.reads.g 1).extractLsb' 0 15).toNat))
    ∧ ((g1Is 0x8FFF).reads.g 1).toNat < 0x9000
    ∧ ((g1Is 0).ctx.flow.loops[(3 : BitVec 2).toNat]'(by decide)).active = false
    ∧ handling.Clear ∧ handling.ctx.sys.inHandler = true := by and_intros <;> decide

/-- base in which launch queues 0 and 15 are OPEN to devices and queue 1 is secure. -/
def queued : State := base.modWafer (fun w => { w with queues := ((w.queues.set 0 { st := .opened, devApp := true }).set 15 { st := .stopped, devApp := true }).set 1 { st := .opened, sec := true } })

theorem test_witness_Queues : queued.Clear ∧ queued.predOn 0 ∧ queued.filesGood [.g 1] ∧ (queued.reads.ctx.regs.getG 1).poison = false
    ∧ queued.tile.readBad .spad (queued.reads.g 1).toNat 64 = false ∧ queued.tile.performedAt queued.tag 6 = true
    ∧ recMalformed (BitVec.ofNat 512 (queued.tile.read .spad (queued.reads.g 1).toNat 64)) = false
    ∧ (∀ q : Fin 16, q = 0 ∨ q = 15 → ((queued.queue q).st = .opened ∨ (queued.queue q).st = .stopped) ∧ (queued.queue q).devApp = true
        ∧ (queued.queue q).sec = queued.ctx.life.secure ∧ (queued.queue q).full = false)
    ∧ ((queued.queue 1).sec && !queued.ctx.life.secure) = true := by and_intros <;> decide

theorem test_witness_Reaches : Reaches queued .spad 0 64 64 false ∧ Reaches base .spad 0x1EFE00 512 64 true ∧ Reaches base .acc 0x3FFFC 4 4 true
    ∧ Reaches base .spad 0x1EFFE0 32 32 false := by unfold Reaches; and_intros <;> decide

theorem test_witness_KernelInstructions : (∀ s ∈ [base, g1Is 0xFFFF, g1Is 0xFFFFFFFF, g1Is 15], s.Clear ∧ s.predOn 0 ∧ s.reads.holds .kernelQuiet = true ∧ s.filesGood [.g 1]
      ∧ (s.reads.ctx.regs.getG 1).poison = false)
    ∧ ((g1Is 0xFFFF).reads.g 1).toNat < 0x10000 ∧ (∀ u ∈ maskUnits ((g1Is 0xFFFF).reads.g 1) 0 16, (g1Is 0xFFFF).tile.unitForeign 0 u = false)
    ∧ (∀ h : BitVec 1, ∀ u ∈ maskUnits ((g1Is 0xFFFFFFFF).reads.g 1) (16 + 32 * h.toNat) 32, (g1Is 0xFFFFFFFF).tile.unitForeign 0 u = false)
    ∧ (∀ g ∈ base.tile.tagsOf 0, g = base.tag) ∧ (base.tile.kernels.find? (fun e => e.kernel == 0)).isSome = true
    ∧ ((g1Is 15).reads.g 1).toNat = (15 : Fin 16).val := by and_intros <;> decide

/-- A unit of base's kernel whose zeroing has ended. -/
theorem test_witness_KernelInstructions_zeroed :
    let s : State := base.modTile (fun t => { t with kernels := [{ kernel := 0, units := [(3, .zeroing 0)] }] })
    (∃ x, s.tile.kernels = [] ++ x :: [] ∧ assocGet x.units 3 = some (.zeroing 0)) ∧ 0 ≤ s.now := ⟨⟨_, rfl, rfl⟩, by decide⟩

/-- base whose kernel has GANG 5, at CYCLE 5. -/
def ganged : State := base.modWafer (fun w => { w with cycle := 5, kernels := [{ seq := 0, image := 0, record := 5#64 ++ 0#448 }] })

theorem test_witness_Groups : (g1Is 7).Clear ∧ (g1Is 7).filesGood [.g 1, .g 5] ∧ ((g1Is 7).reads.ctx.regs.getG 1).poison = false ∧ ((g1Is 7).reads.g 1).toNat < 8
    ∧ ((g1Is 7).reads.ctx.regs.getG 5).poison = true ∧ groupReads.length = 3 ∧ ganged.Clear ∧ ganged.predOn 0
    ∧ (ganged.wafer.kernel? ganged.ctx.life.kernel).isSome = true ∧ ganged.filesGood [.g 0] ∧ (ganged.reads.ctx.regs.getG 0).poison = false ∧ ganged.gang ≠ 0
    ∧ ganged.cycle = ganged.gang + (ganged.reads.g 0).setWidth 64 := by and_intros <;> decide

/-- base whose kernel waits for GANG 5, at CYCLE 5, is held by a late start, and has its start on the tile before it. -/
def ganging (g : GroupState) (late : Bool) : State := (ganged.modWafer (fun w => { w with kernels := w.kernels.map (fun k => { k with group := g, late := late }) })).modTile (fun t =>
  { t with kernels := [{ kernel := 0 }], ctxs := Vector.replicate 8 {} })

theorem test_witness_Groups_kernels : (∀ x ∈ [(GroupState.gangWait, false), (.gangStarting, true), (.bound, false)],
      ∃ k ∈ (ganging x.1 x.2).wafer.kernel? 0, k.group = x.1 ∧ k.late = x.2 ∧ k.st = .running ∧ (recGang k.record).toNat ≤ (ganging x.1 x.2).wafer.cycle.toNat
        ∧ (x.1 = .bound ∨ k.slice (recGang k.record) = true) ∧ recContexts k.record ≤ (ganging x.1 x.2).tile.emptyNumbers.length
        ∧ recContexts k.record ≤ ((List.finRange 8).filter (fun g => ((ganging x.1 x.2).tile.ctx g).life.st == .empty)).length)
    ∧ ∃ x ∈ (ganging .bound false).tile.kernels.find? (fun x => x.kernel == 0), x.started = false ∧ (ganging .bound false).tile.mayStart x = true := by and_intros <;> decide

/-- base with the verdict of a request, and with the mirror and the view of barrier 3 at a phase. -/
def judged (fn : BitVec 2) : State := withCtx (fun c => { c with asked := { verdict := some { fn := fn, n := 3, accepted := true, phase := 9 } } })
def barred (v phase : BitVec 16) : State := base.modTile (fun t => { t with stores := { t.stores with bars := { t.stores.bars with
  kernels := [0], mirrors := [{ kernel := 0, n := 3, st := .opened, level := 7, phase := phase }], views := [{ kernel := 0, tag := 0, n := 3, v := v }] } } })

theorem test_witness_BarriersAndColours : (∀ fn : BitVec 2, fn ≠ 3 → (judged fn).Clear ∧ (judged fn).predOn 0 ∧ (judged fn).ctx.asked.barReq = none
      ∧ (judged fn).ctx.asked.verdict = some { fn := fn, n := 3, accepted := true, phase := 9 })
    ∧ (judged 0).filesGood [.g 1] ∧ ((judged 0).reads.ctx.regs.getG 1).poison = false
    ∧ (∀ s ∈ [barred 4 4, barred 3 4, barred 4 32772], s.Clear ∧ s.predOn 0 ∧ (s.mirror 3).isSome = true ∧ (s.view 3).isSome = true
        ∧ ∀ m ∈ s.mirror 3, ∀ v ∈ s.view 3, v.dropped = false ∧ m.st ≠ .uninit ∧ (v.v - m.phase = 0 ∨ 32768 ≤ (v.v - m.phase).toNat) ∧ m.level < 8) := by and_intros <;> decide

/-- base with the ends of channel 4: a send end with credit, a receive end with a window, in given states, bound or not; and a held message. -/
def channelled (st : EndState) (tag : Option Tag) (msgs : List ChanMsg) : State := (base.modTile (fun t => { t with stores := { t.stores with chans :=
  [{ kernel := 0, n := 4, send := true, win := 0, peer := ⟨1, 0⟩, peerWafer := 0xFFFF, st := st, tag := tag, credit := 4 },
   { kernel := 0, n := 4, send := false, win := 32, peer := ⟨1, 0⟩, peerWafer := 0xFFFF, st := st, tag := tag, held := msgs }] } }))

theorem test_witness_Channels : (channelled .closed none []).Clear ∧ (channelled .closed none []).predOn 0 ∧ (channelled .closed none []).myEnds 4 ≠ []
    ∧ (∀ e ∈ (channelled .closed none []).myEnds 4, e.st = .closed ∧ (e.send = false → e.win / 4 ≤ (channelled .closed none []).tile.q3Free 0))
    ∧ (channelled .opened (some 0) []).Clear ∧ (channelled .opened (some 0) []).myEnds 4 ≠ []
    ∧ (∀ e ∈ (channelled .opened (some 0) []).myEnds 4, (e.tag = none ∨ e.tag = some 0) ∧ (e.send = false → e.held = []))
    ∧ (channelled .opened (some 0) []).reads.holds (.chanSent 4) = true := by and_intros <;> decide

/-- The answer to a page instruction at virtual address 0x30000. -/
def answer (touch write : Bool) : PageAnswer := { va := 0x80000000000000030000, sec := false, touch := touch, write := write, word := 0x40000000 }
/-- base of ASID 1 whose h1 names virtual address 0x30000, with the answer of a walk. -/
def paged (touch write : Bool) : State := (base.modWafer (fun w => { w with kernels := [{ seq := 0, image := 0, asid := 1 }] })).modCtx (fun c =>
  { c with regs := { c.regs with h := c.regs.h.set 1 { val := 0x00008000000000030000 } }, asked := { pageAns := some { answer touch write with va := 0x8000000000030000 } } })

theorem test_witness_PageInstructions : (∀ x ∈ [(false, false), (true, false), (true, true)], let s := paged x.1 x.2
      s.Clear ∧ s.predOn 0 ∧ s.filesGood [.h 1, .g 0] ∧ (s.reads.ctx.regs.getH 1).poison = false ∧ (s.reads.ctx.regs.getG 0).poison = false
      ∧ s.reads.globalCheck (s.reads.h 1) (s.reads.remoteAddr 1 0) 1 1 [8] true = none ∧ s.tlbBad (hSec (s.reads.h 1)) (gaVa (s.reads.remoteAddr 1 0)) = none
      ∧ s.ownWafer (s.reads.remoteAddr 1 0) = true ∧ s.wafer.heldPinned s.asid s.ctx.life.secure (gaVa (s.reads.remoteAddr 1 0)) = false ∧ s.asid ≠ 0
      ∧ ∀ a ∈ s.ctx.asked.pageAns, a.va = s.reads.remoteAddr 1 0 ∧ a.sec = hSec (s.reads.h 1) ∧ a.cause = 0 ∧ a.touch = x.1 ∧ a.write = x.2) := by and_intros <;> decide

/-- paged whose h1 names another wafer. -/
theorem test_witness_PageInstructions_far :
    let s : State := (paged false false).modCtx (fun c => { c with regs := { c.regs with h := c.regs.h.set 1 { val := 0x00078000000000030000 } } })
    s.Clear ∧ s.predOn 0 ∧ s.filesGood [.h 1, .g 0] ∧ (s.reads.ctx.regs.getH 1).poison = false ∧ s.ownWafer (s.reads.remoteAddr 1 0) = false
      ∧ s.reads.globalCheck (s.reads.h 1) (s.reads.remoteAddr 1 0) 1 1 [8] true = none := by and_intros <;> decide

/-- g1Is with a port in a state, with its wavelengths, open to devices or secure, its stamps exchanged. -/
def ported (n : Fin 64) (st : PortSt) (waves : List (Fin 8 × WaveSt)) (sec : Bool) : State := (g1Is (BitVec.ofNat 32 n.val)).modPort n (fun p =>
  { p with st := st, stampDone := true, regs := { p.regs with devctl := true, sec := sec },
           waves := waves.foldl (fun v e => v.set e.1.val { st := e.2 } e.1.isLt) p.waves })

theorem test_witness_LinkInstructions : (∀ x ∈ [(63, PortSt.active, false), (0, .degraded, false), (0, .dark, false), (63, .active, true)],
      let s := ported x.1 x.2.1 [(0, .active), (1, .active), (2, .parked), (3, .litIdle)] x.2.2
      s.Clear ∧ s.predOn 0 ∧ s.filesGood [.g 1] ∧ (s.reads.ctx.regs.getG 1).poison = false ∧ (s.reads.g 1).toNat = x.1.val
      ∧ (s.port x.1).st = x.2.1 ∧ (s.port x.1).regs.devctl = true ∧ (s.port x.1).regs.sec = x.2.2 ∧ s.ctx.life.secure = false ∧ (s.port x.1).stampDone = true)
    ∧ (let p := (ported 63 .active [(0, .active), (1, .active), (2, .parked), (3, .litIdle)] false).port 63
       (1 : BitVec 8) &&& p.maskOf [.active] ≠ p.maskOf [.active] ∧ 0x0C &&& p.maskOf [.parked, .litIdle] = 0x0C) := by and_intros <;> decide

/-- base with holds allowed in the non-secure world, with a secure trace, and with both. -/
def debugged (dbgen : BitVec 2) (tctl : BitVec 32) : State := (base.modWafer (fun w => { w with dbg := { w.dbg with dbgen := dbgen } })).modTile (fun t =>
  { t with dbg := { t.dbg with tctl := tctl } })

theorem test_witness_DebugInstructions : (∀ s ∈ [debugged 1 0, debugged 2 0, debugged 0 0x20000000], s.Clear ∧ s.predOn 0 ∧ s.ctx.sys.inHandler = false
      ∧ (s.program.bind (·.vector)) = some 2 ∧ s.ctx.life.secure = false ∧ s.filesGood [.g 1] ∧ (s.reads.ctx.regs.getG 1).poison = false)
    ∧ (debugged 1 0).wafer.dbg.dbgen.getLsbD 0 = true ∧ (debugged 2 0).wafer.dbg.dbgen.getLsbD 0 = false
    ∧ (debugged 1 0).tile.dbg.tctl.getLsbD 29 = false ∧ (debugged 0 0x20000000).tile.dbg.tctl.getLsbD 29 = true := by and_intros <;> decide

/-! ### Vector, memory and engine slots -/

/-- Whether a feed can give a vector. -/
def gives (p : Feed) (now : Nat) : Bool := p.active && (match p.held with | v :: _ => decide (v.due ≤ now) | [] => false)

theorem fed_of {s : State} {as : List (BitVec 5)} {rs : List RegRef} (h : s.Clear) (g : s.filesGood (as.flatMap srcRegs ++ rs))
    (f : ∀ f ∈ as.flatMap srcPops, gives s.ctx.feeds[f] s.now = true) : Fed s as rs := by
  refine ⟨h, g, fun i hi => ?_⟩
  have := f i hi
  rw [gives, Bool.and_eq_true] at this
  revert this
  cases (s.ctx.feeds[i]).held with
  | nil => exact fun h => absurd h.2 Bool.false_ne_true
  | cons v vs => exact fun h => ⟨h.1, v, vs, rfl, of_decide_eq_true h.2⟩

/-- held whose feeds 0 and 7 are ACTIVE and hold a vector that can be popped; that of feed 7 is poisoned. -/
def feeding : State := held.modCtx (fun c => { c with feeds := (c.feeds.set 0 { active := true, held := [{ val := 9 }] }).set 7 { active := true, held := [{ val := 8, poison := true }, { val := 6 }] } })

theorem test_witness_VectorIntegers : feeding.predOn 1 ∧ Fed feeding [1, 16] [.m 1] ∧ Fed feeding [23, 23] [.m 0] ∧ Fed feeding [24, 25] [.m 7] ∧ Fed feeding [2] [.g 5, .m 1] :=
  ⟨by decide, fed_of (by decide) (by decide) (by decide), fed_of (by decide) (by decide) (by decide), fed_of (by decide) (by decide) (by decide),
   fed_of (by decide) (by decide) (by decide)⟩
theorem test_witness_VectorIntegers_lists : vectorInts.length = 12 ∧ vectorLogic.length = 3 ∧ intTypes.length = 6 ∧ (feeding.ctx.feeds[(7 : Fin 8)]).held ≠ [] := by and_intros <;> decide
theorem test_witness_VectorFloats : Fed feeding [1, 16] [.m 1] ∧ Fed feeding [2] [.g 5, .m 0] ∧ Fed feeding [25] [.m 7] ∧ Fed feeding [16, 23, 16] [.m 1] :=
  ⟨fed_of (by decide) (by decide) (by decide), fed_of (by decide) (by decide) (by decide), fed_of (by decide) (by decide) (by decide),
   fed_of (by decide) (by decide) (by decide)⟩

theorem test_witness_VectorMasks : feeding.predOn 1 ∧ Fed feeding [23, 15] [.m 7] ∧ feeding.filesGood [.m 0, .m 7] :=
  ⟨by decide, fed_of (by decide) (by decide) (by decide), by decide⟩

/-- One source register and a group of two, four and eight; a destination group of one and of eight. -/
theorem test_witness_VectorConversions : feeding.predOn 0 ∧ Fed feeding [16] [.m 1] ∧ (venIn 0 0 ≤ 1 → Fed feeding [1, 24] [])
    ∧ Fed feeding [24] (groupRegs 8 8) ∧ Fed feeding [] (groupRegs 0 8) :=
  ⟨by decide, fed_of (by decide) (by decide) (by decide), fun _ => fed_of (by decide) (by decide) (by decide), fed_of (by decide) (by decide) (by decide),
   fed_of (by decide) (by decide) (by decide)⟩

theorem test_witness_VectorMoves : feeding.predOn 1 ∧ Fed feeding [23] [.m 1] ∧ Fed feeding [1, 16] [.m 0] ∧ Fed feeding [2] [] ∧ Fed feeding [16] [.g 5]
    ∧ feeding.filesGood [.m 7] ∧ feeding.filesGood [.g 31] ∧ reductions.length = 4 ∧ floatReductions.length = 4 :=
  ⟨by decide, fed_of (by decide) (by decide) (by decide), fed_of (by decide) (by decide) (by decide), fed_of (by decide) (by decide) (by decide),
   fed_of (by decide) (by decide) (by decide), by decide, by decide, rfl, rfl⟩

/-- g1Is of a kernel that may write the weight store. -/
def weighing (v : BitVec 32) : State := (g1Is v).modWafer (fun w => { w with images := w.images.map (fun i => { i with writeMode := true }) })

/-- The first and the last bytes of each memory that a program may reach, and an address with a negative offset. -/
theorem test_witness_LocalAccesses : (g1Is 0).Clear ∧ (g1Is 0).predOn 0 ∧ (g1Is 0).filesGood [.g 1] ∧ ((g1Is 0).reads.ctx.regs.getG 1).poison = false
    ∧ Reaches (g1Is 0) .spad (localEa (g1Is 0) 1 (0 : BitVec 11)) 1 1 false ∧ Reaches (g1Is 0x1F0000) .spad (localEa (g1Is 0x1F0000) 1 (-4 : BitVec 11)) 4 4 false
    ∧ Reaches (g1Is 0x3FFFC) .acc (localEa (g1Is 0x3FFFC) 1 (0 : BitVec 11)) 4 4 false ∧ Reaches (g1Is 0x1F0000) .spad (localEa (g1Is 0x1F0000) 1 (-512 : BitVec 15)) 512 64 false
    ∧ Reaches (g1Is 0x3FE00) .acc (localEa (g1Is 0x3FE00) 1 (0 : BitVec 13)) 512 64 false
    ∧ Reaches (g1Is 0xFFFE00) .wst ((g1Is 0xFFFE00).reads.g 1 + (0 : BitVec 15).setWidth 32).toNat 512 64 false
    ∧ ((g1Is 0).reads.ctx.regs.getG 5).poison = true ∧ (g1Is 0).filesGood [.g 5] ∧ (g1Is 0).ctx.remote.acquire = none := by
  unfold Reaches; and_intros <;> decide

theorem test_witness_LocalAccesses_stores : cleanG (weighing 0x1F0000) 1 ∧ (weighing 0x1F0000).tile.mem.wf = true ∧ (weighing 0x1F0000).Clear
    ∧ Reaches (weighing 0x1F0000) .spad (localEa (weighing 0x1F0000) 1 (-2 : BitVec 11)) 2 2 true
    ∧ Reaches (weighing 0) .acc (localEa (weighing 0) 1 (0 : BitVec 11)) 4 4 true ∧ (weighing 0).filesGood [.v 15] ∧ ((weighing 0).reads.ctx.regs.getV 15).poison = false
    ∧ Reaches (weighing 0x1F0000) .spad (localEa (weighing 0x1F0000) 1 (-512 : BitVec 15)) 512 64 true
    ∧ Reaches (weighing 0x3FE00) .acc (localEa (weighing 0x3FE00) 1 (0 : BitVec 13)) 512 64 true
    ∧ Reaches (weighing 0xFFFE00) .wst ((weighing 0xFFFE00).reads.g 1 + (0 : BitVec 15).setWidth 32).toNat 512 64 true := by
  unfold Reaches; and_intros <;> decide

theorem test_witness_Atomics : (g1Is 0x3FFFC).Clear ∧ cleanG (g1Is 0x3FFFC) 1 ∧ cleanG (g1Is 0x3FFFC) 31 ∧ cleanG (g1Is 0x3FFFC) (31 + 1) ∧ (g1Is 0x3FFFC).tile.mem.wf = true
    ∧ (5 : BitVec 4).toNat ≤ 5 ∧ (∀ o ∈ (g1Is 0x3FFFC).tile.opsOf (g1Is 0x3FFFC).tag, o.kind = .ramo → o.ord = 0)
    ∧ Reaches (g1Is 0x3FFFC) .acc ((g1Is 0x3FFFC).reads.g 1).toNat 4 4 true := by unfold Reaches; and_intros <;> decide

/-- A linear walk of two vectors from 0 with a signal to s3, and a rebuild block of one row of one block. -/
def walkBlock : BitVec 256 := BitVec.ofNat 256 (2 * 2 ^ 32 + 0x200 * 2 ^ 96 + 0x83000000 * 2 ^ 224)
def rebuildBlock : BitVec 256 := BitVec.ofNat 256 (0x1000 * 2 ^ 32 + 0x2000 * 2 ^ 64 + (1 + 2 ^ 16) * 2 ^ 96 + 0x00800000 * 2 ^ 128)

/-- g1Is with a block in the scratchpad at 64. -/
def blocked (b : BitVec 256) : State := (g1Is 64).modTile (fun t => t.write .spad 64 32 b.toNat)

theorem test_witness_Ports : (blocked walkBlock).Clear ∧ (blocked walkBlock).predOn 0 ∧ cleanG (blocked walkBlock) 1 ∧ localEa (blocked walkBlock) 1 (0 : BitVec 15) = 64
    ∧ Reaches (blocked walkBlock) .spad 64 32 32 false ∧ (blocked walkBlock).tile.readBad .spad 64 32 = false
    ∧ walkOk (BitVec.ofNat 256 ((blocked walkBlock).tile.read .spad 64 32)) = true ∧ (blocked walkBlock).walkForeign walkBlock = false
    ∧ rebuildOk (BitVec.ofNat 256 ((blocked rebuildBlock).tile.read .spad 64 32)) = true ∧ (blocked rebuildBlock).rebuildForeign rebuildBlock = false
    ∧ (∀ o : Fin 4, ((blocked walkBlock).ctx.outlets[o]).buf = []) := by unfold Reaches; and_intros <;> decide

/-- feeding with outlet 2 in its walk, and with a mark and a vector in result queues 0 and 3. -/
def pushing : State := feeding.modCtx (fun c => { c with outlets := c.outlets.set 2 { active := true, block := walkBlock, pushed := 1, buf := [0] }, rq := (c.rq.set 0 [markEntry 5]).set 3 [{ word := 0x20000000, data := some 7 }] })

theorem test_witness_PushAndPop : Fed pushing [16] [] ∧ cleanV pushing 16 ∧ pushing.ctx.remote.acquire = none ∧ (pushing.ctx.outlets[(2 : Fin 4)]).active = true
    ∧ (pushing.ctx.outlets[(2 : Fin 4)]).pushed < walkTotal (pushing.ctx.outlets[(2 : Fin 4)]).block ∧ (pushing.ctx.outlets[(2 : Fin 4)]).buf.length < 2
    ∧ pushing.ctx.rq[(0 : Fin 4)] = [markEntry 5] ∧ pushing.ctx.rq[(1 : Fin 4)] = [] ∧ (markEntry 5).word.getLsbD 30 = false
    ∧ pushing.ctx.rq[(3 : Fin 4)] = [{ word := 0x20000000, data := some 7 }] := by
  refine ⟨fed_of (by decide) (by decide) (by decide), ⟨by decide, ?_⟩, by decide, by decide, by decide, by decide, by decide, by decide, by decide, by decide⟩
  intro f hf v vs h
  have e0 : f = 0 := by clear h v vs; revert f; decide
  subst e0
  have e : (pushing.ctx.feeds[(0 : Fin 8)]).held = [{ val := 9 }] := by decide
  rw [e] at h; cases h; rfl

theorem test_witness_AddressRegisters : held.Clear ∧ held.predOn 1 ∧ held.filesGood [.g 5, .h 7, .x 7] := by decide

/-- feeding on a grid of one row, of a kernel with ASID 1; h1 names the scratchpad of tile (0, 0), h2 its accumulator store, h3 virtual addresses. -/
def remote : State := (feeding.modWafer (fun w => { w with gridH := 1, kernels := [{ seq := 0, image := 0, asid := 1 }] })).modCtx (fun c =>
  { c with regs := { c.regs with h := ((c.regs.h.set 1 { val := 0xFFFF0000000000000000 }).set 2 { val := 0xFFFF1000000000000000 }).set 3 { val := 0x00008000000000000000 } } })

theorem test_witness_RemoteOperations : remote.Clear ∧ remote.predOn 0 ∧ cleanG remote 0 ∧ cleanG remote 1 ∧ cleanG remote 2 ∧ remote.filesGood [.h 1, .h 2, .h 3]
    ∧ (remote.reads.ctx.regs.getH 1).poison = false ∧ Sends remote 1 ∧ Sends remote 64
    ∧ remote.reads.globalCheck (remote.reads.h 1) 0xFFFF0000000000000000 512 64 [0, 1, 8] false = none
    ∧ remote.reads.globalCheck (remote.reads.h 2) 0xFFFF1000000000000000 512 512 [1] false = none
    ∧ remote.reads.globalCheck (remote.reads.h 3) 0x00008000000000000000 (512 * 64) 64 [0, 1, 2, 8] false = none
    ∧ remote.reads.globalCheck (remote.reads.h 2) 0xFFFF1000000000000040 4 4 [1, 8] false = none
    ∧ remote.ctx.remote.acquire = none ∧ remote.tile.performedAt remote.tag 7 = true ∧ remote.ctx.remote.failed = [] ∧ remote.ctx.outletsWritten = true := by
  unfold Sends; and_intros <;> decide

theorem test_witness_ChannelSendAndReceive : (channelled .opened (some 0) [{ data := 5, poison := true }]).Clear
    ∧ (∀ b : Bool, ∀ e ∈ (channelled .opened (some 0) [{ data := 5, poison := true }]).tile.chanEnd 0 4 b, e.st = .opened ∧ e.tag = some 0 ∧ (b = true → 4 ≤ e.credit))
    ∧ ((channelled .opened (some 0) []).tile.chanEnd 0 4 false).isSome = true ∧ ((channelled .opened (some 0) []).tile.chanEnd 0 4 true).isSome = true
    ∧ Sends (channelled .opened (some 0) []) 1 ∧ Fed (channelled .opened (some 0) []) [24] [] :=
  ⟨by decide, by decide, by decide, by decide, by unfold Sends; decide, fed_of (by decide) (by decide) (by decide)⟩

/-- g1Is whose image has an entry 9; its g1 names a block of 32 bytes in the scratchpad. -/
def engined (b : BitVec 256) : State := (blocked b).modWafer (fun w => { w with images := w.images.map (fun i => { i with micro := [0, 0], entries := [(9, 1)] }) })

/-- A row block of one row of 16 elements from 0 to 0x1000, a copy of one beat, and one to external memory through handle 1. -/
def rowBlock : BitVec 256 := BitVec.ofNat 256 (0x1000 * 2 ^ 32 + 0x10010 * 2 ^ 64)
def copyBlock : BitVec 256 := BitVec.ofNat 256 (0x1000 * 2 ^ 32 + 64 * 2 ^ 64 + 2 ^ 96)
def externalBlock : BitVec 256 := BitVec.ofNat 256 (0x60000000 * 2 ^ 32 + 64 * 2 ^ 64 + 2 ^ 96 + 0x10000 * 2 ^ 192)
/-- engined with the external block, for ASID 1, with a writable handle 1 of 4096 bytes at 0. -/
def handled : State := (engined externalBlock).modWafer (fun w => { w with kernels := [{ seq := 0, image := 0, asid := 1 }], ext := w.ext.writeNat 32 32 32 (0x1000 * 2 ^ 64 + 0xC0010000 * 2 ^ 128) })

theorem test_witness_EngineSlot_blocks : (engined rowBlock).reads.blockCmdCheck .smax 64 = none ∧ (engined rowBlock).reads.blockCmdCheck .norm 64 = none
    ∧ (engined copyBlock).reads.blockCmdCheck .cpy 64 = none ∧ (engined copyBlock).reads.blockCmdCheck .cpyf 64 = none
    ∧ handled.reads.blockCmdCheck .cpyx 64 = none ∧ handled.Clear
    ∧ (((handled.wafer.imageOf handled.ctx.life.kernel).bind (fun m => m.entry? (9 : BitVec 7).toNat))).isSome = true := by and_intros <;> decide

theorem test_witness_EngineSlot : (engined walkBlock).Clear ∧ (engined walkBlock).predOn 0
    ∧ (engined walkBlock).filesGood ((List.finRange 8).map (fun k => .x (BitVec.ofNat 3 k.val))) ∧ (engined walkBlock).reads.xPoison = false
    ∧ (engined walkBlock).tile.mx.queue.length < 16 ∧ (engined walkBlock).tile.row.queue.length < 8 ∧ (engined walkBlock).tile.cpy.queue.length < 16
    ∧ cleanG (engined walkBlock) 1 ∧ Reaches (engined walkBlock) .spad ((engined walkBlock).reads.g 1).toNat 32 32 false := by
  unfold Reaches; and_intros <;> decide
/-! ### The engines and the ports at work -/

/-- The tile of every witness. -/
def here : TileId := ⟨0, 0⟩

/-- A matrix command of tag 0 and its routine, at index 0 and ready to fetch. -/
def mcmd (order : Nat) (pr : BitVec 2) : MatrixCmd :=
  { tag := 0, kernel := 0, dep := 0, xs := Vector.replicate 8 0, fpc := 0, srstep := 0, pr := pr, idx := 9, pc := 0, enq := 0, order := order, region := false }
def routine (loops : List (Nat × Nat)) : MatrixRun := { cmd := mcmd 0 0, rt := { loops := loops }, started := 0, fetchAt := 0 }

/-- base with a matrix engine whose image holds entry 9 at a STREAM. -/
def matrix (run : Option MatrixRun) (queue : List MatrixCmd) (saved : List SavedRoutine) : State := (base.modTile (fun t =>
  { t with mx := { t.mx with run := run, queue := queue, saved := saved } })).modWafer (fun w => { w with images := w.images.map (fun i =>
    { i with micro := [0x20A0000100000000, 0], entries := [(9, 0)] }) })

theorem test_witness_Microinstructions : (∀ l ∈ [[], [(1, 1)], [(1, 2), (0, 5)]], let r := routine l
      ((matrix (some r) [] []).focus here).tile.mx.run = some r ∧ (∀ n ∈ [0, 1], r.leave ≠ .requested n) ∧ r.fetchAt ≤ ((matrix (some r) [] []).focus here).now
      ∧ r.fault = none ∧ r.saving = none ∧ r.restoring = none ∧ r.rt.loops.length < 4
      ∧ r.outs = [] ∧ r.stream = none ∧ r.load = none ∧ r.loadFree ≤ (matrix (some r) [] []).now ∧ r.arrayFree ≤ (matrix (some r) [] []).now ∧ r.marked = false)
    ∧ ((matrix (some (routine [])) [] []).tile.ctx 0).rq[(0 : Fin 4)].length < 8 ∧ (matrix (some (routine [])) [] []).tile.pushes = []
    ∧ (7 : BitVec 16).toNat < 8 := by and_intros <;> decide

theorem test_witness_Fetching : Fetching ((matrix (some (routine [])) [] []).focus here) (routine []) :=
  ⟨by decide, fun _ => by simp [routine], by decide, by decide, by decide, by decide⟩

/-- 128 columns of a dual L2 tile from the scratchpad, 64 of a sparse one, and 64 of an L15 tile from the weight store. -/
theorem test_witness_Microinstructions_loadw :
    (∀ x ∈ [({ memsel := false, base := 0, wl := 0, sp := 0, dw := true, nc := 127 } : LoadSource), { memsel := false, base := 64, wl := 2, sp := 1, dw := false, nc := 63 },
        { memsel := true, base := 0xFF0000, wl := 13, sp := 0, dw := false, nc := 63 }],
      (x.dw = true → x.wl.toNat ≤ 2 ∨ x.wl = 16 ∨ x.wl = 17) ∧ x.nc.toNat < (if x.dw = true then 128 else if layBits x.wl = 16 then 32 else 64)
      ∧ (x.sp ≠ 0 → x.dw = false ∧ layBits x.wl ≠ 16) ∧ x.base.toNat % 64 = 0
      ∧ (matrix (some (routine [])) [] []).rangeOk 0 (if x.memsel then .wst else .spad) x.base.toNat (x.csz * (x.nc.toNat + 1)) = true)
    ∧ (∀ m ∈ (matrix (some (routine [])) [] []).wafer.imageOf 0, m.writeMode = false)
    ∧ (∀ b ∈ banksOf .wst 0xFF0000 61440, (matrix (some (routine [])) [] []).tile.life.wssec.toNat.testBit b = false) := by and_intros <;> decide

theorem test_witness_Microinstructions_stream : (let u := (matrix (some (routine [])) [] []).focus here
      u.overtaken (routine []) = false ∧ streamFormat 0 0 u.tile.mx.nextActive 0 0 = true ∧ streamFormat 1 4 u.tile.mx.nextActive 0 0 = true ∧ streamFormat 2 4 u.tile.mx.nextActive 0 0 = true
      ∧ u.rangeOk 0 .spad 0 512 = true ∧ u.rangeOk 0 .acc 0 0x20000 = true ∧ u.rangeOk 0 .spad 0x1EFE00 512 = true
      ∧ (routine []).oDirty = false) := by and_intros <;> decide

theorem test_witness_EngineCommands_start : (let u := (matrix none [mcmd 0 0, mcmd 1 3] []).focus here
      u.tile.mx.run = none ∧ u.tile.resumesFirst u.now = false ∧ u.tile.nextMatrixCmd u.now = some (mcmd 1 3)) := by and_intros <;> decide

theorem test_witness_EngineCommands_save : (let u := (matrix (some (routine [])) [mcmd 1 3] []).focus here
      u.tile.mx.run = some (routine []) ∧ (u.nextWord (routine [])).bind decodeMicro = some (.stream 0 1 2 0 2 0 0 0 0) ∧ u.overtaken (routine []) = true
      ∧ u.arrayReady (routine []) = true ∧ (routine []).rt.skip = 0) := by and_intros <;> decide

/-- A routine in a save slot. -/
def saved0 : SavedRoutine := { cmd := mcmd 0 1, rt := { prio := 1 }, activeSrc := none, shadowSrc := none, since := 0, ran := 5 }

theorem test_witness_EngineCommands_resume : (let u := (matrix none [mcmd 1 1] [saved0]).focus here
      u.tile.mx.run = none ∧ u.tile.resumesFirst u.now = true ∧ u.tile.nextSaved u.now = some saved0) := by and_intros <;> decide

/-- A block command of tag 0, with a mark and a signal; its engine about to start it, and having run it for a number of cycles. -/
def bcmd (f : BlockForm) : BlockCmd := { form := f, tag := 0, kernel := 0, dep := 0x84000000, fpc := 0, srstep := 0, pr := 0, block := (copyBlock ||| (0x80000005#32 ++ (0#224))), pc := 0, enq := 0, order := 0, region := false }
def blockEngine (copy : Bool) (f : BlockForm) (run : Option Nat) (fault : Option (BitVec 8 × Nat × Nat)) : State :=
  let e : BlockEngine := match run with | none => { queue := [bcmd f] } | some n => { run := some { cmd := bcmd f, started := n, fault := fault, doneAt := some 30 } };
  { base with now := 400, tile := base.tile.setBlockEngine copy e }

theorem test_witness_EngineCommands_blocks : (∀ x ∈ [(false, BlockForm.smax), (true, .cpy)],
      (let u := (blockEngine x.1 x.2 none none).focus here
       u.tile.nextBlockCmd x.1 u.now = some (bcmd x.2) ∧ (bcmd x.2).enq < u.now)
      ∧ (let u := (blockEngine x.1 x.2 (some 1) none).focus here
         (u.tile.blockEngine x.1).run = some { cmd := bcmd x.2, started := 1, doneAt := some 30 }
         ∧ u.blockDone { cmd := bcmd x.2, started := 1, doneAt := some 30 } = true ∧ u.tile.pushes = []
         ∧ (u.tile.ctx 0).rq[(1 : Fin 4)].length < 8 ∧ (u.tile.ctx 0).rq[(2 : Fin 4)].length < 8)
      ∧ (let u := (blockEngine x.1 x.2 (some 1) (some (0x54, 0, 0))).focus here
         (u.tile.blockEngine x.1).run = some { cmd := bcmd x.2, started := 1, fault := some (0x54, 0, 0), doneAt := some 30 })) := by decide

/-- The engine watchdog at 1 cycle, with commands that have run for more. -/
def watched : State := (matrix (some (routine [])) [] []).modWafer (fun w => { w with host := { w.host with ewdog := 1 } })

theorem test_witness_EngineCommands_watchdog : watched.wafer.host.ewdog ≠ 0 ∧ (watched.focus here).tile.mx.run = some (routine [])
    ∧ watched.wafer.host.ewdog.toNat < (watched.focus here).now - (routine []).started + (routine []).ran
    ∧ ((matrix (some { routine [] with fault := some (0x42, 0, 0) }) [] []).focus here).tile.mx.run = some { routine [] with fault := some (0x42, 0, 0) } := by and_intros <;> decide

/-- A request of the matrix engine at the head of the FIFO of reticle 0, made in cycle 0, with all but its budget granted; and one that has waited too long. -/
def leaving (lim : BitVec 32) : State := (matrix (some { routine [] with leave := .requested 0 }) [] []).modPower 0 (fun p =>
  { p with fifo := [(here, 14, 0)], held := [(⟨3, 3⟩, 5026)], leaveto := lim })

theorem test_witness_EngineCommands_leave : (let p := ((leaving 0x100000).wafer.cruise.reticles[(0 : Fin 96)]).power
      p.throttle = false ∧ p.noLeave = false ∧ p.fifo = [(here, 14, 0)] ∧ 0 < (leaving 0x100000).now ∧ 14 + (p.held.map (·.2)).sum ≤ p.budget)
    ∧ ((leaving 1).focus here).tile.mx.run = some { routine [] with leave := .requested 0 }
    ∧ 0 + (((leaving 1).focus here).wafer.cruise.reticles[((leaving 1).focus here).reticleId]).power.leaveto.toNat < ((leaving 1).focus here).now := by and_intros <;> decide

/-- base with feed 0 and outlet 0 in the last vector of a walk of two. -/
def working : State := withCtx (fun c => { c with feeds := c.feeds.set 0 { active := true, block := walkBlock, i0 := 1, read := 1 }, outlets := c.outlets.set 0 { active := true, block := walkBlock, i0 := 1, pushed := 2, written := 1, buf := [7] } })

theorem test_witness_PortsAtWork : (let u := (working.focus here).focusTag 0
      (u.ctx.feeds[(0 : Fin 8)]).readAt ≤ u.now ∧ u.ctx.life.st.latched = false ∧ (u.ctx.feeds[(0 : Fin 8)]).active = true ∧ (u.ctx.feeds[(0 : Fin 8)]).held.length < 2
      ∧ (u.ctx.feeds[(0 : Fin 8)]).read < (u.ctx.feeds[(0 : Fin 8)]).total ∧ (let r := (u.ctx.feeds[(0 : Fin 8)]).beatRange (u.ctx.feeds[(0 : Fin 8)]).beats; u.portServed u.ctx.life.kernel r.1 r.2 false = true)
      ∧ (u.ctx.outlets[(0 : Fin 4)]).buf = [7] ∧ (u.ctx.outlets[(0 : Fin 4)]).writeAt ≤ u.now
      ∧ u.portServed u.ctx.life.kernel (0x200 + 64 * (u.ctx.outlets[(0 : Fin 4)]).beats) 64 true = true
      ∧ (walkAddr (u.ctx.outlets[(0 : Fin 4)]).block 1 0 0 0).toNat = 0x200 ∧ u.tile.mem.wf = true) := by and_intros <;> decide

/-- base with an entry that has waited 65,536 cycles for result queue 0 of tag 0. -/
def overdue : State := { base with now := 65540, tile := { base.tile with pushes := [{ tag := 0, q := 0, entry := markEntry 1, since := 4 }] } }

theorem test_witness_PortsAtWork_overflow : (∃ p ∈ (overdue.focus here).tile.pushes, p.tag = 0 ∧ p.told = false ∧ p.since + 65536 ≤ overdue.now)
    ∧ ((overdue.focus here).focusTag 0).ctx.life.st = .issuing ∧ ((overdue.focus here).focusTag 0).ctx.life.deferred = none := by and_intros <;> decide
/-! ### Contexts between bundles -/

/-- base with other contexts in tags 1 and 2, seats as given. -/
def seated (seat1 : Option Tag) (a b : Life) (prioA prioB : BitVec 2) : State := base.modTile (fun t => { t with
  ctxs := (t.ctxs.set 1 { life := a, sys := { prio := prioA } }).set 2 { life := b, sys := { prio := prioB } },
  core := { t.core with seats := t.core.seats.set 1 (seat1.map (fun k => { tag := k, since := 0 })) } })

/-- An empty seat 1 with two READY contexts; two seats taken with a better READY context waiting. -/
theorem test_witness_SeatsAndStarts_seats :
    (let u := (seated none { st := .ready, num := some 1 } { st := .ready, num := some 2 } 0 3).focus here
     u.tile.core.seats[(1 : Fin 2)] = none ∧ 1 ∉ u.tile.core.log.vacated ∧ u.tile.bestOf u.tile.waiting = some 2)
    ∧ (let u := (seated (some 1) { st := .issuing, num := some 1 } { st := .ready, num := some 2 } 1 2).focus here
       u.tile.core.seats[(0 : Fin 2)] = some { tag := 0, since := 0 } ∧ u.tile.core.seats[(1 : Fin 2)] = some { tag := 1, since := 0 }
       ∧ u.tile.bestOf u.tile.waiting = some 2 ∧ (u.tile.ctx 0).life.st = .issuing ∧ (u.tile.ctx 0).sys.prio < (u.tile.ctx 2).sys.prio
       ∧ ((u.tile.ctx 1).rank < (u.tile.ctx 0).rank ∨ (u.tile.ctx 2).sys.prio ≤ (u.tile.ctx 1).sys.prio)) := by and_intros <;> decide

/-- A BLOCKED context whose wait has come, one whose YIELD has come, and a handler start for a DORMANT, ARMED one. -/
def starting : State := (base.modTile (fun t => { t with
  ctxs := ((t.ctxs.set 1 { life := { st := .blocked, num := some 1, waits := [.sem 3 0] } }).set 2 { life := { st := .blocked, num := some 2, yieldUntil := some 0 } }).set 3
    { life := { st := .dormant, num := some 3 }, sys := { armed := true } },
  stores := { t.stores with handlers := [{ kernel := 0, pc := 16, g1 := 1, g2 := 2, g3 := 3, g4 := 4, serial := 7 }, { kernel := 0, pc := 16, g1 := 1, g2 := 2, g3 := 3, g4 := 4, serial := 8 }] } }))

theorem test_witness_SeatsAndStarts_starts :
    (let v := (starting.focus here).focusTag 1
     v.ctx.life.st = .blocked ∧ v.ctx.life.yieldUntil = none ∧ ∀ w ∈ v.ctx.life.waits, v.clears w = true)
    ∧ (let v := (starting.focus here).focusTag 2
       v.ctx.life.st = .blocked ∧ v.ctx.life.yieldUntil = some 0 ∧ 0 ≤ v.cycle)
    ∧ (let u := starting.focus here
       (∃ h ∈ u.tile.stores.handlers.head?, h.ready = true ∧ h.since < u.now ∧ h.serial = 7) ∧ u.tile.handlerFor 0 = some 3
       ∧ ∀ x ∈ u.tile.stores.handlers.tail, x.serial ≠ 7) := by and_intros <;> decide

/-- base with a deferred trap; with a containment recovery to take. -/
def causing : State := withCtx (fun c => { c with life := { c.life with deferred := some 0x4F } })
def recovering : State := withCtx (fun c => { c with ckpt := { c.ckpt with opened := true, handler := 32 }, life := { c.life with recovery := true } })

theorem test_witness_SeatsAndStarts_traps : (∀ s ∈ [causing, recovering], ((s.focus here).focusTag 0).ctx.life.st = .issuing ∧ ((s.focus here).focusTag 0).ctx.sys.inHandler = false
      ∧ (((s.focus here).focusTag 0).program.bind (·.vector)) = some 2)
    ∧ ((causing.focus here).focusTag 0).ctx.life.deferred = some 0x4F ∧ ((recovering.focus here).focusTag 0).ctx.life.recovery = true := by and_intros <;> decide

/-- base with a SAVED context in tag 4, and a swap against number 0 in progress. -/
def swapping (st : CtxState) (w : Option Swap) (spill : Option Tag) (bad : List Nat) : State := base.modTile (fun t => { t with
  mem := { t.mem with spad := { t.mem.spad with bad := bad } },
  ctxs := (t.ctxs.set 4 { life := { st := st, saveSlot := some 1, resume := .halted } }).set 5 { life := { st := .spilling, saveSlot := some 0 } },
  core := { t.core with swap := w, spillTag := spill } })
def swap0 : Swap := { out := 0, incoming := .saved 4, inTag := some 4, slot := 1 }

theorem test_witness_Swaps : (let u := (swapping .saved none none []).focus here
      u.tile.core.swapWaiting = [] ∧ u.tile.core.swap = none ∧ u.tile.core.spillTag = none ∧ (u.tile.ctx 4).life.st = .saved ∧ (u.tile.ctx 4).life.saveSlot = some 1)
    ∧ (let u := (swapping .staged (some swap0) none []).focus here
       u.tile.core.swap = some swap0 ∧ u.tile.core.swapWaiting = [] ∧ swap0.stageEnd ≤ u.now ∧ swap0.left = 0 ∧ swap0.decided = none ∧ u.tile.core.log.issued = []
       ∧ (u.tile.ctx 4).life.st = .staged ∧ u.tile.numbered 0 = some 0
       ∧ (u.tile.ctx 0).swapsOut = true ∧ u.tile.readBad .spad (0x1F0000 + 0x8000 * 1) 0x7180 = false)
    ∧ ((swapping .staged (some swap0) none [(0x1F0000 + 0x8000) / Space.spad.word]).focus here).tile.readBad .spad (0x1F0000 + 0x8000 * 1) 0x7180 = true := by
  and_intros <;> decide

theorem test_witness_Swaps_end : (let u := ({ swapping .staged (some { swap0 with decided := some 1, outTag := some 5 }) none [] with now := 9 } : State).focus here
      u.tile.core.swap = some { swap0 with decided := some 1, outTag := some 5 } ∧ 1 + 8 ≤ u.now ∧ (∀ i : Fin 32, ((u.tile.ctx 4).sems.s[i]).toNat + ((u.tile.ctx 4).sems.latch[i]).toNat ≤ 65535)
      ∧ (u.tile.ctx 4).sems.latchOver = false ∧ (u.tile.ctx 4).life.resume = .halted ∧ (u.tile.ctx 5).life.st = .spilling)
    ∧ (let u := (swapping .saved none (some 5) []).focus here
       u.tile.core.spillTag = some 5 ∧ u.tile.core.spillEnd ≤ u.now ∧ u.tile.core.spillLeft = 0 ∧ (u.tile.ctx 5).outletsWritten = true ∧ (u.tile.ctx 5).life.saveSlot = some 0 ∧ u.tile.mem.wf = true) := by
  and_intros <;> decide

/-- base with a kill of tag 3 at a step, for tag 0. -/
def killed (n : Nat) : State := base.modTile (fun t => { t with ctxs := t.ctxs.set 3 { life := { st := .killing, num := some 1 }, kill := { step := n, byTag := some 0 } } })

theorem test_witness_Kills : (∀ n ∈ [2, 3, 4, 5, 6, 7], let x := ((killed n).focus here).tile.ctx 3
      x.life.st = .killing ∧ x.kill.began ≤ ((killed n).focus here).now ∧ ((killed n).focus here).tile.core.seatOf 3 = none ∧ x.pending = [] ∧ x.kill.step = n ∧ x.kill.byTag = some 0
      ∧ ((killed n).focus here).tile.netq = [] ∧ ((killed n).focus here).tile.cut = [])
    ∧ ((base.focus here).tile.ctx 0).life.st ≠ .empty ∧ ((base.focus here).tile.ctx 0).life.st ≠ .killing := by and_intros <;> decide

/-- A kill in step 3 of a tag whose operation on another wafer port 0 holds whole, past its replay timeout. -/
def purging : State :=
  let o : RemoteOp := { serial := 1, kind := .rget, tag := 3, pc := 0, addr := 0, injected := true }
  { ((killed 3).modTile (fun t => { t with netq := [o] })).modPort 0 (fun p =>
      { p with outbound := [{ src := ⟨0, 0⟩, tag := 3, serial := 1, wire := 1 }], sendq := List.replicate o.flitCount { flit := 0, op := some 1 } }) with now := 0x40000000 }

theorem test_witness_Kills_purge : (∃ q ∈ (purging.focus here).tile.netq, q.tag = 3 ∧ q.injected = true
      ∧ ∃ b ∈ ((purging.focus here).port 0).outbound, b.src = (purging.focus here).tile.at' ∧ b.serial = q.serial ∧ ((purging.focus here).port 0).holds q.serial = q.flitCount)
    ∧ ((purging.focus here).tile.ctx 3).kill.netAt + ((purging.focus here).port 0).regs.rplto.toNat ≤ (purging.focus here).now := by and_intros <;> decide

/-- The last step of a kill that the host began. -/
theorem test_witness_Kills_host :
    let u := ((killed 7).modTile (fun t => t.modCtx 3 (fun x => { x with kill := { x.kill with byHost := true, byTag := none } }))).focus here
    (u.tile.ctx 3).life.st = .killing ∧ (u.tile.ctx 3).kill.step = 7 ∧ (u.tile.ctx 3).kill.byHost = true ∧ (u.tile.ctx 3).kill.byTag = none := by and_intros <;> decide

/-! ### The network -/

/-- A remote operation of tag 0 on the memory of tile (0, 0). -/
def rop (serial : Nat) (kind : NetKind) (space : Nat) (pr : BitVec 2) : RemoteOp :=
  { serial := serial, kind := kind, tag := 0, pc := 0, addr := BitVec.ofNat 80 (0xFFFF * 2 ^ 64 + space * 2 ^ 60), pr := pr }
/-- base on a grid of one row with a network command queue and a message for its tile. -/
def netting (q : List RemoteOp) (m : List MsgBody) : State := (base.modTile (fun t => { t with netq := q })).modWafer (fun w =>
  { w with gridH := 1, map := [(here, 0, 0)], nextMsg := 9, net := m.map (fun b => { serial := 5, due := 0, src := here, dst := here, body := b }) })

theorem test_witness_NetworkOperations_injection : (let u := (netting [rop 1 .rst 0 0, rop 2 .radd 1 3] []).focus here
      u.tile.life.st = .live ∧ u.tile.netq = [rop 1 .rst 0 0] ++ rop 2 .radd 1 3 :: [] ∧ u.goes (rop 2 .radd 1 3) = true ∧ u.ownWafer (rop 2 .radd 1 3).addr = true
      ∧ (∀ x ∈ u.tile.netq, x.kind = .hmsg → x.units ≤ x.bytes.length) ∧ (u.tile.netq.map (·.serial)).Nodup
      ∧ (∀ x ∈ [rop 1 .rst 0 0], agedPrio x.pr (u.now - x.enq) < agedPrio (rop 2 .radd 1 3).pr (u.now - (rop 2 .radd 1 3).enq))) := by and_intros <;> decide

/-- One operation of each kind in flight, the first and the last beat. -/
theorem test_witness_NetworkOperations_arrival : (∀ o ∈ [rop 1 .rst 0 0, { rop 1 .rst 0 0 with part := 7 }, rop 1 .radd 1 0, { rop 1 .radd 1 0 with part := 7 }, { rop 1 .radd 1 0 with col := true },
        { rop 1 .rget 1 0 with units := 2, part := 7 }, rop 1 .ramo 1 0], let s := netting [o] [.op o]
      (∃ m ∈ s.msg? 5, m.body = .op o ∧ m.dst = here ∧ m.src = here) ∧ gaSpace o.addr ≠ 8 ∧ s.wafer.refuses here = false ∧ (s.focus here).tile.mem.wf = true
      ∧ (s.focus here).tile.life.st = .live ∧ (s.focus here).tile.at'.y < (s.focus here).wafer.gridH ∧ (s.focus here).tile.life.secure = false
      ∧ (∀ b ∈ banksOf .wst 0 512, (s.focus here).tile.life.wssec.toNat.testBit b = false) ∧ (∀ k ∈ (s.focus here).tile.kernels, k.writeMode = false))
    ∧ ((netting [] []).focus here).netServed .spad 0 = true ∧ (((netting [] []).modTile (fun t => t.takeBeat .spad 0 64)).focus here).netServed .spad 0 = false
    ∧ (netting [] []).tile.colourAt 0 = false ∧ ((netting [] []).focus here).opReason { rop 1 .rst 0 0 with addr := 0xFFFF00000000001F0000 } ≠ none := by
  and_intros <;> decide

theorem test_witness_NetworkOperations_result : (∀ b ∈ [MsgBody.unit 0 1 (markEntry 3) true, .done 0 1 (some (markEntry 3))], let s := netting [{ rop 1 .rget 1 0 with units := 2, injected := true }] [b]
      (∃ m ∈ s.msg? 5, m.body = b ∧ m.dst = here) ∧ s.wafer.refuses here = false ∧ ((s.tileAt here).net? 1).isSome = true
      ∧ s.wafer.net.all (fun x => !(decide (x.serial < 5))) = true) := by and_intros <;> decide

/-- A barrier request that has failed, at the tile that made it. -/
theorem test_witness_NetworkOperations_barrier : let s := (netting [{ rop 1 .barrier 0 0 with injected := true }] [.done 0 1 none]).modCtx (fun c => { c with asked := { barReq := some 1 } })
    (∃ m ∈ s.msg? 5, m.body = .done 0 1 none ∧ m.dst = here) ∧ (∃ o ∈ (s.tileAt here).net? 1, o.kind = .barrier) ∧ ((s.tileAt here).ctx 0).asked.barReq = some 1 := by and_intros <;> decide

/-- A release that covers a performed operation, doomed or not; an acquire that is performed; and what the host writes at the edge's end. -/
theorem test_witness_NetworkOperations_order : (∀ d : Bool, let o : RemoteOp := { rop 2 .rst 0 0 with ord := 1, ready := false, covers := [1], doomed := d }
      let u := (netting [{ rop 1 .rst 0 0 with performed := true }, o] []).focus here
      u.tile.net? o.serial = some o ∧ o.ready = false ∧ o.failing = false ∧ o.ord = 1 ∧ o.waitOutlets = []
      ∧ (∀ n ∈ o.covers, ∀ x ∈ u.tile.netq, x.serial = n → x.performed = true))
    ∧ (let u := ((netting [{ rop 1 .rget 0 0 with performed := true }] []).modCtx (fun c => { c with remote := { acquire := some 1 } })).focus here
       (u.tile.ctx 0).remote.acquire = some 1 ∧ (∀ o ∈ u.tile.netq, o.serial = 1 → o.performed = true ∨ o.failing = true))
    ∧ base.wafer.ext.cells.wf = true ∧ (extLimit - 64) + 64 ≤ extLimit ∧ extLimit < (extLimit - 63) + 64 := by and_intros <;> decide

/-- Hold and resume notices about a message that a migrating coordinate has refused. -/
def holding (b : MsgBody) : State := (netting [] [b]).modWafer (fun w => { w with net := w.net ++ [{ serial := 6, due := 0, src := here, dst := here, body := .op (rop 1 .rst 0 0), held := true }] })

theorem test_witness_NetworkOperations_held : (let s := holding (.hold here 6)
      (∃ m ∈ s.msg? 5, m.body = .hold here 6) ∧ (6 : Nat) ≠ 5 ∧ (∃ x ∈ s.wafer.net, x.serial = 6 ∧ x.held = true) ∧ s.wafer.refuses here = false)
    ∧ (let s := holding (.resume here); (∃ m ∈ s.msg? 5, m.body = .resume here) ∧ (s.wafer.net.map (·.serial)).Nodup) := by and_intros <;> decide

/-- A channel item of channel 4 about to be taken, with ends in a state. -/
def item (st : EndState) (b : MsgBody) : State := (netting [] [b]).modTile (fun t => { t with stores := (channelled st (some 0) []).tile.stores })

def items : List MsgBody := [.grant 0 4 8, .credit 0 4, .openNotice 0 4, .closeNotice 0 4, .revoke 0 4, .chanMsg { rop 1 .chsend 0 0 with channel := 4 }]

theorem test_witness_ChannelItems : (∀ b ∈ items, ∃ m ∈ (item .opened b).msg? 5, m.body = b ∧ m.dst = here ∧ ((item .opened b).focus here).farSource m = none)
    ∧ (∀ b ∈ items, (item .closed b).wafer.refuses here = false ∧ (item .opened b).wafer.net.all (fun x => decide (5 ≤ x.serial)) = true)
    ∧ (∀ st ∈ [EndState.closed, .opened, .revoked, .peerClosed, .lost], ((item st (.credit 0 4)).focus here).tile.life.secure = false
        ∧ ((item st (.credit 0 4)).focus here).tile.life.st = .live ∧ ∃ e ∈ ((item st (.credit 0 4)).focus here).tile.chanEnd 0 4 false, e.st = st) := by
  and_intros <;> decide

/-- A CHSEND item that has come back from wafer 7, which no port reaches; an end whose peer the grid does not name; and handler messages. -/
def far : State := (item .opened (.grant 0 4 8)).modTile (fun t => { t with stores := { t.stores with chans := t.stores.chans.map (fun e => { e with peerWafer := 7 }) } })

theorem test_witness_ChannelItems_far : (∃ m ∈ (far.modWafer (fun w => { w with net := w.net.map (fun m => { m with returned := 1 }) })).msg? 5, m.returned ≠ 0
      ∧ ((far.focus here).farSource m).isSome = true) ∧ far.wafer.portTo 7 = none ∧ 5 < far.wafer.nextMsg
    ∧ (∃ e ∈ (far.focus here).tile.stores.chans, e.kernel = 0 ∧ e.n = 4 ∧ e.st ≠ .lost ∧ (far.focus here).farEnd e = true)
    ∧ (∃ e ∈ ((item .opened (.grant 0 4 8)).focus here).tile.stores.chans, ((item .opened (.grant 0 4 8)).focus here).farEnd e = false
        ∧ ∀ y ∈ (item .opened (.grant 0 4 8)).wafer.map, y.1 ≠ e.peer) := by and_intros <;> decide

def messaging (part : Nat) (h : BitVec 32) : State := netting [] [.hmsg { rop 1 .hmsg 0 0 with units := 2, part := part, handler := h, bytes := [1, 2] }]

theorem test_witness_ChannelItems_hmsg : (∀ part ∈ [0, 1], ∃ m ∈ (messaging part 0).msg? 5, m.dst = here) ∧ (messaging 0 0).wafer.refuses here = false
    ∧ ((messaging 0 0).focus here).netServed .spad 0 = true
    ∧ ((messaging 0 0).focus here).hmsgReason { rop 1 .hmsg 0 0 with units := 2, bytes := [1, 2] } = none
    ∧ (((messaging 0 0).modTile (fun t => { t with life := { t.life with st := .retired } })).focus here).hmsgReason { rop 1 .hmsg 0 0 with units := 2, bytes := [1, 2] } ≠ none
    ∧ ((messaging 0 0).focus here).tile.mem.wf = true := by and_intros <;> decide

/-- A barrier request about to be sent, and one at its home. -/
def bop : RemoteOp := { rop 1 .barrier 0 0 with scope := 1, b0 := 3, b1 := 2, fn := 1 }
def homing (st : BarState) (arrived drops : Nat) (r : BarRequest) : State := (netting [bop] []).modTile (fun t => { t with stores := { t.stores with bars :=
  { kernels := [0], homes := [{ kernel := 0, n := 3, level := 1, st := st, phase := 9, expected := 2, arrived := arrived, drops := drops }],
    mirrors := [{ kernel := 0, n := 3 }], views := [{ kernel := 0, tag := 0, n := 3, v := 9 }], requests := [r] } } })
def request (fn : BitVec 2) (view : BitVec 16) : BarRequest := { kernel := 0, n := 3, fn := fn, level := 1, count := 2, view := view, src := here, tag := 0, serial := 1, at' := 0 }

theorem test_witness_BarrierTraffic_send : (let u := (homing .uninit 0 0 (request 0 0)).focus here
      u.tile.life.st = .live ∧ u.tile.netq.find? (fun o => o.kind == .barrier && o.tag == 0 && !o.injected && u.tile.covered o) = some bop
      ∧ here ∈ u.instanceTiles bop.kernel here bop.scope
      ∧ (∀ x ∈ u.instanceTiles bop.kernel here bop.scope, here.y < x.y ∨ (here.y = x.y ∧ here.x ≤ x.x))) := by and_intros <;> decide

/-- An init of a barrier that is not open and of one that has arrivals; an early, a late, a closed and a refused arrival; the last arrival and the last drop. -/
theorem test_witness_BarrierTraffic_home : (∀ x ∈ [(BarState.uninit, 0, 0, (0 : BitVec 2), (0 : BitVec 16)), (.opened, 1, 0, 0, 0), (.uninit, 0, 0, 1, 0), (.closed, 0, 0, 1, 9), (.opened, 0, 0, 1, 8),
        (.opened, 0, 0, 1, 10), (.opened, 0, 0, 1, 9), (.opened, 1, 0, 1, 9), (.opened, 1, 1, 2, 9)], let s := homing x.1 x.2.1 x.2.2.1 (request x.2.2.2.1 x.2.2.2.2)
      let u := s.focus here
      (∀ m ∈ u.wafer.net, m.dst ≠ here) ∧ u.tile.stores.bars.requests = [request x.2.2.2.1 x.2.2.2.2] ∧ u.tile.stores.bars.applied ≠ some s.now ∧ 0 ∈ u.tile.stores.bars.kernels
      ∧ (u.tile.homeEntry 0 3 1).st = x.1) := by decide

/-- A request at a home that has been retired. -/
theorem test_witness_BarrierTraffic_retired : let u := ((homing .opened 0 0 (request 1 9)).modTile (fun t => { t with life := { t.life with st := .retired } })).focus here
    u.tile.life.st = .retired ∧ u.tile.stores.bars.requests = [] ++ request 1 9 :: [] ∧ (request 1 9).src = here ∧ u.tile.stores.bars.applied ≠ some u.now
      ∧ (∀ m ∈ u.wafer.net, m.dst ≠ here) := by and_intros <;> decide

theorem test_witness_BarrierTraffic_answers : (∀ b ∈ [MsgBody.verdict 0 1 { fn := 1, n := 3, accepted := true, phase := 9 }, .barNotice 0 3 1 .opened 10 1],
      let s := (homing .opened 1 0 (request 1 9)).modWafer (fun w => { w with net := [{ serial := 5, due := 0, src := here, dst := here, body := b }] })
      (∃ m ∈ s.msg? 5, m.body = b ∧ m.dst = here) ∧ s.wafer.refuses here = false ∧ (∃ o ∈ (s.focus here).tile.net? 1, o.doomed = false)) := by decide
/-! ### Images, launches and kernels -/

/-- A file of one program of one bundle on tile (0, 0), signed for key slot 0 with (r, s) under the public key below (made outside the model, by the
definitions of FIPS 180-4 and FIPS 186-4). -/
def fileBody : List Byte := (List.range 112).map (fun k => BitVec.ofNat 8 (0x28280000ffffffff0000000100000010000000000000000000000070000000700000000f00000000000000000000007000000003000000000000002000000050000000010000000000000000000000000000000000010000010160000001030032494b53 / 256 ^ k))
def fileR : Nat := 0x2aa1c45881d9da02ac5ff132aeeea15d97c1d84b7c1e72ce3f5a0f7b3cd429b7941497acd844ddf97630ee2af514061e
def fileS : Nat := 0x2aa1c45881d9da02ac5ff132aeeea15d97c1d84b7c1e72ce3f5a0f7b3cd429b7941497acd844ddf97630ee2af514061e
def fileKey : BitVec 768 := BitVec.ofNat 768 (0xec9d49b4d5d9153cec712b5efd44b45d65febee464396187930ef85f51fa5eead6828e24334ec07fa500cb0b31eeb1b * 2 ^ 384 + 0x88d1bb113a1f19cf246032783bfffd65b63ac08595aba63d6ea165b6d1bbb7bf874acec9f0027e5794f94633ec4de2e2)
def bytesBe (n v : Nat) : List Byte := (List.range n).map (fun k => BitVec.ofNat 8 (v / 256 ^ (n - 1 - k)))
def signedFile : List Byte := fileBody ++ List.replicate 16 0 ++ bytesBe 48 fileR ++ bytesBe 48 fileS
/-- A LIVE grid of one row with nothing loaded and the key in slot 0. -/
def loading : State :=
  { tile := { life := { st := .live } }, wafer := { gridH := 1, map := [(here, 0, 0)], cruise := { flash := { keys := some [(0, fileKey)] } } } }
/-- A file of one byte before its signature section, signed for key slot 7: no image (R343). -/
def junkFile : List Byte := [BitVec.ofNat 8 0x2] ++ (7 :: List.replicate 15 0) ++ bytesBe 48 0xdb475240477c5e4497a2c5724ca485f5b1f2c2fc0602b92bae234238ec8d4e873a7148c739593e95a7f4dfe7c6e69f69 ++ bytesBe 48 0xdb475240477c5e4497a2c5724ca485f5b1f2c2fc0602b92bae234238ec8d4e873a7148c739593e95a7f4dfe7c6e69f69
def junkKey : BitVec 768 := BitVec.ofNat 768 (0xb42062144550e6f1c1eab261bc2f03156627cfba964fb8b26e2ec1644432b6873cf698069cf8aabcd7ebc2754650b412 * 2 ^ 384 + 0xced6ff89af867f08cc08fa4c6a369dc0e2ee4f55350a07a3820e84657604c645d002b3907e62a6a02e4847ea6bb59fbc)

theorem test_witness_signature_of_no_image : signatureOk junkFile [(7, junkKey)] = true := by decide +kernel

theorem test_witness_ImageLoad : readImage junkFile = none ∧ (∃ i ∈ readImage signedFile, i.gridW ≤ 180 ∧ 0 < i.gridH) ∧ (fileNat signedFile 8 4).testBit 12 = false
    ∧ State.reset.wafer.gridH = 0 := by and_intros <;> decide

theorem test_witness_ImageLoad_ok : (match loading.loadCheck signedFile false with | .ok i => i.placed == [here] | .error _ => false) = true := by decide +kernel
theorem test_witness_ImageLoad_unsigned : (match loading.loadCheck [] false with | .ok _ => 0 | .error n => n) = 1 := by decide
/-- base with a launch queue 0 in a state with records, and a tail that the host has moved to its ring's records. -/
def launching (st : QState) (recs : List Queued) (cond : Option CondRead) (due : List Completion) : State := (netting [] []).modWafer (fun w =>
  { w with queues := w.queues.set 0 { st := st, recs := recs, cond := cond, due := due, ring := [(0, 0), (1, 0)] }, kernels := [] })
/-- A record of image 0; one of image 9, which is not loaded; one whose wait is not met; and one with a condition on the word at scratchpad 0 of tile
(0, 0): word AND 0xFF equal to 0, or not equal to 0. -/
def record0 : Queued := { seq := 3, record := 0 }
def recordMissing : Queued := { seq := 3, record := BitVec.ofNat 512 (9 * 2 ^ 16) }
def recordWaiting : Queued := { seq := 3, record := BitVec.ofNat 512 (2 ^ 255) }
def recordCond (cmp : Nat) : Queued := { seq := 3, record := BitVec.ofNat 512 ((0xFFFF * 2 ^ 144) + 0xFF * 2 ^ 192 + (8 + cmp) * 2 ^ 128) }
/-- A record with a condition on the word at a virtual address. -/
def recordPaged : Queued := { seq := 3, record := BitVec.ofNat 512 ((0xFFFF * 2 ^ 144) + 8 * 2 ^ 124 + 8 * 2 ^ 128) }

theorem test_witness_HostQueues : (∀ st ∈ [QState.disabled, .opened, .stopped, .flushing], ((launching st [record0] none []).queue 0).st = st
      ∧ ((launching st [record0] none []).queue 0).sec = false ∧ ((launching st [record0] none []).queue 0).cond = none)
    ∧ ((queued).queue 1).sec = true
    -- the tail at 255 of an empty ring, and one on where one record stands in it
    ∧ (let x := (launching .opened [] none []).queue 0; (x.tail - x.head).toNat + ((255 : BitVec 8) - x.tail).toNat ≤ 255)
    ∧ (let x := (launching .opened [record0] none []).modQueue 0 (fun x => { x with tail := 1 }) |>.queue 0; 255 < (x.tail - x.head).toNat + ((0 : BitVec 8) - x.tail).toNat) := by
  and_intros <;> decide

/-- Host writes with an uncorrectable error are due at two offsets; at no other one. -/
theorem test_witness_WriteLost : let s : State := base.modWafer (fun w => { w with host := { w.host with regBad := [0x508, 0x70018] } })
    (0x508 ∈ s.wafer.host.regBad ∧ 0x70000 + 0x100 * (0 : Fin 64).val + 0x18 ∈ s.wafer.host.regBad) ∧ s.WriteGood 0x400 ∧ base.WriteGood 0x508 := by
  unfold State.WriteGood; and_intros <;> decide

theorem test_witness_Dispatching : (∀ r ∈ [record0, recordMissing, recordWaiting, recordCond 0], ((launching .opened [r] none []).queue 0).recs = [r]
      ∧ ((launching .opened [r] none []).queue 0).st = .opened ∧ ((launching .opened [r] none []).queue 0).cond = none ∧ ((launching .opened [r] none []).queue 0).dispatchedAt ≠ some (launching .opened [r] none []).now)
    ∧ (launching .opened [recordMissing] none []).wafer.refusal recordMissing = some 7 ∧ (launching .opened [recordMissing] none []).canDispatch 0 recordMissing false = true
    ∧ (∀ r ∈ [record0, recordWaiting, recordCond 0, recordPaged], (launching .opened [r] none []).wafer.refusal r = none)
    ∧ (record0.record.extractLsb' 128 32).getLsbD 3 = false ∧ ((recordCond 1).record.extractLsb' 128 32).getLsbD 3 = true
    ∧ (∃ i ∈ (launching .opened [record0] none []).wafer.image? 0, i.placed = [here]) ∧ (launching .opened [recordCond 0] none []).condRange (recCond (recordCond 0).record) = false
    ∧ gaSpace (recCond recordPaged.record) = 8 ∧ (launching .opened [recordPaged] none []).ownWafer (recCond recordPaged.record) = true
    ∧ (launching .opened [recordPaged] none []).condRange (recCond recordPaged.record) = false := by and_intros <;> decide

/-- The conditions of R320, met and not met. -/
theorem test_witness_MayDispatch : MayDispatch (launching .opened [recordCond 0] none []) 0 (recordCond 0) ∧ ¬ MayDispatch (launching .opened [recordWaiting] none []) 0 recordWaiting := by
  refine ⟨⟨by decide, by decide, by decide, ?_⟩, fun h => absurd h.2.1 (by decide)⟩
  intro i hi c hc
  have e : ((launching .opened [recordCond 0] none []).wafer.image? (recImage (recordCond 0).record)).map Image.placed = some [here] := by decide
  rw [hi] at e
  have e2 : i.placed = [here] := Option.some.inj e
  rw [e2, List.mem_singleton] at hc
  subst hc; decide

/-- A condition read under way whose word is read: it is 0, so that EQ holds and NE does not. -/
def reading (st : QState) (cmp : Nat) (failed : Bool) : State := launching st [recordCond cmp] (some { due := 2, failed := failed }) []

theorem test_witness_Dispatching_condition : (∀ st ∈ [QState.opened, .flushing], (∃ c ∈ ((reading st 0 false).queue 0).cond, c.walk = none ∧ c.due ≤ (reading st 0 false).now ∧ c.failed = false))
    ∧ (∃ c ∈ ((reading .opened 0 true).queue 0).cond, c.failed = true) ∧ ((reading .stopped 0 false).queue 0).st = .stopped
    ∧ gaSpace (recCond (recordCond 0).record) = 0 ∧ (reading .opened 0 false).ownWafer (recCond (recordCond 0).record) = true
    ∧ (reading .opened 0 false).wafer.refuses (gaTile (recCond (recordCond 0).record)) = false ∧ ((reading .opened 0 false).tileAt here).life.st = .live
    ∧ gaOff (recCond (recordCond 0).record) + 4 ≤ 0x1F0000 ∧ ((reading .opened 0 false).tileAt here).readBad .spad 0 4 = false
    ∧ BitVec.ofNat 32 (((reading .opened 0 false).tileAt here).read .spad 0 4) &&& (recordCond 0).record.extractLsb' 192 32 = (recordCond 0).record.extractLsb' 160 32
    ∧ (recordCond 1).record.extractLsb' 128 3 = 1 := by and_intros <;> decide

/-- A kernel 3 of image 0 on tile (0, 0) whose record asks for n + 1 contexts at a priority, not started, in a gang or not; what else is on the tile. -/
def kernel3 (record : BitVec 512) (st : KState) (group : GroupState) (late : Bool) : Kernel := { seq := 3, record := record, image := 0, st := st, status := 5, group := group, late := late }
def living (k : Kernel) (cycle : BitVec 64) (others : List TileKernel) (ctxs : Vector Context 8) : State := { netting [] [] with
  wafer := { (netting [] []).wafer with kernels := [k], cycle := cycle, host := { (netting [] []).wafer.host with abortLo := 3 } },
  tile := { (netting [] []).tile with kernels := others ++ [{ kernel := 3, order := 1, units := [(0, .zeroing 1)] }], ctxs := ctxs } }
def noCtx : Vector Context 8 := Vector.replicate 8 {}
/-- Four resident contexts of another kernel. -/
def fourCtx : Vector Context 8 := (((noCtx.set 0 { life := { st := .ready, num := some 0 } }).set 1 { life := { st := .ready, num := some 1 } }).set 2
  { life := { st := .ready, num := some 2 } }).set 3 { life := { st := .ready, num := some 3 } }
def launch (n prio : Nat) : BitVec 512 := BitVec.ofNat 512 (n * 2 ^ 10 + prio * 2 ^ 14)

theorem test_witness_KernelLife_start : (let s := living (kernel3 (launch 3 0) .running .bound false) 0 [] noCtx
      (s.wafer.kernel? 3).isSome = true ∧ (∃ x ∈ (s.focus here).tile.kernels.find? (fun x => x.kernel == 3), x.started = false)
      ∧ (s.focus here).tile.life.st = .live ∧ (∀ y ∈ (s.focus here).tile.kernels, y.order < 1 → y.writeMode = false) ∧ (s.focus here).tile.stores.bars.kernels.idxOf? 3 = none
      ∧ recContexts (launch 3 0) = 4 ∧ (s.focus here).tile.emptyNumbers.length = 4
      ∧ 4 ≤ ((List.finRange 8).filter (fun g => ((s.focus here).tile.ctx g).life.st == .empty)).length)
    -- no empty number: too few and enough contexts to swap out
    ∧ (let s := living (kernel3 (launch 0 0) .running .bound false) 0 [] fourCtx
       (s.focus here).tile.emptyNumbers.length + ((s.focus here).tile.swappable 0).length < recContexts (launch 0 0))
    ∧ (let s := living (kernel3 (launch 0 3) .running .bound false) 0 [] fourCtx
       recContexts (launch 0 3) ≤ (s.focus here).tile.emptyNumbers.length + ((s.focus here).tile.swappable (recPrio (launch 0 3))).length)
    -- another access mode before it
    ∧ (let s := living (kernel3 (launch 0 0) .running .bound false) 0 [{ kernel := 2, order := 0, writeMode := true }] noCtx
       ¬ ∀ y ∈ (s.focus here).tile.kernels, y.order < 1 → y.writeMode = false) := by and_intros <;> decide

def gangRecord : BitVec 512 := 5#64 ++ 0#448

theorem test_witness_KernelLife : (∀ st ∈ [KState.running, .ending], (living (kernel3 0 st .bound false) 0 [] noCtx).wafer.kernel? 3 = some (kernel3 0 st .bound false))
    ∧ (let s := (living (kernel3 0 .ending .bound false) 0 [] noCtx).modTile (fun t => { t with kernels := [] })
       (∀ t ∈ s.tiles, ∀ x ∈ t.kernels, x.kernel ≠ 3) ∧ (s.wafer.kernel? 3).isSome = true)
    ∧ (0#32 ++ (living (kernel3 0 .running .bound false) 0 [] noCtx).wafer.host.abortLo : BitVec 64).toNat = 3
    ∧ (∀ c ∈ ([4, 5, 6] : List Nat), ((living (kernel3 gangRecord .running .gangWait false) (BitVec.ofNat 64 c) [] noCtx).wafer.kernel? 3).isSome = true)
    ∧ recGang gangRecord = 5 ∧ (kernel3 gangRecord .running .gangWait false).slice 5 = true ∧ (kernel3 gangRecord .running .gangRunning true).slice 5 = true
    ∧ (living (kernel3 gangRecord .running .gangRunning false) 6 [] noCtx).wafer.otherWafers = [] := by and_intros <;> decide

/-- base with a leaf entry at level 3 for VA 0 in ASID 1 and a walk of it that is due. -/
def walking (leaf : Nat) (who : Walker) (asked : Asked) (q : List RemoteOp) : State := ((netting q []).modWafer (fun w => { w with
  ext := ((w.ext.writeNat 32 16 8 0x2001).writeNat 32 0x2000 8 0x4001).writeNat 32 0x4000 8 leaf,
  walks := [{ serial := 5, due := 0, who := who, va := 0xFFFF8000000000000000, asid := 1, secWorld := false, write := false, src := here }] })).modCtx (fun c => { c with asked := asked })
def pagedRop : RemoteOp := { rop 1 .rst 8 0 with asid := 1 }

theorem test_witness_Pages_walk : (∀ x ∈ [(10, 2, true, false), (3, 3, false, false), (20, 4, false, true), (13, 5, true, false), (18, 2, false, true)], let s := walking x.1 (.op here 1) {} [pagedRop]
      (∃ w ∈ s.wafer.walks.find? (fun w => w.serial == 5 && decide (w.due ≤ s.now)), w.who = .op here 1) ∧ (∃ o ∈ (s.tileAt here).net? 1, o.foreign = none ∧ o.asid = 1 ∧ gaVa o.addr = 0)
      ∧ s.wafer.walk 1 false 0 = .leaf 38 0x4000 0 x.2.1 x.2.2.1 x.2.2.2)
    ∧ (let s := walking 10 (.probe here 0 false false) { pageReq := some 5 } []
       s.ownWafer 0xFFFF8000000000000000 = true ∧ ((s.tileAt here).ctx 0).asked.pageReq = some 5 ∧ s.wafer.walk 1 false (gaVa 0xFFFF8000000000000000) = .leaf 38 0x4000 0 2 true false)
    ∧ (let s := (walking 10 (.cond 0) {} []).modWafer (fun w => { w with queues := w.queues.set 0 { st := .opened, cond := some { due := 0, walk := some 5 } } })
       (∃ c ∈ (s.queue 0).cond, c.walk = some 5)) := by and_intros <;> decide

/-- A load that LDSTAT shows as under way; a page instruction's walk whose tile migrates; what keeps a shootdown BUSY. -/
theorem test_witness_Images_busy : let s : State := base.modWafer (fun w => { w with host := { w.host with ldstat := 0x80000000, loadUntil := some 1, tlbBusyOn := true, tlbBusy := [1] } })
    s.wafer.host.ldstat.getLsbD 31 = true ∧ base.wafer.host.ldstat.getLsbD 31 = false ∧ s.WriteGood 0x60C ∧ (∃ d ∈ s.wafer.host.loadUntil, d ≤ s.now + 1)
    ∧ (∃ n ∈ (s.modTile (fun t => { t with netq := [pagedRop] })).wafer.host.tlbBusy, n = pagedRop.serial ∧ pagedRop.performed = false) := by
  unfold State.WriteGood; and_intros <;> decide

theorem test_witness_Images_unload : loading.wafer.image? 1 = none ∧ (base.wafer.image? 0).isSome = true ∧ (∃ k ∈ base.wafer.kernels, k.image = 0 ∧ k.st ≠ .complete)
    ∧ ((base.modWafer (fun w => { w with host := { w.host with tlbBusyOn := true } })).wafer.host.tlbBusyOn = true) := by and_intros <;> decide
/-! ### The grid -/

/-- A grid of two tiles at physical (0, 0) and (1, 0) with spares at (2, 0) and (9, 0), the migration of tile (0, 0) in a phase. -/
def moving (g : Option Migration) (st : TileSt) (spares : List (Nat × Nat)) : State := { (netting [] []) with
  tile := { (netting [] []).tile with life := { (netting [] []).tile.life with st := st, ceGrain := 5 } },
  wafer := { (netting [] []).wafer with map := [(here, 0, 0), (⟨1, 0⟩, 1, 0)], spares := spares, migration := g, host := { (netting [] []).wafer.host with ceThresh := 5 } } }
/-- The migration of tile (0, 0) to the spare at (2, 0). -/
def move (p : MigPhase) : Migration := { c := here, px := 2, py := 0, phase := p }

theorem chosen_of {w : Wafer} {c : TileId} {failed : List (Nat × Nat)} {p a : Nat × Nat} (ha : w.placeOf c = some a)
    (h : p ∈ w.spares ∧ p ∉ failed ∧ ∃ n ∈ w.pathLinks c p, n ≤ 3) (hr : ∀ x ∈ w.spares, spareRank (!w.segmentBroken a) a p ≤ spareRank (!w.segmentBroken a) a x) : Chosen w c failed p :=
  ⟨h, a, ha, fun x hx => hr x hx.1⟩

theorem test_witness_Chosen : Chosen (moving none .live [(2, 0), (9, 0)]).wafer here [] (2, 0) ∧ NoSpare (moving none .live [(9, 0)]).wafer here []
    ∧ NoSpare (moving none .live [(2, 0)]).wafer here [(2, 0)] :=
  ⟨chosen_of (a := (0, 0)) (by decide) (by decide) (by decide), Or.inr (by decide), Or.inr (by decide)⟩

theorem test_witness_Migrations_request : (∀ st ∈ [TileSt.live, .quiesced, .retired, .spare], ((moving none st [(2, 0)]).tileAt (moving none st [(2, 0)]).hostTile).life.st = st)
    ∧ (moving none .live [(2, 0)]).wafer.migration = none ∧ (moving none .live [(2, 0)]).wafer.migWaiting = []
    ∧ (moving none .live [(2, 0)]).wafer.host.ceThresh.toNat ≠ 0 ∧ (moving none .live [(2, 0)]).wafer.host.ceThresh.toNat ≤ ((moving none .live [(2, 0)]).tileAt here).life.ceGrain := by
  and_intros <;> decide

theorem test_witness_Migrations_phases : (∀ p ∈ [MigPhase.settle, .copy, .check, .rewrite, .resume], let s := moving (some (move p)) .migrating [(2, 0), (9, 0)]
      (∃ g ∈ s.wafer.migration, g.phase = p ∧ g.since < s.now ∧ g.due ≤ s.now ∧ g.retireOnly = false ∧ g.retried = false ∧ g.timedOut = false) ∧ s.wafer.migWaiting = [])
    ∧ ((moving (some (move .settle)) .migrating []).tileAt here).hasSettled = true
    ∧ ((moving (some (move .settle)) .migrating []).modTile (fun t => { t with netq := [rop 1 .rst 0 0] }) |>.tileAt here).hasSettled = false
    ∧ (∀ n ∈ (moving (some (move .check)) .migrating []).wafer.pathLinks here (2, 0), ¬ 3 < n) ∧ (∃ n ∈ (moving (some (move .check)) .migrating []).wafer.pathLinks here (9, 0), 3 ≤ n) := by
  and_intros <;> decide

/-- A rewrite that has drained, with a new path; a coordinate that refuses arrivals; a migration begun in this cycle. -/
theorem test_witness_Migrations_rewrite : let s := moving (some { move .rewrite with region := [here] }) .migrating [(2, 0)]
    s.wafer.drained [here] = true ∧ ((netting [] [.op (rop 1 .rst 0 0)]).wafer.drained [here] = false) ∧ s.wafer.refuses here = true
    ∧ (∃ n ∈ s.wafer.neighbours here, (s.wafer.newPath here n (2, 0)).isSome = true) ∧ ((moving none .live []).tileAt here).life.ceTold = false
    ∧ s.now ≤ ({ move .settle with since := s.now } : Migration).since := by and_intros <;> decide

/-- base whose SRAM pass stands at a beat, late or not, begun at a cycle, overdue or not, at a cycle. -/
def scrubbing (beat began now : Nat) (late overdue : Bool) : State := { base with now := now, tile := { base.tile with life := { base.tile.life with sram := { beat := beat, began := began, late := late, overdue := overdue } } } }

theorem test_witness_ScrubbingAndWorlds : (∀ x ∈ [(0, 2), (41215, 2), (41215, 80000003), (32768, 2), (36864, 2), (40959, 2), (40960, 2)], let u := (scrubbing x.1 0 x.2 true false).focus here
      u.tile.life.st = .live ∧ (u.tile.life.scrub true).overdue = false ∧ u.scrubOffered u.tile.life true = true ∧ u.scrubFree true x.1 = true)
    ∧ ((scrubbing 0 0 2 false true).tile.life.scrub true).overdue = true
    -- a pass that has fallen 1,024 beats behind
    ∧ (let p := (scrubbing 0 0 2000000 false false).tile.life.scrub true; p.beat + 1024 < (2000000 - p.began) * 41216 / 80000000)
    ∧ (let l := ((moving none .live []).modTile (fun t => { t with kernels := [], life := { t.life with wantSecure := some true } })).tile; l.kernels = [] ∧ l.life.wantSecure ≠ none) := by
  and_intros <;> decide

/-! ### The cruise -/

/-- Reticle 13 in a state, beside reticles 1, 12, 14 and 25, with its sides up, at a time in microseconds. -/
def cruising (st : RetSt) (us : Nat) (f : Reticle → Reticle) : State := { State.reset with wafer := { State.reset.wafer with time := us * usec, cruise := { State.reset.wafer.cruise with
  reticles := State.reset.wafer.cruise.reticles.set 13 (f { st := st, key := 0xFF00000000000001, side := Vector.replicate 4 { res := .up, acked := true, seen := true } }) } } }
/-- A message of a type, in round 1, to key 0xFF00000000000001. -/
def message (typ : Nat) : BitVec 512 := msgSeal (BitVec.ofNat 512 (1 + typ * 2 ^ 28 + 5 * 2 ^ 64 + (if typ = 5 ∨ typ = 8 then 0xFF00000000000001 * 2 ^ 128 + (if typ = 8 then 2 * 2 ^ 192 else 0) else 0)))

theorem test_witness_Cruises_taken : (∀ typ ∈ [2, 3, 5, 7, 8], Taken (cruising .follower 1 (fun x => { x with round := 1 })) 13 0 (message typ) typ)
    ∧ (∀ typ ∈ [0, 1], Taken (cruising .probe 1 id) 13 3 (message typ) typ) ∧ Taken (cruising .elect 1 (fun x => { x with round := 1 })) 13 1 (message 4) 4
    ∧ (msgBad 0 = true) := by
  unfold Taken; and_intros <;> decide +kernel

theorem test_witness_Cruises_messages : msgRound (message 4) = 1 ∧ msgField (message 5) 16 64 = 0xFF00000000000001 ∧ msgField (message 8) 16 64 = 0xFF00000000000001 ∧ msgField (message 8) 24 8 = 2
    ∧ ¬ ((cruising .follower 1 id).ret 13).clock.hasPll = true ∧ (beside 13 0).isSome = true ∧ (beside 0 2 = none) := by and_intros <;> decide +kernel

/-- ELECT at 200 µs with the own key and with a higher one; LEADER at 200 and 300 µs; a follower that has heard nothing for 51 µs. -/
theorem test_witness_Cruises_timers : (∀ best ∈ ([0xFF00000000000001, 0xFF00000000000002] : List Nat), let s := cruising .elect 200 (fun x => { x with best := BitVec.ofNat 64 best, up := some 2 })
      (s.ret 13).st = .elect ∧ (s.ret 13).roundAt + 200 * usec ≤ s.wafer.time ∧ (∀ p ∈ (s.ret 13).reports, p.key.extractLsb' 0 56 ≠ (s.ret 13).key.extractLsb' 0 56))
    ∧ (let s := cruising .probe 100 id; (s.ret 13).st = .probe ∧ (s.ret 13).entered + 100 * usec ≤ s.wafer.time)
    ∧ ((cruising .leader 200 id).ret 13).entered + 200 * usec ≤ (cruising .leader 200 id).wafer.time ∧ ((cruising .leader 300 id).ret 13).entered + 300 * usec ≤ (cruising .leader 300 id).wafer.time
    ∧ ((cruising .leader 300 id).ret 13).clock.hasPll = false ∧ (cruising .follower 51 id).wafer.cruise.leader ≠ some 13
    ∧ ((cruising .follower 51 id).ret 13).heard + 50 * usec < (cruising .follower 51 id).wafer.time ∧ (cruising .follower 50 id).wafer.time ≤ ((cruising .follower 50 id).ret 13).heard + 50 * usec := by
  and_intros <;> decide

/-- A reticle in RESET, and none; an EXCLUDE of a leader's round for a reticle in MAP, and its leave with reason 2 elsewhere; READY without a heartbeat. -/
theorem test_witness_Cruises_states : (∃ q, (State.reset.ret q).st = .reset)
    ∧ (let s := State.reset.modWafer (fun w => { w with cruise := { w.cruise with reticles := Vector.replicate 96 { st := .ready } } }); ∀ q, (s.ret q).st ≠ .reset)
    ∧ (let m := msgSeal (BitVec.ofNat 512 (1 + 8 * 2 ^ 28 + 5 * 2 ^ 64 + 0xFF00000000000001 * 2 ^ 128 + 2 ^ 192))
       Taken (cruising .map 1 (fun x => { x with round := 1 })) 13 0 m 8 ∧ msgRound m = 1 ∧ msgField m 24 8 = 1 ∧ msgField m 16 64 = 0xFF00000000000001)
    ∧ (let s := cruising .ready 51 id; s.wafer.cruise.leader ≠ some 13 ∧ (s.ret 13).heard + 50 * usec < s.wafer.time) := by
  unfold Taken; and_intros <;> decide +kernel

/-- Claims that leave the leader primary, and a claim of more live tiles. -/
def claiming (live : Nat) : State := (cruising .leader 300 (fun x => { x with round := 1 })).modWafer (fun w => { w with cruise := { w.cruise with claims :=
  [{ key := 0xFF00000000000001, round := 1, live := 336 }, { key := 0xFF00000000000002, round := 1, live := live }] } })

theorem test_witness_Cruises_claims : (∃ c ∈ (claiming 400).wafer.cruise.claims, ((claiming 400).ret 13).round.toNat < c.round.toNat
        ∨ (c.round = ((claiming 400).ret 13).round ∧ (∀ d ∈ (claiming 400).wafer.cruise.claims, d.key = ((claiming 400).ret 13).key → d.round = ((claiming 400).ret 13).round → d.live < c.live)))
    ∧ (let x := (claiming 300).ret 13
       ∃ c ∈ (claiming 300).wafer.cruise.claims, c.key = x.key ∧ c.round = x.round ∧ ∀ d ∈ (claiming 300).wafer.cruise.claims,
        d.round.toNat < x.round.toNat ∨ (d.round = x.round ∧ (d.live < c.live ∨ (d.live = c.live ∧ d.key.toNat ≤ x.key.toNat)))) := by and_intros <;> decide

/-- A reticle in CLOCK before and after START; one in service whose PLL is LOCKED, in HOLD or in SLEW, with a candidate and without one. -/
def clocked (st : RetSt) (pll : PllSt) (hasPll : Bool) (startAt : Option Nat) (us : Nat) (parent : BitVec 3) : State := cruising st us (fun x =>
  { x with place := some (1, 1), clock := { x.clock with pll := pll, hasPll := hasPll, startAt := startAt, parent := parent, lastCorr := 0, skew := 1 },
           side := x.side.set 3 { res := .up, nbPll := .locked, nbDepth := 2 } })

theorem test_witness_ClocksAndService : (∀ x ∈ [(none : Option Nat), some 5], ((clocked .clock .hold false x 200 5).ret 13).st = .clock ∧ ((clocked .clock .hold false x 200 5).ret 13).clock.hasPll = false
      ∧ ((clocked .clock .hold false x 200 5).ret 13).clock.startAt = x ∧ ((clocked .clock .hold false x 200 5).ret 13).entered + 200 * usec ≤ (clocked .clock .hold false x 200 5).wafer.time)
    ∧ (∀ pll ∈ [PllSt.locked, .hold, .slew], ((clocked .ready pll true none 5001 5).ret 13).st = .ready ∧ ((clocked .ready pll true none 5001 5).ret 13).clock.pll = pll)
    ∧ ((clocked .ready .hold true none 5001 5).ret 13).clock.since + 5000 * usec < (clocked .ready .hold true none 5001 5).wafer.time
    ∧ (clocked .ready .hold true none 1 5).nextRoot = none
    ∧ (let s := clocked .ready .locked true none 1 3; s.parentSkew 13 - (s.ret 13).clock.skew ≠ 0 ∧ (s.ret 13).clock.lastCorr + 1024 ≤ ({ s with now := 1024 } : State).now
       ∧ s.wafer.links.lastCorr + 1024 ≤ ({ s with now := 1024 } : State).now) := by
  and_intros <;> decide

/-- Candidates are neighbours in service: reticle 12 LOCKED beside reticle 13. -/
def twoClocks : State := (clocked .ready .hold true none 1 3).modReticle 12 (fun x => { x with st := .ready })
def rooted : State := (clocked .ready .hold true none 1 5).modWafer (fun w => { w with cruise := { w.cruise with leader := some 13 } })

theorem test_witness_ClocksAndService_parents : twoClocks.candidates 13 = [3] ∧ (rooted.candidates 13 = []) ∧ rooted.wafer.cruise.leader = some 13 ∧ 4 ≤ (rooted.ret 13).clock.parent.toNat
    ∧ rooted.nextRoot = none ∧ Taken (clocked .ready .locked true none 1 3) 13 3 (msgSeal (BitVec.ofNat 512 (6 * 2 ^ 28 + 2 ^ 128))) 6
    ∧ (msgField (msgSeal (BitVec.ofNat 512 (6 * 2 ^ 28 + 2 ^ 128))) 16 8 = 1) := by
  unfold Taken; and_intros <;> decide +kernel

/-- Reduced service whose switch has come, whose switch-over has ended, and the power domain of a reticle in service. -/
theorem test_witness_ClocksAndService_switch :
    (let s := (clocked .ready .locked true none 1 3).modWafer (fun w => { w with cycle := 1024, cruise := { w.cruise with reduced := true, switchAt := some 1024 } })
     s.wafer.cruise.switchAt = some 1024 ∧ (1024 : BitVec 64).toNat ≤ s.wafer.cycle.toNat ∧ s.wafer.cruise.reduced = true ∧ (s.ret 13).power.calibrated = false)
    ∧ (let s := ({ (clocked .ready .locked true none 1 3) with now := 2048 } : State).modWafer (fun w => { w with cruise := { w.cruise with holdUntil := 2048 } })
       s.wafer.cruise.holdUntil ≠ 0 ∧ s.wafer.cruise.holdUntil ≤ s.now)
    ∧ (∃ q, ((clocked .ready .locked true none 1 3).ret q).st = .ready) ∧ (∀ q, (State.reset.ret q).st ≠ .ready ∧ (State.reset.ret q).st ≠ .isolated) := by
  and_intros <;> decide

theorem test_witness_PowerDomains : ((clocked .ready .locked true none 1 3).ret 13).st = .ready ∧ (13 : Fin 96) = ((clocked .ready .locked true none 1 3).modWafer (fun w =>
      { w with cruise := { w.cruise with rsel := 0x11 } })).wafer.selReticle ∧ (679 : BitVec 16).toNat < 680 ∧ 680 ≤ (680 : BitVec 16).toNat := by and_intros <;> decide
/-! ### Links, debug, steps -/

/-- Port 3 in a state at a time in microseconds, with wavelengths and a change. -/
def linked (st : PortSt) (us : Nat) (waves : List (Fin 8 × WaveSt)) (f : Port → Port) : State := ({ State.reset with wafer := { State.reset.wafer with time := us * usec } } : State).modPort 3 (fun p =>
  f { p with st := st, txMask := 0xFF, waves := waves.foldl (fun v e => v.set e.1.val { st := e.2 } e.1.isLt) p.waves })
def allLit : List (Fin 8 × WaveSt) := (List.finRange 8).map (fun k => (k, .litIdle))
def allActive : List (Fin 8 × WaveSt) := (List.finRange 8).map (fun k => (k, .active))

theorem test_witness_LinkPorts : (∀ st ∈ [PortSt.dark, .failed, .training], ((linked st 1 [] id).port 3).st = st ∧ ((linked st 1 [] id).port 3).carries = false)
    ∧ (∀ st ∈ [PortSt.active, .degraded], ((linked st 1 allActive id).port 3).carries = true ∧ ((linked st 1 allActive id).port 3).maskOf [.active] = 0xFF)
    ∧ ((linked .active 1 allActive (fun p => { p with regs := { p.regs with sec := true } })).port 3).regs.sec = true ∧ (∀ q, (State.reset.port q).st = .dark) := by and_intros <;> decide

/-- A wavelength that wakes, at 20 µs and one unit past it; a faulty one; one that leaves three, and one that leaves seven. -/
theorem test_witness_LinkPorts_waves : (let x := (linked .active 20 [(0, .waking)] id).port 3; (x.waves[(0 : Fin 8)]).st = .waking ∧ 20 * usec ≤ (x.waves[(0 : Fin 8)]).since + 20 * usec ∧ x.carries = true)
    ∧ (let x := (linked .training 20 [(0, .waking)] id).port 3; x.st = .training ∧ x.identOk = false ∧ 20 * usec < x.since + 100 * usec ∧ x.maskOf [.litIdle] = 0)
    ∧ (let x := (linked .active 1 allActive (fun p => { p with waves := p.waves.set 5 { st := .active, uncorrected := 17 } })).port 3
       x.faulty 5 = true ∧ x.faulty 4 = false ∧ x.regs.minw.toNat ≤ ((List.finRange 8).filter (fun k => k ≠ (5 : Fin 8) ∧ (x.waves[k]).st ≠ .failed)).length)
    ∧ (let x := (linked .degraded 1 [(0, .active), (1, .active), (2, .active), (3, .active), (4, .failed), (5, .failed), (6, .failed), (7, .failed)] id).port 3
       ((List.finRange 8).filter (fun k => k ≠ (0 : Fin 8) ∧ (x.waves[k]).st ≠ .failed)).length < x.regs.minw.toNat)
    ∧ (let x := (linked .active 1 [] id).port 3; decide (x.regs.fecth.toNat < (16 : BitVec 16).toNat) = false ∧ decide (x.regs.bmax.toNat < (0xFFFF : BitVec 16).toNat) = false
       ∧ (x.regs.pmin.setWidth 16).toInt ≤ (0x8000 : BitVec 16).toInt) := by and_intros <;> decide

/-- A flit that waits for its ACK, sent once or 16 times, held for long or not; a NAK under way; a port that hears nothing for 10 µs. -/
def waitingFlit (sent since : Nat) (now : Nat) : State := { linked .active 10 allActive (fun p => { p with replay := [{ rseq := 0, flit := flitOf 4 1, sent := sent, since := since, last := 0, set := 0xFF }] }) with now := now }

theorem test_witness_LinkPorts_replay : (∀ n ∈ [1, 16], let s := waitingFlit n 0 5
      let x := s.port 3
      (∃ r ∈ x.replay.head?, max r.last x.ackAt + 2 * usec ≤ s.wafer.time ∧ r.sent = n) ∧ x.carries = true ∧ x.paused = false ∧ x.lit = true ∧ x.rxAt + 10 * usec ≤ s.wafer.time
      ∧ (∀ q ∈ x.replay, q.sent < 17 ∧ s.now ≤ q.since + x.regs.rplto.toNat))
    ∧ (∃ q ∈ ((waitingFlit 1 0 250001).port 3).replay, q.since + ((waitingFlit 1 0 250001).port 3).regs.rplto.toNat < (waitingFlit 1 0 250001).now)
    ∧ ((linked .active 10 allActive (fun p => { p with nakAt := some 0 })).port 3).nakAt = some 0 := by and_intros <;> decide

/-- TRAINING that is over: all lit and both exchanges made; late with six, with three, and with an exchange missing. -/
theorem test_witness_LinkPorts_training : (let x := (linked .training 1 allLit (fun p => { p with identOk := true, stampDone := true })).port 3
      (x.identOk && x.stampDone) = true ∧ x.maskOf [.litIdle] = 0xFF ∧ x.regs.minw.toNat ≤ maskCount (x.maskOf [.litIdle]))
    ∧ (let x := (linked .training 100 (allLit.take 6) (fun p => { p with identOk := true, stampDone := true })).port 3
       x.since + 100 * usec ≤ (linked .training 100 [] id).wafer.time ∧ x.regs.minw.toNat ≤ maskCount (x.maskOf [.litIdle]) ∧ x.maskOf [.litIdle] ≠ 0xFF)
    ∧ (let x := (linked .training 100 (allLit.take 3) id).port 3; maskCount (x.maskOf [.litIdle]) < x.regs.minw.toNat)
    ∧ (let x := (linked .training 100 allLit id).port 3; (x.identOk && x.stampDone) = false) := by and_intros <;> decide

/-- The policies: a park after 2 grains without traffic, a wake above 16 flits of queue; and a correction of time that waits or not. -/
theorem test_witness_LinkPorts_policy : (let x := (linked .active 1 allActive (fun p => { p with idleGrains := 2, regs := { p.regs with pol := 0x20100 } })).port 3
      (x.regs.pol.extractLsb' 16 16).toNat = 2 ∧ (x.regs.pol.extractLsb' 16 16).toNat ≤ x.idleGrains ∧ x.regs.pol.extractLsb' 8 8 ≠ 0)
    ∧ (let x := (linked .active 1 [(0, .active), (1, .parked)] (fun p => { p with sendq := List.replicate 17 { flit := flitOf 4 1 }, regs := { p.regs with pol := 0x201 } })).port 3
       (x.regs.pol.extractLsb' 0 8).toNat ≠ 0 ∧ 16 * (x.regs.pol.extractLsb' 0 8).toNat < x.sendq.length
       ∧ ∃ w : Fin 8, (x.regs.pol.extractLsb' 8 8).getLsbD w.val = true ∧ (x.waves[w]).st = .parked)
    ∧ (let s := (linked .active 1 allActive (fun p => { p with stampDone := true, regs := { p.regs with off := 7 } })).modWafer (fun w => { w with links := { w.links with time := 0x03 } })
       s.wafer.timeOffset ≠ none ∧ s.wafer.links.stepDone = false ∧ (s.port (Fin.ofNat 64 (s.wafer.links.time.toNat % 64))).stampDone = true ∧ s.waferIdle = true) := by
  and_intros <;> decide

/-- A flit of each kind, whole and, where its kind is replayed, in order; and flits that are not. -/
theorem test_witness_LinkFlits : (∀ k ∈ [0, 2, 6, 9, 10, 3, 4, 5, 1, 7, 8], let f := flitSeal (flitOf k 0x0F) 0 0xFFFF
      flitKind f = k ∧ f.extractLsb' 992 32 = flitCrc f ∧ flitRseq f = ((linked .active 10 allActive id).port 3).rxSeq)
    ∧ (let f := flitSeal (flitOf 4 0x0F) 1 0xFFFF; f.extractLsb' 992 32 = flitCrc f ∧ flitRseq f ≠ ((linked .active 10 allActive id).port 3).rxSeq) ∧ (0 : BitVec 1024).extractLsb' 992 32 ≠ flitCrc 0 := by
  and_intros <;> decide +kernel

theorem test_witness_LinkFlits_port : (∀ w : Fin 8, (((linked .degraded 10 [(0, .active), (1, .litIdle)] id).port 3).waves[w]).st = .active → (0x0F : Nat).testBit w.val = true)
    ∧ ((linked .active 10 allActive id).port 3).sendq = [] ∧ ((linked .active 10 allActive id).port 3).paused = false ∧ ((linked .active 10 allActive id).port 3).lit = true
    ∧ ((linked .active 10 allActive id).port 3).regs.rpl.toNat < 2 ^ 31 ∧ ((linked .active 10 allActive id).port 3).replay.length ≤ 512
    ∧ 1 < (32 + 64 * (WireOp.read 0).beats + 115) / 116 + 1 := by and_intros <;> decide

/-- A context that may be held and one that is; two disjoint partitions; a beat of a paired run with and without its counterpart. -/
def debugging (gen : BitVec 2) (held : Bool) : State := (base.modWafer (fun w => { w with dbg := { w.dbg with dbgen := gen } })).modCtx (fun c => { c with dbg := { c.dbg with held := held } })
def beat (serial : Nat) (shadow here : Bool) : PairBeat := { serial := serial, shadow := shadow, rx := 0, ry := 0, ordinal := 0, addr := 0, pa := 64, nt := false, len := 64, data := 5, src := ⟨0, 0⟩, here := here }
def pairing (l : List PairBeat) : State := base.modWafer (fun w => { w with dbg := { w.dbg with beats := l, pairp := 0, pairs := 0x0100 } })

theorem test_witness_HostDebug : (∀ h : Bool, let s := debugging 1 h
      let u := s.focus s.selTile
      (u.tile.life.secure || (u.tile.ctx s.selTag).life.secure) = false ∧ u.mayHold (u.tile.ctx s.selTag) = true ∧ (u.tile.ctx s.selTag).life.st = .issuing ∧ (u.tile.ctx s.selTag).dbg.held = h)
    ∧ (let s := debugging 0 false; s.focus s.selTile |>.mayHold ((s.focus s.selTile).tile.ctx s.selTag)) = false
    ∧ (∃ b ∈ (pairing [beat 1 false false, beat 2 true true]).beat? 1, b.here = false) ∧ (∃ b ∈ (pairing [beat 1 false true]).beat? 1, b.here = true)
    ∧ Paired (beat 1 false false) (beat 2 true true) ∧ ((pairing [beat 1 false false]).wafer.dbg.beats.filter (·.here)).length < 256
    ∧ (let d := (pairing []).wafer.dbg; (d.pairp.extractLsb' 8 8).toNat + ((0x80000101 : BitVec 32).extractLsb' 8 8).toNat ≤ (d.pairs.extractLsb' 8 8).toNat)
    ∧ (∀ y ∈ (moving none .live []).modTile (fun t => { t with kernels := [] }) |>.tiles, y.kernels = []) := by unfold Paired; and_intros <;> decide

/-- A mismatch of a paired run, with a beat on its way; a full pair buffer; a secure context selected by a non-secure function; a bank of registers selected. -/
theorem test_witness_HostDebug_mismatch : (let s := (pairing [beat 1 false false]).modWafer (fun w => { w with dbg := { w.dbg with mismatch := true } })
      s.wafer.dbg.mismatch = true ∧ ∃ b ∈ s.beat? 1, b.here = false)
    ∧ 256 ≤ ((pairing (beat 1 false false :: (List.replicate 256 (beat 2 false true)))).wafer.dbg.beats.filter (·.here)).length
    ∧ (let s := base.modCtx (fun c => { c with life := { c.life with secure := true } }); ((s.focus s.selTile).tile.ctx s.selTag).life.secure = true)
    ∧ base.wafer.links.rsel ≠ 0xFFFF ∧ (0x70000 + 0x100 * (63 : PortId).val : Nat) = (0x73F00 : BitVec 32).toNat ∧ base.WriteGood 0xB04 := by
  unfold State.WriteGood; and_intros <;> decide

/-- A spare whose scrub stands at a beat with an uncorrectable word. -/
theorem test_witness_EndOfCycle_spare : let x : SpareTile := { px := 2, py := 0, mem := { spad := { bad := [8] } }, sram := { beat := 1, late := true } }
    ({ base with wafer := { base.wafer with spareMem := [x] } } : State).wafer.migration = none ∧ x.sram.overdue = false ∧ x.sram.late = true ∧ x.sram.beat < 32768
    ∧ ({ at' := ⟨0, 0⟩, mem := x.mem } : Tile).readBad .spad (64 * x.sram.beat) 64 = true := by and_intros <;> decide

/-- A tile that runs, with nothing left to the end of the cycle, and with one thing. -/
theorem test_witness_EndOfCycle : base.tile.core.atEnd = [] ∧ base.tile.acct.counts = [] ∧ base.tile.life.st.runs = true ∧ base.wafer.timeOffset = none
    ∧ (∀ a ∈ [EndAct.colours 0 64 true, .arm 0 true, .prio 0 3, .halt 0, .killBegin 0 none true, .snapshot], (base.modCore (fun c => { c with atEnd := [a] })).tile.core.atEnd = [a])
    ∧ (let q := ((base.modCtx (fun c => { c with sems := { c.sems with s := c.sems.s.set 4 65535, inc := c.sems.inc.set 4 1 } })).tile.ctx 0).sems
       q.put = [] ∧ 65535 < ((q.s)[(4 : Fin 32)]).toNat + (q.inc)[(4 : Fin 32)]) := by and_intros <;> decide

/-- base with a bundle at its PC. -/
def placed (b : Bundle) : State := State.reset.placeBundle b

def runBundles : Fin 7 → Bundle
  | 0 => bundleWith 0x04210A00 0 | 1 => bundleWith 0x0520C000 1 | 2 => bundleWith 0x0E430200 2 | 3 => bundleWith 0x1820C000 3 | 4 => 0
  | 5 => bundleWith 0xFC083000 2 | 6 => bundleWith 0x04210A00 0 ||| bundleWith 0x0520C000 1

theorem test_witness_StepRunsDecoded : ∀ n : Fin 7, let s := placed (runBundles n)
    let u := ({ s with agenda := [] } : State).focus here
    let v := u.focusTag 0
    s.agenda = [.attempt here 0] ∧ u.tile.core.seats[(0 : Fin 2)] = some { tag := 0, since := 0 } ∧ u.mayTry { tag := 0, since := 0 } = true ∧ u.tile.core.log.stepping = [] ∧ u.stepSeat = none
    ∧ v.fetched = runBundles n ∧ u.swapSeated ≠ some 0 ∧ v.fetchBad = false ∧ v.ctx.dbg.step = none ∧ v.ctx.doneSlots = 0 ∧ hasHeader (runBundles n) = false := by decide +kernel

/-- A swap that waits for the seat's context. -/
theorem test_witness_StepRunsDecoded_swap : ((swapping .staged (some swap0) none []).focus here).swapSeated = some 0 := by decide

/-- The cases of the last clauses: a word that decodes, one that no opcode has, and two slots in use. -/
theorem test_witness_StepRunsDecoded_words : decodeSlot 0 (slotWord (runBundles 0) 0) = .ok (.add 0 4 4 5) ∧ (∃ n, decodeSlot 2 (slotWord (runBundles 5) 2) = .error n)
    ∧ runBundles 4 = 0 ∧ slotWord (runBundles 6) 0 ≠ 0 ∧ slotWord (runBundles 6) 1 ≠ 0 := by
  refine ⟨by rfl, ⟨_, by rfl⟩, by decide, by decide, by decide⟩

theorem test_witness_StepKeepsMemory : base.memWf = true ∧ (match step base with | .next _ => true | _ => false) = true ∧ (blocked walkBlock).memWf = true := by and_intros <;> decide

theorem test_witness_StepKeepsSerials : State.reset.Serials ∧ (netting [rop 1 .rst 0 0, rop 2 .radd 1 3] [.op (rop 1 .rst 0 0)]).Serials := by unfold State.Serials; and_intros <;> decide

theorem test_witness_AlwaysAnswers : (64 : Nat) ≤ 64 ∧ extLimit < extLimit + 1 ∧ ¬ extLimit < (extLimit - 64) + 64 := by decide

theorem test_witness_DecodeEncode : (Instr.nop).wf = true ∧ (Instr.nop).slot? = some 0 ∧ (Instr.gid 3 31 7).wf = true ∧ (Instr.vadd 3 15 25 24 7 5).slot? = some 1
    ∧ (match decodeSlot 2 0x0E430200 with | .ok i => i == .vld 2 4 6 0x200 | .error _ => false) = true := by and_intros <;> decide

end Sys2Proof.Tests
end

section
/-! PROOF. A slot that reads registers and writes one, without waits, feeds or checks of its own; from it predicate logic and SEL
(R100, R101); and how a word of which no row of its major opcode holds the code bits is read (R77). -/

namespace Sys2Proof.Machine

/-! ### A slot that reads registers and writes one -/

/-- Sound registers pass the checks of a slot that has no others. -/
theorem SlotOp.firstFail_of_filesGood (o : SlotOp) (s : State) (hconsumes : o.consumes = fun _ => false) (hpops : o.pops = [])
    (hchecks : o.checks = fun _ => none) (hgood : s.filesGood o.reads) : o.firstFail (o.lookAt s.gathering) = none := by
  have hreads : o.reads.any (fun r => s.ctx.regBad.contains r) = false := by
    rw [← Bool.not_eq_true', List.not_any_eq_all_not]
    exact hgood
  simp only [SlotOp.firstFail, hconsumes, hpops, hchecks, SlotOp.lookAt_ctx, State.gathering_ctx, State.reads_regBad, hreads,
    List.any_nil, Bool.false_eq_true, ↓reduceIte]

/-- An instruction whose meaning is a slot with sources rs and an effect alone completes with the result that the effect leaves pending;
its effect sees the state in which operands are read, whatever the scratch of the attempt holds. -/
theorem Completes.of_sources (i : Instr) (s : State) (slot : Nat) (p : BitVec 2) (rs : List RegRef) (act : State → State)
    (hi : exec i s = .next (SlotOp.run { slot := slot, pred := p, reads := rs, act := act } s)) (hc : s.Clear) (hp : s.predOn p)
    (hgood : s.filesGood rs) (k : Nat) (l : Lat) (w : RegWrite) (q : Bool)
    (hact : ∀ x, act (s.reads.withIssue x) = (s.reads.withIssue x).pend k l w q) :
    Completes i s s.reads [s.reads.result k l w q] := by
  refine Completes.of_result i _ s hi hc hp rfl rfl rfl rfl rfl (SlotOp.firstFail_of_filesGood _ s rfl rfl rfl hgood) k l w q ?_
  rw [SlotOp.lookAt_eq]
  exact hact _

/-! ### Predicate logic and SEL (R100, R101) -/

/-- An instruction that means predicate logic by f combines its operands, each inverted where its bit says so, and is poisoned by
either (R100). -/
theorem completes_opPlog (i : Instr) (f : Bool → Bool → Bool) (s : State) (p : BitVec 2) (d a b : BitVec 3) (ia ib : BitVec 1)
    (hi : exec i s = .next ((opPlog f p d a b ia ib).run s)) (hc : s.Clear) (hp : s.predOn p) (hgood : s.filesGood [.p a, .p b]) :
    Completes i s s.reads
      [s.reads.result 0 (.n 1) (.p d (f (s.reads.p a != (ia == 1)) (s.reads.p b != (ib == 1)))) (s.reads.anyPoison [.p a, .p b])] :=
  Completes.of_sources i s 0 p _ _ hi hc hp hgood _ _ _ _ (fun _ => rfl)

theorem completes_sel (s : State) (p : BitVec 2) (d a b : BitVec 5) (c : BitVec 3) (v : BitVec 1) (hc : s.Clear) (hp : s.predOn p)
    (hgood : s.filesGood [.g a, .g b, .p c]) :
    Completes (.sel p d a b c v) s s.reads
      [s.reads.result 0 (.n 1) (.g d (if s.reads.p c != (v == 1) then s.reads.g a else s.reads.g b))
        (s.reads.anyPoison [.g a, .g b, .p c])] :=
  Completes.of_sources (.sel p d a b c v) s 0 p _ _ rfl hc hp hgood _ _ _ _ (fun _ => rfl)

/-! ### Codes that no row of a major opcode holds (R77) -/

theorem pickRow_eq_none (n : Nat) (rs : List Row) (h : ∀ r ∈ rs, r.code.all (bitsAre n) = false) : pickRow n rs = none := by
  induction rs with
  | nil => rfl
  | cons r rs ih =>
    obtain ⟨hr, hrs⟩ := List.forall_mem_cons.mp h
    simp only [pickRow, hr, Bool.false_eq_true, ↓reduceIte, ih hrs]

/-- A word of a defined major opcode whose code bits are those of none of its rows is reserved with KIND 1. -/
theorem decodeSlot_of_pickRow_none (slot : Fin 4) (w : BitVec 32) (hw : w.toNat ≠ 0) (hh : ¬ (slot = 0 ∧ w.toNat / 2 ^ 27 = 31))
    (hrows : rowsOf slot (w.toNat / 2 ^ 26) ≠ []) (hpick : pickRow w.toNat (rowsOf slot (w.toNat / 2 ^ 26)) = none) :
    decodeSlot slot w = .error 1 := by
  unfold decodeSlot
  simp only [hw, hh, ↓reduceIte]
  generalize rowsOf slot (w.toNat / 2 ^ 26) = rows at hrows hpick
  cases rows with
  | nil => exact absurd rfl hrows
  | cons r rs => simp only [hpick]

/-- A row that chooses by the two low bits is not that of function 11, unless it is for that function. -/
theorem lowBits_code_eq_false (n v : Nat) (h : n % 4 = 3) (hv : v ≠ 3) : [(0, 2, v)].all (bitsAre n) = false := by
  have hne : n / 2 ^ 0 % 2 ^ 2 ≠ v := by omega
  have hbits : bitsAre n (0, 2, v) = false := beq_eq_false_iff_ne.mpr hne
  simp only [List.all_cons, hbits, Bool.false_and]

/-- Function 11 is none of PAND, POR and PXOR. -/
theorem plogRows_code_eq_false (n : Nat) (h : n % 4 = 3) : ∀ r ∈ rows0_12, r.code.all (bitsAre n) = false := by
  intro r hr
  simp only [rows0_12, List.mem_cons, List.not_mem_nil, or_false] at hr
  rcases hr with rfl | rfl | rfl
  case inl => exact lowBits_code_eq_false n 0 h (by decide)
  case inr.inl => exact lowBits_code_eq_false n 1 h (by decide)
  case inr.inr => exact lowBits_code_eq_false n 2 h (by decide)

/-- R100: function 11 of PLOG is reserved. -/
theorem decodeSlot_plog_eleven (w : BitVec 32) (hmajor : w.toNat / 2 ^ 26 = 0x12) (hfn : w.toNat % 4 = 3) :
    decodeSlot 0 w = .error 1 := by
  have hrows : rowsOf 0 (w.toNat / 2 ^ 26) = rows0_12 := by rw [hmajor]; rfl
  refine decodeSlot_of_pickRow_none 0 w (by omega) (by omega) ?_ ?_
  · rw [hrows]; exact List.cons_ne_nil _ _
  · rw [hrows]; exact pickRow_eq_none _ _ (plogRows_code_eq_false _ hfn)

/-- Settles O4: the three functions are one slot, function 11 has no row, and SEL is a slot with three sources. -/
theorem predicateLogicAndSelect : Obligations.PredicateLogicAndSelect := by
  refine ⟨?_, decodeSlot_plog_eleven, completes_sel⟩
  intro x hx s p d a b ia ib hc hp hgood
  simp only [plog, List.mem_cons, List.not_mem_nil, or_false] at hx
  rcases hx with rfl | rfl | rfl
  case inl => exact completes_opPlog (.pand p d a b ia ib) (· && ·) s p d a b ia ib rfl hc hp hgood
  case inr.inl => exact completes_opPlog (.por p d a b ia ib) (· || ·) s p d a b ia ib rfl hc hp hgood
  case inr.inr => exact completes_opPlog (.pxor p d a b ia ib) (· != ·) s p d a b ia ib rfl hc hp hgood

end Sys2Proof.Machine
end

section
/-! PROOF. A V slot that reads sources, some of them feeds, and writes one register (R71, R72); the elements and lanes of packed vectors
(R37, R117); from them compares, mask logic and VSEL (R126 to R128). -/

namespace Sys2Proof.Machine

/-! ### Popping a feed and the scratch of the attempt

What a pop does to the machine depends on the scratch only through the vectors that the bundle has popped. -/

theorem State.defer_withIssue (s : State) (i : Issue) (k : Tag) (code : BitVec 8) :
    (s.withIssue i).defer k code = (s.defer k code).withIssue i := by
  by_cases hgone : (s.tile.ctx k).life.st = .empty ∨ (s.tile.ctx k).life.st = .killing
  · simp only [State.defer, State.withIssue_tile, hgone, ↓reduceIte, apply_ite (State.withIssue · i)]
    rfl
  · simp only [State.defer, State.withIssue_tile, hgone, ↓reduceIte]
    cases (s.tile.ctx k).life.deferred <;> rfl

theorem State.regionFault_withIssue (s : State) (i : Issue) (k : Tag) :
    (s.withIssue i).regionFault k = (s.regionFault k).withIssue i := by
  simp only [State.regionFault, State.withIssue_tile, apply_ite (State.withIssue · i)]
  rfl

theorem State.modTile_withIssue (s : State) (i : Issue) (f : Tile → Tile) : (s.withIssue i).modTile f = (s.modTile f).withIssue i := rfl

theorem State.countExc_withIssue (s : State) (i : Issue) (e : Fin 3) (n : Nat) (k : Tag) :
    (s.withIssue i).countExc e n k = (s.countExc e n k).withIssue i := by
  simp only [State.countExc, State.withIssue_tile, State.modTile_withIssue, State.defer_withIssue, ← apply_ite (State.withIssue · i)]

@[simp] theorem State.defer_issue (s : State) (k : Tag) (code : BitVec 8) : (s.defer k code).issue = s.issue := by
  have h := congrArg State.issue (State.defer_withIssue s s.issue k code)
  exact h

@[simp] theorem State.regionFault_issue (s : State) (k : Tag) : (s.regionFault k).issue = s.issue := by
  have h := congrArg State.issue (State.regionFault_withIssue s s.issue k)
  exact h

@[simp] theorem State.countExc_issue (s : State) (e : Fin 3) (n : Nat) (k : Tag) : (s.countExc e n k).issue = s.issue := by
  have h := congrArg State.issue (State.countExc_withIssue s s.issue e n k)
  exact h

/-- What the issue of a bundle asks of the context, and the floating mode: a pop leaves them as they are. -/
def Context.popKept (c : Context) : Bool × BitVec 32 × BitVec 4 × Bool :=
  (c.sys.inHandler, c.sys.fpc, c.doneSlots, c.life.partLanded)

theorem Context.semAdd_popKept (c : Context) (n : BitVec 5) (k : Nat) : (c.semAdd n k).popKept = c.popKept := by
  unfold Context.semAdd
  split
  · rfl
  · split <;> rfl

theorem Context.recordPoison_popKept (c : Context) (r : BitVec 64) : (c.recordPoison r).popKept = c.popKept := by
  unfold Context.recordPoison
  split <;> rfl

/-- The fault that a poisoned vector raises when it leaves feed f (R286, R289). -/
def State.popFault (s : State) (f : Fin 8) (poison : Bool) : State :=
  if !poison then s
  else if s.tile.contains s.tag (s.ctx.feeds[f]).region then s.regionFault s.tag else s.defer s.tag 0x5B

/-- A vector put among those that the bundle has popped (R72). -/
def State.notePopped (s : State) (x : Fin 8 × Vec × Bool) : State := s.withIssue { s.issue with popped := s.issue.popped ++ [x] }

/-- A pop of the vector v changes the context in focus, counts v's NaN lanes, raises v's fault and puts v among the popped vectors; the
change of the context is the same whatever else the machine holds. -/
theorem State.popFeed_pops (slot : Nat) (f : Fin 8) (v : HeldVec) (rest : List HeldVec) :
    ∃ g : Context → Context, (∀ c, (g c).popKept = c.popKept) ∧ ∀ u : State, u.issue.popped.any (fun p => p.1 == f) = false →
      (u.ctx.feeds[f]).held = v :: rest →
      State.popFeed slot u f = (((u.modCtx g).countExc 1 v.nans u.tag).popFault f v.poison).notePopped (f, v.val, v.poison) := by
  refine ⟨?change, ?keeps, fun u hnew hheld => ?pops⟩
  case pops =>
    unfold State.popFeed
    rw [hnew, hheld]
    rfl
  case keeps =>
    intro c
    simp only [apply_ite Context.popKept, Context.recordPoison_popKept, Context.semAdd_popKept, ite_self]
    rfl

/-- A feed that the bundle has popped before, or that holds nothing, gives nothing. -/
theorem State.popFeed_idle (slot : Nat) (s : State) (f : Fin 8)
    (h : s.issue.popped.any (fun p => p.1 == f) = true ∨ (s.ctx.feeds[f]).held = []) : State.popFeed slot s f = s := by
  unfold State.popFeed
  rcases h with h | h
  · rw [if_pos h]
  · rw [h]
    exact ite_self s

theorem State.popFault_withIssue (s : State) (i : Issue) (f : Fin 8) (poison : Bool) :
    (s.withIssue i).popFault f poison = (s.popFault f poison).withIssue i := by
  simp only [State.popFault, State.withIssue_tile, State.withIssue_tag, State.withIssue_ctx, State.regionFault_withIssue,
    State.defer_withIssue, ← apply_ite (State.withIssue · i)]

@[simp] theorem State.popFault_issue (s : State) (f : Fin 8) (poison : Bool) : (s.popFault f poison).issue = s.issue := by
  have h := congrArg State.issue (State.popFault_withIssue s s.issue f poison)
  exact h

theorem State.modCtx_withIssue (s : State) (i : Issue) (g : Context → Context) : (s.withIssue i).modCtx g = (s.modCtx g).withIssue i := rfl

/-- A pop in an attempt with another scratch but the same popped vectors does the same, and pops the same vectors. -/
theorem State.popFeed_withIssue (slot : Nat) (s : State) (i : Issue) (f : Fin 8) (hi : i.popped = s.issue.popped) :
    State.popFeed slot (s.withIssue i) f
      = (State.popFeed slot s f).withIssue { i with popped := (State.popFeed slot s f).issue.popped } := by
  by_cases hidle : s.issue.popped.any (fun p => p.1 == f) = true ∨ (s.ctx.feeds[f]).held = []
  · rw [State.popFeed_idle slot s f hidle, State.popFeed_idle slot (s.withIssue i) f (by rwa [State.withIssue_issue, hi]), ← hi]
  · obtain ⟨hnew, hheld⟩ := not_or.mp hidle
    rw [Bool.not_eq_true] at hnew
    obtain ⟨v, rest, hheld⟩ := List.exists_cons_of_ne_nil hheld
    obtain ⟨g, -, hpop⟩ := State.popFeed_pops slot f v rest
    rw [hpop s hnew hheld, hpop (s.withIssue i) (by rwa [State.withIssue_issue, hi]) hheld]
    simp only [State.notePopped, State.modCtx_withIssue, State.withIssue_tag, State.countExc_withIssue, State.popFault_withIssue,
      State.withIssue_issue, State.withIssue_withIssue, State.popFault_issue, State.countExc_issue, State.modCtx_issue, hi]

/-- So do the pops of several feeds. -/
theorem State.popFeeds_withIssue (slot : Nat) (fs : List (Fin 8)) (s : State) (i : Issue) (hi : i.popped = s.issue.popped) :
    fs.foldl (State.popFeed slot) (s.withIssue i)
      = (fs.foldl (State.popFeed slot) s).withIssue { i with popped := (fs.foldl (State.popFeed slot) s).issue.popped } := by
  induction fs generalizing s i with
  | nil => simp only [List.foldl_nil, ← hi]
  | cons f fs ih =>
    simp only [List.foldl_cons]
    rw [State.popFeed_withIssue slot s i f hi]
    exact ih _ _ rfl

/-! ### What a pop leaves as it was -/

/-- What the issue of a bundle asks of the machine, and the floating mode. -/
def State.popKept (s : State) : (Bool × BitVec 32 × BitVec 4 × Bool) × Counts := (s.ctx.popKept, s.tile.acct.loops)

theorem State.modCtx_popKept (s : State) (g : Context → Context) (hg : ∀ c, (g c).popKept = c.popKept) :
    (s.modCtx g).popKept = s.popKept := by
  simp only [State.popKept, State.ctx_modCtx, hg, State.modCtx_tile, Tile.modCtx_acct]

theorem State.modTile_modCtx_popKept (s : State) (k : Tag) (g : Context → Context) (hg : ∀ c, (g c).popKept = c.popKept) :
    (s.modTile (fun t => t.modCtx k g)).popKept = s.popKept := by
  have hctx : ((s.tile.modCtx k g).ctx s.tag).popKept = (s.tile.ctx s.tag).popKept := by
    by_cases hk : s.tag = k
    · rw [hk, Tile.ctx_modCtx, hg]
    · rw [Tile.ctx_modCtx_ne _ _ hk]
  exact congrArg (·, s.tile.acct.loops) hctx

theorem State.modWafer_popKept (s : State) (f : Wafer → Wafer) : (s.modWafer f).popKept = s.popKept := rfl

theorem State.defer_popKept (s : State) (k : Tag) (code : BitVec 8) : (s.defer k code).popKept = s.popKept := by
  by_cases hgone : (s.tile.ctx k).life.st = .empty ∨ (s.tile.ctx k).life.st = .killing
  · simp only [State.defer, hgone, ↓reduceIte, apply_ite State.popKept, State.modWafer_popKept, ite_self]
  · simp only [State.defer, hgone, ↓reduceIte]
    cases (s.tile.ctx k).life.deferred with
    | none => exact State.modTile_modCtx_popKept s k _ (fun _ => rfl)
    | some old => exact State.modTile_modCtx_popKept s k _ (fun _ => rfl)

theorem State.regionFault_popKept (s : State) (k : Tag) : (s.regionFault k).popKept = s.popKept := by
  simp only [State.regionFault, apply_ite State.popKept]
  split
  · exact State.modTile_modCtx_popKept s k _ (fun _ => rfl)
  · rfl

theorem State.countExc_popKept (s : State) (e : Fin 3) (n : Nat) (k : Tag) : (s.countExc e n k).popKept = s.popKept := by
  simp only [State.countExc, apply_ite State.popKept, State.defer_popKept, ite_self]
  exact ite_self _

theorem State.popFault_popKept (s : State) (f : Fin 8) (poison : Bool) : (s.popFault f poison).popKept = s.popKept := by
  simp only [State.popFault, apply_ite State.popKept, State.regionFault_popKept, State.defer_popKept, ite_self]

theorem State.popFeed_popKept (slot : Nat) (s : State) (f : Fin 8) : (State.popFeed slot s f).popKept = s.popKept := by
  by_cases hidle : s.issue.popped.any (fun p => p.1 == f) = true ∨ (s.ctx.feeds[f]).held = []
  · rw [State.popFeed_idle slot s f hidle]
  · obtain ⟨hnew, hheld⟩ := not_or.mp hidle
    rw [Bool.not_eq_true] at hnew
    obtain ⟨v, rest, hheld⟩ := List.exists_cons_of_ne_nil hheld
    obtain ⟨g, hg, hpop⟩ := State.popFeed_pops slot f v rest
    rw [hpop s hnew hheld]
    calc (((s.modCtx g).countExc 1 v.nans s.tag).popFault f v.poison).popKept
      _ = ((s.modCtx g).countExc 1 v.nans s.tag).popKept := State.popFault_popKept _ _ _
      _ = (s.modCtx g).popKept := State.countExc_popKept _ _ _ _
      _ = s.popKept := State.modCtx_popKept s g hg

theorem State.pend_popKept (s : State) (k : Nat) (l : Lat) (w : RegWrite) (q : Bool) : (s.pend k l w q).popKept = s.popKept :=
  State.modCtx_popKept s _ (fun _ => rfl)

theorem Sources_popKept (s : State) (as : List (BitVec 5)) (slot : Nat) : (Sources s as slot).popKept = s.reads.popKept := by
  unfold Sources
  generalize as.flatMap srcPops = fs
  generalize s.reads = u
  induction fs generalizing u with
  | nil => rfl
  | cons f fs ih => rw [List.foldl_cons, ih, State.popFeed_popKept]

/-! ### A slot that reads sources and registers and writes one register -/

theorem State.reads_feeds (s : State) : s.reads.ctx.feeds = s.ctx.feeds := by simp only [State.reads, State.ctx_modCtx, Context.landed]

/-- A slot without waits of its own waits for nothing when each of its feeds has a vector that can be popped (R72). -/
theorem SlotOp.holds_allWaits_of_due (o : SlotOp) (s : State) (hgate : o.gated = false) (hwaits : o.waits = fun _ => [])
    (hdue : ∀ f ∈ o.pops, ∃ v vs, (s.ctx.feeds[f]).held = v :: vs ∧ v.due ≤ s.now) :
    ∀ c ∈ o.allWaits (o.lookAt s.gathering), (o.lookAt s.gathering).holds c = true := by
  intro c hmem
  simp only [SlotOp.allWaits, hgate, hwaits, Bool.false_eq_true, ↓reduceIte, List.nil_append, List.append_nil] at hmem
  obtain ⟨f, hf, rfl⟩ := List.mem_map.mp hmem
  obtain ⟨v, vs, hheld, hv⟩ := hdue f hf
  have hnow : (o.lookAt s.gathering).now = s.now := by rw [SlotOp.lookAt_eq]; rfl
  simp only [State.holds, SlotOp.lookAt_ctx, State.gathering_ctx, State.reads_feeds, hheld, hnow, hv, decide_true, Bool.or_true]

/-- The state in which the slot of a bundle that holds one instruction has its effect: operands as read, with a scratch that has popped
nothing and neither transfers nor starts a loop. -/
theorem SlotOp.lookAt_commit (o : SlotOp) (s : State) (hc : s.Clear) : ∃ j : Issue, (o.lookAt s.gathering).inPhase .commit = s.reads.withIssue j
    ∧ j.popped = s.reads.issue.popped ∧ j.transfer = none ∧ j.loop = none := by
  refine ⟨((o.lookAt s.gathering).inPhase .commit).issue, ?_⟩
  rw [SlotOp.lookAt_eq, State.reads, State.modCtx_issue, hc.1]
  exact ⟨rfl, rfl, rfl, rfl⟩

/-- Sound registers and ACTIVE feeds pass the checks of a slot that has no others. -/
theorem SlotOp.firstFail_of_active (o : SlotOp) (s : State) (hconsumes : o.consumes = fun _ => false) (hchecks : o.checks = fun _ => none)
    (hgood : s.filesGood o.reads) (hactive : ∀ f ∈ o.pops, (s.ctx.feeds[f]).active = true) : o.firstFail (o.lookAt s.gathering) = none := by
  have hreads : o.reads.any (fun r => s.ctx.regBad.contains r) = false := by
    rw [← Bool.not_eq_true', List.not_any_eq_all_not]
    exact hgood
  have hpops : o.pops.any (fun f => !(s.ctx.feeds[f]).active) = false :=
    List.any_eq_false.mpr (fun f hf => by rw [hactive f hf]; decide)
  simp only [SlotOp.firstFail, hconsumes, hchecks, SlotOp.lookAt_ctx, State.gathering_ctx, State.reads_regBad, State.reads_feeds, hreads,
    hpops, Bool.false_eq_true, ↓reduceIte]

/-- What Clear says of the state in which operands are read holds still when feeds have been popped. -/
theorem State.Clear.quiet_of_popKept {s r : State} (hc : s.Clear) (h : r.popKept = s.reads.popKept) :
    (r.ctx.sys.inHandler = true ∨ r.tile.acct.loops.all (fun e => decide (e.2 < 0xFFFFFF00)) = true)
      ∧ r.ctx.doneSlots = 0 ∧ r.ctx.life.partLanded = false := by
  simp only [State.popKept, Context.popKept, Prod.mk.injEq] at h
  obtain ⟨⟨hhandler, -, hdone, hpart⟩, hloops⟩ := h
  rw [hhandler, hdone, hpart, hloops]
  exact hc.quiet

/-- An instruction of the V slot whose meaning is to read the V sources as and the registers rs and to leave one result completes with it;
its effect sees the state in which the sources have been read, whatever else the scratch of the attempt holds. -/
theorem Completes.of_fed (i : Instr) (s : State) (p : BitVec 2) (as : List (BitVec 5)) (rs reads : List RegRef) (pops : List (Fin 8))
    (act : State → State) (hi : exec i s = .next (SlotOp.run { slot := 1, pred := p, reads := reads, pops := pops, act := act } s))
    (hreads : reads = as.flatMap srcRegs ++ rs) (hpops : pops = as.flatMap srcPops) (hp : s.predOn p) (hfed : Fed s as rs)
    (l : Lat) (w : RegWrite) (q : Bool)
    (hact : ∀ x : Issue, x.popped = (Sources s as).issue.popped →
      act ((Sources s as).withIssue x) = ((Sources s as).withIssue x).pend 1 l w q) :
    Completes i s (Sources s as) [(Sources s as).result 1 l w q] := by
  obtain ⟨hc, hgood, hfeeds⟩ := hfed
  subst hreads hpops
  generalize ho : ({ slot := 1, pred := p, reads := as.flatMap srcRegs ++ rs, pops := as.flatMap srcPops, act := act } : SlotOp) = o at hi
  have hready := SlotOp.holds_allWaits_of_due o s (by rw [← ho]) (by rw [← ho]) (by rw [← ho]; exact fun f hf => (hfeeds f hf).2)
  have hsound : o.firstFail (o.lookAt s.gathering) = none := by
    subst ho
    exact SlotOp.firstFail_of_active _ s rfl rfl hgood (fun f hf => (hfeeds f hf).1)
  obtain ⟨j, hcommit, hnone, htransfer, hloop⟩ := SlotOp.lookAt_commit o s hc
  have heffect : o.act (o.pops.foldl (State.popFeed o.slot) ((o.lookAt s.gathering).inPhase .commit))
      = ((Sources s as).withIssue { j with popped := (Sources s as).issue.popped }).pend 1 l w q := by
    rw [hcommit, State.popFeeds_withIssue _ _ _ _ hnone]
    subst ho
    exact hact _ rfl
  obtain ⟨hquiet, hdone, hpart⟩ := hc.quiet_of_popKept ((State.pend_popKept _ 1 l w q).trans (Sources_popKept s as 1))
  obtain ⟨t, hrun, hissues⟩ := SlotOp.run_issues o s hc (by rw [← ho]; exact hp) (by rw [← ho]) (by rw [← ho]) hready hsound _ heffect
    htransfer hloop hquiet hdone hpart
  exact ⟨t, by rw [hi, hrun], hissues.of_pend.congr rfl⟩

/-- So does one that reads two V sources and a mask. -/
theorem Completes.of_two_sources (i : Instr) (s : State) (p : BitVec 2) (a b : BitVec 5) (m : BitVec 3) (act : State → State)
    (hi : exec i s = .next (SlotOp.run { slot := 1, pred := p, reads := srcRegs a ++ srcRegs b ++ [.m m], pops := srcPops a ++ srcPops b, act := act } s))
    (hp : s.predOn p) (hfed : Fed s [a, b] [.m m]) (l : Lat) (w : RegWrite) (q : Bool)
    (hact : ∀ x : Issue, x.popped = (Sources s [a, b]).issue.popped →
      act ((Sources s [a, b]).withIssue x) = ((Sources s [a, b]).withIssue x).pend 1 l w q) :
    Completes i s (Sources s [a, b]) [(Sources s [a, b]).result 1 l w q] :=
  Completes.of_fed i s p [a, b] [.m m] _ _ act hi
    (by rw [List.flatMap_cons, List.flatMap_singleton]) (by rw [List.flatMap_cons, List.flatMap_singleton]) hp hfed l w q hact

/-! ### The values of the sources -/

/-- The value of a V source depends on the scratch only through the popped vectors. -/
theorem State.vsrc_withIssue (s : State) (x : Issue) (hx : x.popped = s.issue.popped) (a : BitVec 5) : (s.withIssue x).vsrc a = s.vsrc a := by
  simp only [State.vsrc, State.withIssue_issue, State.withIssue_ctx, hx]

/-- The floating mode is that of the state before the pops. -/
theorem Sources_fpMode (s : State) (as : List (BitVec 5)) (slot : Nat) : (Sources s as slot).fpMode = FpMode.of s.ctx.sys.fpc := by
  have h := Sources_popKept s as slot
  simp only [State.popKept, Context.popKept, Prod.mk.injEq] at h
  obtain ⟨⟨-, hfpc, -, -⟩, -⟩ := h
  rw [State.fpMode, hfpc]
  simp only [State.reads, State.ctx_modCtx, Context.landed]

/-! ### Packed elements and lanes (R37, R117) -/

theorem packElems_lt (w : Nat) (f : Nat → Nat) (n : Nat) : packElems w f n < 2 ^ (w * n) := by
  induction n with
  | zero => exact Nat.one_pos
  | succ n ih =>
    have hf : f n % 2 ^ w + 1 ≤ 2 ^ w := Nat.mod_lt _ (Nat.two_pow_pos w)
    rw [packElems, Nat.shiftLeft_eq, Nat.mul_succ, Nat.pow_add]
    calc packElems w f n + f n % 2 ^ w * 2 ^ (w * n)
      _ < (f n % 2 ^ w + 1) * 2 ^ (w * n) := by rw [Nat.succ_mul]; omega
      _ ≤ 2 ^ (w * n) * 2 ^ w := by rw [Nat.mul_comm]; exact Nat.mul_le_mul_left _ hf

/-- Element j of a packed number. -/
theorem packElems_element (w : Nat) (f : Nat → Nat) (n j : Nat) (hj : j < n) : packElems w f n / 2 ^ (w * j) % 2 ^ w = f j % 2 ^ w := by
  induction n with
  | zero => exact absurd hj (Nat.not_lt_zero j)
  | succ n ih =>
    rw [packElems, Nat.shiftLeft_eq]
    rcases Nat.lt_succ_iff_lt_or_eq.mp hj with hlt | rfl
    · obtain ⟨k, rfl⟩ := Nat.exists_eq_add_of_lt hlt
      have hsplit : f (j + k + 1) % 2 ^ w * 2 ^ (w * (j + k + 1)) = 2 ^ (w * j) * (2 ^ w * (2 ^ (w * k) * (f (j + k + 1) % 2 ^ w))) := by
        rw [show w * (j + k + 1) = w * j + (w + w * k) by rw [Nat.mul_succ, Nat.mul_add, Nat.add_assoc, Nat.add_comm (w * k)],
          Nat.pow_add, Nat.pow_add, Nat.mul_comm, Nat.mul_assoc, Nat.mul_assoc]
      rw [hsplit, Nat.add_mul_div_left _ _ (Nat.two_pow_pos _), Nat.add_mul_mod_self_left, ih hlt]
    · rw [Nat.add_mul_div_right _ _ (Nat.two_pow_pos _), Nat.div_eq_of_lt (packElems_lt w f j), Nat.zero_add, Nat.mod_mod]

theorem packElems_toNat (w : Nat) (f : Nat → Nat) (n : Nat) : (BitVec.ofNat (w * n) (packElems w f n)).toNat = packElems w f n := by
  rw [BitVec.toNat_ofNat, Nat.mod_eq_of_lt (packElems_lt w f n)]

theorem ofLanesNat_eq_packElems (f : Nat → Nat) (n : Nat) : ofLanesNat f n = packElems 32 f n := by
  induction n with
  | zero => rfl
  | succ n ih => rw [ofLanesNat, packElems, ih]

theorem lane_ofLanes (f : Nat → Word) (L : Nat) (hL : L < 128) : lane (ofLanes f) L = f L := by
  have hpacked : (ofLanes f).toNat = packElems 32 (fun l => (f l).toNat) 128 := by
    rw [ofLanes, ofLanesNat_eq_packElems]
    exact packElems_toNat 32 _ 128
  apply BitVec.eq_of_toNat_eq
  rw [lane, BitVec.toNat_ofNat, hpacked, Nat.shiftRight_eq_div_pow, packElems_element 32 _ 128 L hL, Nat.mod_eq_of_lt (f L).isLt]

theorem lane_eq_extractLsb' (v : Vec) (L : Nat) : lane v L = v.extractLsb' (32 * L) 32 := rfl

theorem lane_not (v : Vec) (L : Nat) (hL : L < 128) : lane (~~~v) L = ~~~(lane v L) := by
  ext i hi
  have hin : 32 * L + i < 4096 := by omega
  simp only [lane_eq_extractLsb', BitVec.getElem_extractLsb', BitVec.getElem_not, BitVec.getLsbD_not, hin, decide_true, Bool.true_and]

/-- A merged vector takes the lanes of its mask from the new vector and the others from the old one. -/
theorem lane_mergeLanes (m : Mask) (old x : Vec) (L : Nat) (hL : L < 128) :
    lane (mergeLanes m old x) L = if m.getLsbD L then lane x L else lane old L := by
  have hbits : lane (maskBits m) L = if m.getLsbD L then BitVec.allOnes 32 else 0#32 := lane_ofLanes _ L hL
  have hmerge : lane (mergeLanes m old x) L = lane x L &&& lane (maskBits m) L ||| lane old L &&& ~~~(lane (maskBits m) L) := by
    rw [← lane_not _ L hL]
    simp only [mergeLanes, lane_eq_extractLsb', BitVec.extractLsb'_or, BitVec.extractLsb'_and]
  rw [hmerge, hbits]
  split
  · rw [BitVec.not_allOnes, BitVec.and_allOnes, BitVec.and_zero, BitVec.or_zero]
  · rw [BitVec.not_zero, BitVec.and_allOnes, BitVec.and_zero, BitVec.zero_or]

/-- Bit L of a mask made from a predicate. -/
theorem maskOf_getLsbD (f : Nat → Bool) (L : Nat) (hL : L < 128) : (maskOf f).getLsbD L = f L := by
  have hbit := packElems_element 1 (fun l => if f l then 1 else 0) 128 L hL
  rw [Nat.one_mul, Nat.pow_one] at hbit
  rw [maskOf, BitVec.getLsbD_ofNat, decide_eq_true hL, Bool.true_and, Nat.testBit_eq_decide_div_mod_eq, hbit]
  cases f L <;> rfl

/-! ### Lane tests (R126) -/

/-- The mask of the lanes that mk has and whose n elements all pass a test. -/
def laneTest (mk : Mask) (n : Nat) (test : Nat → Bool) : Mask :=
  maskOf (fun l => mk.toNat.testBit l && (List.range n).all (fun e => test (l * n + e)))

theorem laneTest_getLsbD (mk : Mask) (n : Nat) (test : Nat → Bool) (L : Nat) (hL : L < 128) :
    (laneTest mk n test).getLsbD L = true ↔ mk.getLsbD L = true ∧ ∀ e < n, test (L * n + e) = true := by
  rw [laneTest, maskOf_getLsbD _ L hL, Bool.and_eq_true, List.all_eq_true, BitVec.testBit_toNat]
  simp only [List.mem_range]

/-- The value of an element is that of its bits. -/
theorem intVal_element (w : Nat) (sg : Bool) (v : Vec) (j : Nat) : intVal w sg (element w v j) = elementInt w sg v j := by
  have hbits : element w v j = (v.extractLsb' (w * j) w).toNat := rfl
  have hmod : (v.extractLsb' (w * j) w).toNat % 2 ^ w = (v.extractLsb' (w * j) w).toNat := Nat.mod_eq_of_lt (BitVec.isLt _)
  rw [intVal, elementInt, signedOf, hbits, hmod, BitVec.toInt_eq_toNat_cond]
  norm_cast

theorem intTy_of_mem : ∀ t ∈ intTypes, intTy t.1.toNat = t.2 := by decide

theorem floatTy_of_mem : ∀ t ∈ floatTypes, floatTy t.1.toNat = t.2 := by decide

theorem icond_iff (c : BitVec 4 × (Int → Int → Prop)) (hc : c ∈ intCond) (a b : Int) : icond c.1.toNat a b = true ↔ c.2 a b := by
  simp only [intCond, List.mem_cons, List.not_mem_nil, or_false] at hc
  rcases hc with rfl | rfl | rfl | rfl | rfl | rfl
  case inl => exact beq_iff_eq
  case inr.inl => exact bne_iff_ne
  all_goals exact decide_eq_true_iff

/-! ### Compares, mask logic and VSEL (R126 to R128) -/

section
variable (s : State) (p : BitVec 2) (a b : BitVec 5) (m : BitVec 3) (hp : s.predOn p) (hfed : Fed s [a, b] [.m m])
include hp hfed

/-- VCMP gives the lanes whose elements all meet the condition. -/
theorem completes_vcmp (q t : BitVec 3) (c : BitVec 4) (w : Nat) (sg : Bool) (ht : intTy t.toNat = (w, sg)) :
    let r := Sources s [a, b]
    Completes (.vcmp p q a b m t c) s r [r.result 1 (.n 2)
      (.m q (laneTest (r.m m) (32 / w) (fun j => icond c.toNat (elementInt w sg (r.vsrc a).1 j) (elementInt w sg (r.vsrc b).1 j))))
      ((r.vsrc a).2 || (r.vsrc b).2 || r.anyPoison [.m m])] := by
  refine Completes.of_two_sources _ s p a b m _ rfl hp hfed _ _ _ (fun x hx => ?_)
  simp only [ht, State.vsrc_withIssue _ x hx, intVal_element]
  rfl

/-- VFCMP gives the lanes whose elements all meet the condition, in the floating mode that the instruction finds. -/
theorem completes_vfcmp (q t : BitVec 3) (c : BitVec 4) (f : Fmt) (ht : floatTy t.toNat = f) :
    let r := Sources s [a, b]
    let md := FpMode.of s.ctx.sys.fpc
    Completes (.vfcmp p q a b m t c) s r [r.result 1 (.n 2)
      (.m q (laneTest (r.m m) (32 / f.width) (fun j => fcond c.toNat (floatAt f md (r.vsrc a).1 j) (floatAt f md (r.vsrc b).1 j))))
      ((r.vsrc a).2 || (r.vsrc b).2 || r.anyPoison [.m m])] := by
  refine Completes.of_two_sources _ s p a b m _ rfl hp hfed _ _ _ (fun x hx => ?_)
  simp only [ht, State.vsrc_withIssue _ x hx, ← Sources_fpMode s [a, b] 1]
  rfl

/-- VSEL gives the merge of its sources under its mask. -/
theorem completes_vsel (d : BitVec 4) :
    let r := Sources s [a, b]
    Completes (.vsel p d a b m) s r
      (wholeResult r 2 d (mergeLanes (r.m m) (r.vsrc b).1 (r.vsrc a).1) ((r.vsrc a).2 || (r.vsrc b).2 || r.anyPoison [.m m])) := by
  refine Completes.of_two_sources _ s p a b m _ rfl hp hfed _ _ _ (fun x hx => ?_)
  simp only [State.vsrc_withIssue _ x hx]
  rfl

end

/-- An instruction that means mask logic by f combines its operands on all bits, and is poisoned by either (R127). -/
theorem completes_opMask (i : Instr) (f : Mask → Mask → Mask) (s : State) (p : BitVec 2) (d a b : BitVec 3)
    (hi : exec i s = .next ((opMask f p d a b).run s)) (hc : s.Clear) (hp : s.predOn p) (hgood : s.filesGood [.m a, .m b]) :
    Completes i s s.reads [s.reads.result 1 (.n 2) (.m d (f (s.reads.m a) (s.reads.m b))) (s.reads.anyPoison [.m a, .m b])] :=
  Completes.of_sources i s 1 p _ _ hi hc hp hgood _ _ _ _ (fun _ => rfl)

/-- Settles O24: a compare's result is a lane test, VSEL's a merge of lanes, and mask logic is one slot that reads two masks. -/
theorem vectorMasks : Obligations.VectorMasks := by
  intro s p d q x y m a b hp
  refine ⟨fun hfed => ⟨?vcmp, ?vfcmp, ?vsel⟩, ?logic⟩
  case vcmp =>
    intro t ht c hc
    refine ⟨_, completes_vcmp s p a b m hp hfed q t.1 c.1 t.2.1 t.2.2 (intTy_of_mem t ht), fun L hL => ?_⟩
    rw [laneTest_getLsbD _ _ _ L hL]
    simp only [icond_iff c hc]
  case vfcmp =>
    intro t ht c
    have hcode : (BitVec.ofNat 4 c.val).toNat = c.val := by
      rw [BitVec.toNat_ofNat]
      omega
    refine ⟨_, completes_vfcmp s p a b m hp hfed q t.1 (BitVec.ofNat 4 c.val) t.2 (floatTy_of_mem t ht), fun L hL => ?_⟩
    rw [laneTest_getLsbD _ _ _ L hL, hcode]
  case vsel =>
    exact ⟨_, completes_vsel s p a b m hp hfed d, fun L hL => lane_mergeLanes _ _ _ L hL⟩
  case logic =>
    intro hc hgood f hf
    simp only [maskLogic, List.mem_cons, List.not_mem_nil, or_false] at hf
    rcases hf with rfl | rfl | rfl | rfl
    case inl => exact completes_opMask (.mand p q x y) (· &&& ·) s p q x y rfl hc hp hgood
    case inr.inl => exact completes_opMask (.mor p q x y) (· ||| ·) s p q x y rfl hc hp hgood
    case inr.inr.inl => exact completes_opMask (.mxor p q x y) (· ^^^ ·) s p q x y rfl hc hp hgood
    case inr.inr.inr => exact completes_opMask (.mandn p q x y) (fun u v => u &&& ~~~v) s p q x y rfl hc hp hgood

end Sys2Proof.Machine
end
